-- ==== Sys2Proof/Word.lean ====
section
/-! DEFINITION. Word.lean: the fixed widths of the VX9 (R3, R16, R52) and nothing else. -/
namespace Sys2Proof

/-- A byte of memory, of a scratchpad or of a typed buffer. -/
abbrev Byte := BitVec 8
/-- One lane of a vector register, or one instruction word. -/
abbrev W32 := BitVec 32
/-- A scalar register, a special register, an address. -/
abbrev Word := BitVec 64
/-- A mask register or an execution mask: bit i is lane i (R16). -/
abbrev Mask := BitVec 128

end Sys2Proof
end

