-- ==== Sys2Proof/Syntax.lean ====
section
/-! DEFINITION. Syntax.lean: the instructions and steps of the VX9, one constructor of `Instr` per row of the opcode
table. Register numbers and the manual's codes are decoded here into types of their own; a literal form is a row, and
so a constructor, of its own. The rows that are no instructions (steps of engines, front ends and outside parties)
carry what names the step. -/
namespace Sys2Proof

/-- A scalar register s0 to s63 (R89). -/
abbrev SReg := BitVec 6
/-- A vector field: 0–59 name v0–v59, 60–63 the latches b0–b3 where R89 allows them. -/
abbrev VReg := BitVec 6
/-- A mask field: 1–15 name k1–k15; 0 is "no extra mask" where R89 allows it. -/
abbrev KReg := BitVec 4
/-- An accumulator tile c0–c3. -/
abbrev Tile := BitVec 2
/-- An activation table t0–t3. -/
abbrev TableId := BitVec 2

/-- One of the two PC slots of a wave. -/
inductive SlotId where
  | a | b
deriving DecidableEq, Repr, Inhabited

/-- Rounding mode, RM (R57). -/
inductive Rm where
  | rne | rtz | rdn | rup
deriving DecidableEq, Repr, Inhabited

/-- Overflow policy, OVF (R60). -/
inductive Ovf where
  | sat | inf | nan | trap
deriving DecidableEq, Repr, Inhabited

/-- Element packing of a lane, FMT (R93, R131). -/
inductive Packing where
  | f32 | f16x2 | bf16x2
deriving DecidableEq, Repr, Inhabited

/-- RM, OVF and FMT of a floating-point instruction (R97). -/
structure FpQ where
  rm : Rm
  ovf : Ovf
  fmt : Packing
deriving DecidableEq, Repr, Inhabited

/-- Access size, SZ (R93). -/
inductive Size where
  | b8 | b16 | b32 | b64
deriving DecidableEq, Repr, Inhabited

/-- Order of an access, ORD (R93). -/
inductive Order where
  | plain | acq | rel | acqRel
deriving DecidableEq, Repr, Inhabited

/-- Scope (R93). -/
inductive Scope where
  | wave | team | cluster | die | package | system
deriving DecidableEq, Repr, Inhabited

/-- Cache hint (R93). -/
inductive CacheHint where
  | default | noAllocate | keep | bypassCluster
deriving DecidableEq, Repr, Inhabited

/-- The qualifiers of a load or store (R162). -/
structure MemQ where
  size : Size
  strm : BitVec 4
  scope : Scope
  order : Order
  cache : CacheHint
  sx : Bool
deriving DecidableEq, Repr, Inhabited

/-- The qualifiers of an atomic (R166); `wide` is SZ 11, else SZ 10. -/
structure AtomQ where
  wide : Bool
  strm : BitVec 4
  scope : Scope
  order : Order
deriving DecidableEq, Repr, Inhabited

/-- The qualifiers of MWAIT (R172). -/
structure WaitQ where
  wide : Bool
  strm : BitVec 4
  scope : Scope
  acquire : Bool
deriving DecidableEq, Repr, Inhabited

/-- Atomic operation, AOP (R98, R167). -/
inductive AtomOp where
  | add | min | minn | max | maxn | and | or | xor | swap | cas | fadd | fmin | fmax
deriving DecidableEq, Repr, Inhabited

/-- Compare condition of VCMP (R129). -/
inductive VCond where
  | eq | ne | lt | le | gt | ge | ltn | len | gtn | gen | feq | fne | flt | fle | fgt | fge | funo | ford
deriving DecidableEq, Repr, Inhabited

/-- Reduction operation of VRED and VSCAN (R138). -/
inductive RedOp where
  | add | min | minn | max | maxn | and | fadd | fmin | or | xor | fmax
deriving DecidableEq, Repr, Inhabited

/-- Type codes of VCVT (R96). -/
inductive LaneType where
  | f32 | f16 | bf16 | e4m3 | e5m2 | i32 | n32 | i16 | n16 | i8 | n8
deriving DecidableEq, Repr, Inhabited

/-- Q4 block type (R55). -/
inductive BlockType where
  | int | e2m1 | pow2 | hyb
deriving DecidableEq, Repr, Inhabited

/-- Array element format, FMT4 (R93). -/
inductive ArrayFmt where
  | f16 | bf16 | e4m3 | e5m2 | i8 | q4
deriving DecidableEq, Repr, Inhabited

/-- What an uncorrectable error strikes (R320): bytes of memory, of a bank's scratchpad share or of a core's typed buffer
(0 WBUF, 1 ABUF, 2 CBUF), an operand of the XV that a wave has in flight, or a bank's register file, stacks or tables. -/
inductive EccSite where
  | memory (pa n : Nat)
  | scratchpad (bank off n : Nat)
  | buffer (core which off n : Nat)
  | xvOperand (wave : Nat)
  | bank (bank : Nat)
deriving DecidableEq, Repr, Inhabited

/-- The path of a hart's window access (R232, R266): through the page mapped into a guest, or through the window, at HS or
at M. -/
inductive WinPath where
  | guest | system | machine
deriving DecidableEq, Repr, Inhabited

/-- A hart's memory access (R229). -/
inductive HartAccess where
  | load | store | amo (op : AtomOp)
deriving DecidableEq, Repr, Inhabited

/-- The rows of the opcode table. -/
inductive Instr where
  /-- ADD (R103) -/
  | add (d a b : SReg)
  /-- ADD_LIT (R102) -/
  | addLit (d a : SReg) (lit : W32)
  /-- SUB (R103) -/
  | sub (d a b : SReg)
  /-- SUB_LIT (R102) -/
  | subLit (d a : SReg) (lit : W32)
  /-- MUL (R103) -/
  | mul (d a b : SReg)
  /-- MUL_LIT (R102) -/
  | mulLit (d a : SReg) (lit : W32)
  /-- MULH (R103) -/
  | mulh (d a b : SReg)
  /-- MULH_LIT (R102) -/
  | mulhLit (d a : SReg) (lit : W32)
  /-- MULHN (R103) -/
  | mulhn (d a b : SReg)
  /-- MULHN_LIT (R102) -/
  | mulhnLit (d a : SReg) (lit : W32)
  /-- DIV (R104) -/
  | div (d a b : SReg)
  /-- DIV_LIT (R102) -/
  | divLit (d a : SReg) (lit : W32)
  /-- DIVN (R104) -/
  | divn (d a b : SReg)
  /-- DIVN_LIT (R102) -/
  | divnLit (d a : SReg) (lit : W32)
  /-- REM (R104) -/
  | rem (d a b : SReg)
  /-- REM_LIT (R102) -/
  | remLit (d a : SReg) (lit : W32)
  /-- REMN (R104) -/
  | remn (d a b : SReg)
  /-- REMN_LIT (R102) -/
  | remnLit (d a : SReg) (lit : W32)
  /-- AND (R103) -/
  | and_ (d a b : SReg)
  /-- AND_LIT (R102) -/
  | andLit (d a : SReg) (lit : W32)
  /-- OR (R103) -/
  | or_ (d a b : SReg)
  /-- OR_LIT (R102) -/
  | orLit (d a : SReg) (lit : W32)
  /-- XOR (R103) -/
  | xor (d a b : SReg)
  /-- XOR_LIT (R102) -/
  | xorLit (d a : SReg) (lit : W32)
  /-- ANDN (R103) -/
  | andn (d a b : SReg)
  /-- ANDN_LIT (R102) -/
  | andnLit (d a : SReg) (lit : W32)
  /-- SHL (R103) -/
  | shl (d a b : SReg)
  /-- SHL_LIT (R102) -/
  | shlLit (d a : SReg) (lit : W32)
  /-- SHR (R103) -/
  | shr (d a b : SReg)
  /-- SHR_LIT (R102) -/
  | shrLit (d a : SReg) (lit : W32)
  /-- SHA (R103) -/
  | sha (d a b : SReg)
  /-- SHA_LIT (R102) -/
  | shaLit (d a : SReg) (lit : W32)
  /-- ROL (R103) -/
  | rol (d a b : SReg)
  /-- ROL_LIT (R102) -/
  | rolLit (d a : SReg) (lit : W32)
  /-- MIN (R103) -/
  | min_ (d a b : SReg)
  /-- MIN_LIT (R102) -/
  | minLit (d a : SReg) (lit : W32)
  /-- MINN (R103) -/
  | minn (d a b : SReg)
  /-- MINN_LIT (R102) -/
  | minnLit (d a : SReg) (lit : W32)
  /-- MAX (R103) -/
  | max_ (d a b : SReg)
  /-- MAX_LIT (R102) -/
  | maxLit (d a : SReg) (lit : W32)
  /-- MAXN (R103) -/
  | maxn (d a b : SReg)
  /-- MAXN_LIT (R102) -/
  | maxnLit (d a : SReg) (lit : W32)
  /-- SLT (R103) -/
  | slt (d a b : SReg)
  /-- SLT_LIT (R102) -/
  | sltLit (d a : SReg) (lit : W32)
  /-- SLTN (R103) -/
  | sltn (d a b : SReg)
  /-- SLTN_LIT (R102) -/
  | sltnLit (d a : SReg) (lit : W32)
  /-- SEQ (R103) -/
  | seq (d a b : SReg)
  /-- SEQ_LIT (R102) -/
  | seqLit (d a : SReg) (lit : W32)
  /-- CLZ (R103) -/
  | clz (d a : SReg)
  /-- CTZ (R103) -/
  | ctz (d a : SReg)
  /-- POPC (R103) -/
  | popc (d a : SReg)
  /-- ADDI (R105) -/
  | addi (d a : SReg) (imm : BitVec 12)
  /-- ADDI_LIT (R105) -/
  | addiLit (d a : SReg) (lit : W32)
  /-- ANDI (R105) -/
  | andi (d a : SReg) (imm : BitVec 12)
  /-- ANDI_LIT (R105) -/
  | andiLit (d a : SReg) (lit : W32)
  /-- ORI (R105) -/
  | ori (d a : SReg) (imm : BitVec 12)
  /-- ORI_LIT (R105) -/
  | oriLit (d a : SReg) (lit : W32)
  /-- XORI (R105) -/
  | xori (d a : SReg) (imm : BitVec 12)
  /-- XORI_LIT (R105) -/
  | xoriLit (d a : SReg) (lit : W32)
  /-- SLTI (R105) -/
  | slti (d a : SReg) (imm : BitVec 12)
  /-- SLTI_LIT (R105) -/
  | sltiLit (d a : SReg) (lit : W32)
  /-- SLTNI (R105) -/
  | sltni (d a : SReg) (imm : BitVec 12)
  /-- SLTNI_LIT (R105) -/
  | sltniLit (d a : SReg) (lit : W32)
  /-- SHLI (R106) -/
  | shli (d a : SReg) (n : BitVec 6)
  /-- SHRI (R106) -/
  | shri (d a : SReg) (n : BitVec 6)
  /-- SHAI (R106) -/
  | shai (d a : SReg) (n : BitVec 6)
  /-- ROLI (R106) -/
  | roli (d a : SReg) (n : BitVec 6)
  /-- SRD (R107) -/
  | srd (d : SReg) (spr : BitVec 12)
  /-- SWR (R107) -/
  | swr (a : SReg) (spr : BitVec 12)
  /-- BRA (R111) -/
  | bra (off : BitVec 24)
  /-- BRA_LIT (R111) -/
  | braLit (lit : W32)
  /-- CALL (R111) -/
  | call (off : BitVec 24)
  /-- CALL_LIT (R111) -/
  | callLit (lit : W32)
  /-- BEQZ (R112) -/
  | beqz (a : SReg) (off : BitVec 14)
  /-- BEQZ_LIT (R112) -/
  | beqzLit (a : SReg) (lit : W32)
  /-- BNEZ (R112) -/
  | bnez (a : SReg) (off : BitVec 14)
  /-- BNEZ_LIT (R112) -/
  | bnezLit (a : SReg) (lit : W32)
  /-- BLTZ (R112) -/
  | bltz (a : SReg) (off : BitVec 14)
  /-- BLTZ_LIT (R112) -/
  | bltzLit (a : SReg) (lit : W32)
  /-- BGEZ (R112) -/
  | bgez (a : SReg) (off : BitVec 14)
  /-- BGEZ_LIT (R112) -/
  | bgezLit (a : SReg) (lit : W32)
  /-- BLEZ (R112) -/
  | blez (a : SReg) (off : BitVec 14)
  /-- BLEZ_LIT (R112) -/
  | blezLit (a : SReg) (lit : W32)
  /-- BGTZ (R112) -/
  | bgtz (a : SReg) (off : BitVec 14)
  /-- BGTZ_LIT (R112) -/
  | bgtzLit (a : SReg) (lit : W32)
  /-- VBR (R22) -/
  | vbr (k : KReg) (off : BitVec 14)
  /-- VBR_LIT (R114) -/
  | vbrLit (k : KReg) (lit : W32)
  /-- BANY (R115) -/
  | bany (k : KReg) (off : BitVec 14)
  /-- BANY_LIT (R115) -/
  | banyLit (k : KReg) (lit : W32)
  /-- BALL (R115) -/
  | ball (k : KReg) (off : BitVec 14)
  /-- BALL_LIT (R115) -/
  | ballLit (k : KReg) (lit : W32)
  /-- BNONE (R115) -/
  | bnone (k : KReg) (off : BitVec 14)
  /-- BNONE_LIT (R115) -/
  | bnoneLit (k : KReg) (lit : W32)
  /-- JMPI (R113) -/
  | jmpi (a : SReg)
  /-- CALLI (R113) -/
  | calli (a : SReg)
  /-- TRAP (R116) -/
  | trap (n : BitVec 6)
  /-- KAND (R118) -/
  | kand (d a b : KReg)
  /-- KOR (R118) -/
  | kor (d a b : KReg)
  /-- KXOR (R118) -/
  | kxor (d a b : KReg)
  /-- KANDN (R118) -/
  | kandn (d a b : KReg)
  /-- KNOT (R118) -/
  | knot (d a : KReg)
  /-- KMOV (R118) -/
  | kmov (d a : KReg)
  /-- KPOPC (R118) -/
  | kpopc (s : SReg) (a : KReg)
  /-- KFIRST (R118) -/
  | kfirst (s : SReg) (a : KReg)
  /-- KLDS (R118) -/
  | klds (d : KReg) (s : SReg)
  /-- KSTS (R118) -/
  | ksts (s : SReg) (a : KReg)
  /-- KEXEC (R118) -/
  | kexec (d : KReg)
  /-- KLANE (R118) -/
  | klane (d : KReg) (s : SReg)
  /-- VADD (R126) -/
  | vadd (d a b : VReg) (k : KReg)
  /-- VADD_LIT (R122) -/
  | vaddLit (d a : VReg) (k : KReg) (lit : W32)
  /-- VSUB (R126) -/
  | vsub (d a b : VReg) (k : KReg)
  /-- VSUB_LIT (R122) -/
  | vsubLit (d a : VReg) (k : KReg) (lit : W32)
  /-- VMUL (R126) -/
  | vmul (d a b : VReg) (k : KReg)
  /-- VMUL_LIT (R122) -/
  | vmulLit (d a : VReg) (k : KReg) (lit : W32)
  /-- VMULH (R126) -/
  | vmulh (d a b : VReg) (k : KReg)
  /-- VMULH_LIT (R122) -/
  | vmulhLit (d a : VReg) (k : KReg) (lit : W32)
  /-- VAND (R126) -/
  | vand (d a b : VReg) (k : KReg)
  /-- VAND_LIT (R122) -/
  | vandLit (d a : VReg) (k : KReg) (lit : W32)
  /-- VOR (R126) -/
  | vor (d a b : VReg) (k : KReg)
  /-- VOR_LIT (R122) -/
  | vorLit (d a : VReg) (k : KReg) (lit : W32)
  /-- VXOR (R126) -/
  | vxor (d a b : VReg) (k : KReg)
  /-- VXOR_LIT (R122) -/
  | vxorLit (d a : VReg) (k : KReg) (lit : W32)
  /-- VANDN (R126) -/
  | vandn (d a b : VReg) (k : KReg)
  /-- VANDN_LIT (R122) -/
  | vandnLit (d a : VReg) (k : KReg) (lit : W32)
  /-- VSHL (R126) -/
  | vshl (d a b : VReg) (k : KReg)
  /-- VSHL_LIT (R122) -/
  | vshlLit (d a : VReg) (k : KReg) (lit : W32)
  /-- VSHR (R126) -/
  | vshr (d a b : VReg) (k : KReg)
  /-- VSHR_LIT (R122) -/
  | vshrLit (d a : VReg) (k : KReg) (lit : W32)
  /-- VSHA (R126) -/
  | vsha (d a b : VReg) (k : KReg)
  /-- VSHA_LIT (R122) -/
  | vshaLit (d a : VReg) (k : KReg) (lit : W32)
  /-- VROL (R126) -/
  | vrol (d a b : VReg) (k : KReg)
  /-- VROL_LIT (R122) -/
  | vrolLit (d a : VReg) (k : KReg) (lit : W32)
  /-- VMIN (R126) -/
  | vmin (d a b : VReg) (k : KReg)
  /-- VMIN_LIT (R122) -/
  | vminLit (d a : VReg) (k : KReg) (lit : W32)
  /-- VMINN (R126) -/
  | vminn (d a b : VReg) (k : KReg)
  /-- VMINN_LIT (R122) -/
  | vminnLit (d a : VReg) (k : KReg) (lit : W32)
  /-- VMAX (R126) -/
  | vmax (d a b : VReg) (k : KReg)
  /-- VMAX_LIT (R122) -/
  | vmaxLit (d a : VReg) (k : KReg) (lit : W32)
  /-- VMAXN (R126) -/
  | vmaxn (d a b : VReg) (k : KReg)
  /-- VMAXN_LIT (R122) -/
  | vmaxnLit (d a : VReg) (k : KReg) (lit : W32)
  /-- VSEL (R127) -/
  | vsel (d a b : VReg) (k : KReg)
  /-- VSEL_LIT (R127) -/
  | vselLit (d a : VReg) (k : KReg) (lit : W32)
  /-- VBCST (R127) -/
  | vbcst (d : VReg) (s : SReg) (k : KReg)
  /-- VLID (R127) -/
  | vlid (d : VReg) (k : KReg)
  /-- VMOV (R127) -/
  | vmov (d b : VReg) (k : KReg)
  /-- VMOV_LIT (R127) -/
  | vmovLit (d : VReg) (k : KReg) (lit : W32)
  /-- VCMP (R129) -/
  | vcmp (c : VCond) (d : KReg) (a b : VReg) (k : KReg)
  /-- VCMP_LIT (R129) -/
  | vcmpLit (c : VCond) (d : KReg) (a : VReg) (k : KReg) (lit : W32)
  /-- VMAD (R130) -/
  | vmad (d a b c : VReg) (k : KReg)
  /-- VMAD_LIT (R130) -/
  | vmadLit (d a c : VReg) (k : KReg) (lit : W32)
  /-- VCLZ (R130) -/
  | vclz (d a : VReg) (k : KReg)
  /-- VPOPC (R130) -/
  | vpopc (d a : VReg) (k : KReg)
  /-- VABS (R130) -/
  | vabs (d a : VReg) (k : KReg)
  /-- VNEG (R130) -/
  | vneg (d a : VReg) (k : KReg)
  /-- VFADD (R131) -/
  | vfadd (d a b : VReg) (k : KReg) (q : FpQ)
  /-- VFADD_LIT (R131) -/
  | vfaddLit (d a : VReg) (k : KReg) (q : FpQ) (lit : W32)
  /-- VFSUB (R131) -/
  | vfsub (d a b : VReg) (k : KReg) (q : FpQ)
  /-- VFSUB_LIT (R131) -/
  | vfsubLit (d a : VReg) (k : KReg) (q : FpQ) (lit : W32)
  /-- VFMUL (R131) -/
  | vfmul (d a b : VReg) (k : KReg) (q : FpQ)
  /-- VFMUL_LIT (R131) -/
  | vfmulLit (d a : VReg) (k : KReg) (q : FpQ) (lit : W32)
  /-- VFMA (R131) -/
  | vfma (d a b c : VReg) (k : KReg) (q : FpQ)
  /-- VFMA_LIT (R131) -/
  | vfmaLit (d a c : VReg) (k : KReg) (q : FpQ) (lit : W32)
  /-- VFMIN (R63) -/
  | vfmin (d a b : VReg) (k : KReg) (f : Packing)
  /-- VFMIN_LIT (R131) -/
  | vfminLit (d a : VReg) (k : KReg) (f : Packing) (lit : W32)
  /-- VFMAX (R63) -/
  | vfmax (d a b : VReg) (k : KReg) (f : Packing)
  /-- VFMAX_LIT (R131) -/
  | vfmaxLit (d a : VReg) (k : KReg) (f : Packing) (lit : W32)
  /-- VFABS (R131) -/
  | vfabs (d a : VReg) (k : KReg) (f : Packing)
  /-- VFNEG (R131) -/
  | vfneg (d a : VReg) (k : KReg) (f : Packing)
  /-- VFRND (R132) -/
  | vfrnd (d a : VReg) (k : KReg) (f : Packing) (rm : Rm)
  /-- VRCP (R133) -/
  | vrcp (d a : VReg) (k : KReg) (f : Packing) (ovf : Ovf)
  /-- VRSQ (R133) -/
  | vrsq (d a : VReg) (k : KReg) (f : Packing) (ovf : Ovf)
  /-- VSQRT (R133) -/
  | vsqrt (d a : VReg) (k : KReg) (f : Packing) (ovf : Ovf)
  /-- VEXP2 (R133) -/
  | vexp2 (d a : VReg) (k : KReg) (f : Packing) (ovf : Ovf)
  /-- VLOG2 (R133) -/
  | vlog2 (d a : VReg) (k : KReg) (f : Packing) (ovf : Ovf)
  /-- VSIN (R133) -/
  | vsin (d a : VReg) (k : KReg) (f : Packing) (ovf : Ovf)
  /-- VCOS (R133) -/
  | vcos (d a : VReg) (k : KReg) (f : Packing) (ovf : Ovf)
  /-- VTANH (R133) -/
  | vtanh (d a : VReg) (k : KReg) (f : Packing) (ovf : Ovf)
  /-- VSIGM (R133) -/
  | vsigm (d a : VReg) (k : KReg) (f : Packing) (ovf : Ovf)
  /-- VERF (R133) -/
  | verf (d a : VReg) (k : KReg) (f : Packing) (ovf : Ovf)
  /-- VCVT (R134) -/
  | vcvt (src dst : LaneType) (d a : VReg) (k : KReg) (rm : Rm) (ovf : Ovf) (sr : Bool)
  /-- VQPACK (R135) -/
  | vqpack (t : BlockType) (d a : VReg) (k : KReg)
  /-- VQUNPK (R136) -/
  | vqunpk (d a : VReg) (k : KReg)
  /-- VPERM (R137) -/
  | vperm (d a b : VReg) (k : KReg)
  /-- VPERM_LIT (R137) -/
  | vpermLit (d a : VReg) (k : KReg) (lit : W32)
  /-- VRED (R138) -/
  | vred (op : RedOp) (d : SReg) (a : VReg) (k : KReg) (rm : Rm) (ovf : Ovf)
  /-- VSCAN (R139) -/
  | vscan (op : RedOp) (d a : VReg) (k : KReg) (rm : Rm) (ovf : Ovf)
  /-- VCMPRS (R140) -/
  | vcmprs (d a : VReg) (k : KReg)
  /-- VMATCH (R141) -/
  | vmatch (d a : VReg) (k : KReg)
  /-- XVDEPTH (R142) -/
  | xvdepth (d : VReg) (k : KReg)
  /-- VDP4 (R143) -/
  | vdp4 (d a b c : VReg) (k : KReg) (rm : Rm) (ovf : Ovf)
  /-- VDP4_LIT (R143) -/
  | vdp4Lit (d a c : VReg) (k : KReg) (rm : Rm) (ovf : Ovf) (lit : W32)
  /-- XV (R147) -/
  | xv (p x y : VReg) (k : KReg)
  /-- XV_S0 (R147) -/
  | xvS0 (p x y : VReg) (k : KReg)
  /-- XV_S1 (R147) -/
  | xvS1 (p x y : VReg) (k : KReg)
  /-- XVPUSH (R153) -/
  | xvpush (a : VReg) (k : KReg)
  /-- XVPOP (R153) -/
  | xvpop (d : VReg) (k : KReg)
  /-- XVPEEK (R153) -/
  | xvpeek (d : VReg) (k : KReg)
  /-- XVCLR (R153) -/
  | xvclr (k : KReg)
  /-- TBLLD (R156) -/
  | tblld (t : TableId) (a : SReg)
  /-- TBLSW (R157) -/
  | tblsw (t : TableId)
  /-- TBLGEN (R158) -/
  | tblgen (d : SReg) (t : TableId)
  /-- VLD (R163) -/
  | vld (t : VReg) (sb : SReg) (vo : VReg) (k : KReg) (imm : BitVec 20) (m : MemQ)
  /-- VLD_LIT (R162) -/
  | vldLit (t : VReg) (sb : SReg) (vo : VReg) (k : KReg) (m : MemQ) (lit : W32)
  /-- VST (R163) -/
  | vst (t : VReg) (sb : SReg) (vo : VReg) (k : KReg) (imm : BitVec 20) (m : MemQ)
  /-- VST_LIT (R162) -/
  | vstLit (t : VReg) (sb : SReg) (vo : VReg) (k : KReg) (m : MemQ) (lit : W32)
  /-- SLD (R163) -/
  | sld (t sb : SReg) (imm : BitVec 20) (m : MemQ)
  /-- SLD_LIT (R162) -/
  | sldLit (t sb : SReg) (m : MemQ) (lit : W32)
  /-- SST (R163) -/
  | sst (t sb : SReg) (imm : BitVec 20) (m : MemQ)
  /-- SST_LIT (R162) -/
  | sstLit (t sb : SReg) (m : MemQ) (lit : W32)
  /-- VATOM (R167) -/
  | vatom (op : AtomOp) (t : VReg) (sb : SReg) (vo : VReg) (k : KReg) (imm : BitVec 16) (m : AtomQ)
  /-- SATOM (R167) -/
  | satom (op : AtomOp) (t sb : SReg) (imm : BitVec 16) (m : AtomQ)
  /-- MRED (R169) -/
  | mred (op : AtomOp) (t : VReg) (sb : SReg) (vo : VReg) (k : KReg) (imm : BitVec 16) (m : AtomQ)
  /-- FENCE (R170) -/
  | fence (streams : BitVec 16) (scope : Scope)
  /-- FENCE_ACQ (R170) -/
  | fenceAcq (streams : BitVec 16) (scope : Scope)
  /-- FENCE_REL (R170) -/
  | fenceRel (streams : BitVec 16) (scope : Scope)
  /-- MWAIT (R172) -/
  | mwait (t sb : SReg) (imm : BitVec 20) (q : WaitQ)
  /-- MWAIT_LIT (R172) -/
  | mwaitLit (t sb : SReg) (q : WaitQ) (lit : W32)
  /-- ICINV (R173) -/
  | icinv (scope : Scope) (a b : SReg)
  /-- DWB (R173) -/
  | dwb (a b : SReg)
  /-- DINV (R173) -/
  | dinv (a b : SReg)
  /-- CPY (R197) -/
  | cpy (dst src saw chain : SReg) (strm : BitVec 4) (scope : Scope) (mc : BitVec 8)
  /-- CPY_CVT (R197) -/
  | cpyCvt (dst src saw chain : SReg) (strm : BitVec 4) (scope : Scope) (mc : BitVec 8)
  /-- NSEND (R203) -/
  | nsend (flow rec saw : SReg) (strm : BitVec 4)
  /-- NPOST (R204) -/
  | npost (flow rec saw : SReg) (strm : BitVec 4)
  /-- BARINIT (R175) -/
  | barinit (rv : BitVec 6) (b : SReg)
  /-- BARARR (R176) -/
  | bararr (d : SReg) (rv : BitVec 6)
  /-- BARWAIT (R176) -/
  | barwait (rv : BitVec 6) (b : SReg)
  /-- BARSYNC (R176) -/
  | barsync (rv : BitVec 6)
  /-- AWSET (R177) -/
  | awset (a b : SReg)
  /-- AWWAIT (R177) -/
  | awwait (d a b : SReg)
  /-- AWADD (R177) -/
  | awadd (a b : SReg)
  /-- DQPUSH (R178) -/
  | dqpush (a : SReg)
  /-- DQPOP (R178) -/
  | dqpop (d : SReg)
  /-- DQSTEAL (R178) -/
  | dqsteal (d a : SReg)
  /-- DQCNT (R178) -/
  | dqcnt (d : SReg)
  /-- CAPENTER (R210) -/
  | capenter (d a del : SReg) (off : W32)
  /-- CAPEXIT (R213) -/
  | capexit (a : SReg)
  /-- CAPQRY (R216) -/
  | capqry (d a : SReg)
  /-- WLOAD (R188) -/
  | wload (f : ArrayFmt) (a : SReg)
  /-- MMA (R190) -/
  | mma (f : ArrayFmt) (acc : Bool) (t : Tile) (a b : SReg)
  /-- MMAD (R191) -/
  | mmad (f : ArrayFmt) (r : BitVec 2) (d : VReg) (a : SReg)
  /-- MDRAIN (R192) -/
  | mdrain (r : BitVec 2) (d : VReg) (t : Tile) (a : SReg)
  /-- MFILL (R192) -/
  | mfill (r : BitVec 2) (t : Tile) (v : VReg) (a : SReg)
  /-- CZERO (R193) -/
  | czero (t : Tile)
  /-- CWAIT (R193) -/
  | cwait (t : Tile)
  /-- LGET (R280) -/
  | lget (d : SReg) (v : VReg) (b : SReg)
  /-- LPUT (R280) -/
  | lput (v : VReg) (a b : SReg)
  /-- TLCAUSE (R280) -/
  | tlcause (d a : SReg)
  /-- TLADDR (R280) -/
  | tladdr (d a : SReg)
  /-- TLSTEP (R280) -/
  | tlstep (d a : SReg)
  /-- TLBINV (R303) -/
  | tlbinv (a b : SReg)
  /-- FBPOP (R303) -/
  | fbpop (d a : SReg)
  /-- XLREPLAY (R303) -/
  | xlreplay (a : SReg)
  /-- FBSTAT (R303) -/
  | fbstat (d a : SReg)
  /-- BANKSW (R244) -/
  | banksw (a : SReg)
  /-- SPILL (R245) -/
  | spill (a b : SReg)
  /-- FILL (R245) -/
  | fill (a b : SReg)
  /-- GATE (R244) -/
  | gate (a : SReg)
  /-- MIGR (R245) -/
  | migr (a b : SReg)
  /-- NOP (R116) -/
  | nop
  /-- RET (R113) -/
  | ret
  /-- JOIN (R23) -/
  | join
  /-- YIELD (R116) -/
  | yield
  /-- END (R24) -/
  | end_
  /-- TRET (R282) -/
  | tret
  /-- CAPSTEP (R212) -/
  | capstep
  /-- CAPDROP (R215) -/
  | capdrop
  /-- XV_RETIRE (R151) -/
  | xvRetire (w : Nat)
  /-- TBLLD_COMPLETE (R156) -/
  | tblldComplete (bank : Nat)
  /-- LOAD_DATA_RETURN (R163) -/
  | loadDataReturn (w : Nat) (x : SlotId)
  /-- MWAIT_WAKE (R172) -/
  | mwaitWake (w : Nat) (x : SlotId)
  /-- MWAIT_TIMEOUT (R172) -/
  | mwaitTimeout (w : Nat) (x : SlotId)
  /-- COPY_LANDING (R200) -/
  | copyLanding (t : Nat)
  /-- COPY_COMPLETION (R200) -/
  | copyCompletion (t : Nat)
  /-- CHAINED_COMMAND_ENTRY (R199) -/
  | chainedCommandEntry (t bank : Nat)
  /-- ENGINE_FAULT (R286) -/
  | engineFault (t : Nat)
  /-- NETWORK_MESSAGE_PLACEMENT (R204) -/
  | networkMessagePlacement (flow : Nat) (data : List Byte)
  /-- REMOTE_ACCEPTANCE (R203) -/
  | remoteAcceptance (t : Nat)
  /-- ARRAY_ROW_DRAIN (R186) -/
  | arrayRowDrain (core : Nat)
  /-- MATRIX_OP_RETIRE (R186) -/
  | matrixOpRetire (core : Nat)
  /-- XLAT_COMPLETE (R303) -/
  | xlatComplete (w : Nat) (x : SlotId)
  /-- CTX_COMPLETE (R244) -/
  | ctxComplete (w : Nat) (x : SlotId)
  /-- COMMIT_GATE_RELEASE (R249) -/
  | commitGateRelease (w : Nat) (x : SlotId)
  /-- SHADOW_CHECK (R247) -/
  | shadowCheck (w : Nat) (x : SlotId) (stage : BitVec 4) (late : Bool)
  /-- STEP0_REEXECUTE (R311) -/
  | step0Reexecute (core : Nat) (late : Bool)
  /-- INJECTION_FIRE (R253) -/
  | injectionFire (core : Nat)
  /-- GOVERNOR_RAISE (R252) -/
  | governorRaise (core : Nat)
  /-- EVENT_WINDOW_EXPIRY (R252) -/
  | eventWindowExpiry (core : Nat)
  /-- MARGIN_SETTLE_COMPLETE (R251) -/
  | marginSettleComplete (core : Nat)
  /-- QUARANTINE (R313) -/
  | quarantine (core : Nat)
  /-- QUARANTINE_MOVE (R314) -/
  | quarantineMove (core : Nat)
  /-- SWAP_QUANTUM_EXPIRY (R243) -/
  | swapQuantumExpiry (core : Nat)
  /-- BANK_SWAP (R243) -/
  | bankSwap (core : Nat)
  /-- BANK_UNGATE (R243) -/
  | bankUngate (core : Nat)
  /-- QUEUE_DOORBELL (R232) -/
  | queueDoorbell (vf q : Nat) (widx : Word)
  /-- QUEUE_ENABLE (R308) -/
  | queueEnable (vf q : Nat)
  /-- QUEUE_DISABLE (R308) -/
  | queueDisable (vf q : Nat)
  /-- PACKET_FETCH (R233) -/
  | packetFetch (vf q : Nat)
  /-- SIGNAL_REREAD (R235) -/
  | signalReread (vf q : Nat)
  /-- CFE_CHOICE (R237) -/
  | cfeChoice (p vf q : Nat)
  /-- LAUNCH_COMPLETION (R35) -/
  | launchCompletion (l : Nat)
  /-- HXT_LAUNCH_MESSAGE (R236) -/
  | hxtLaunchMessage (tenant : W32) (port : Nat) (pre : Word) (packet : List Word)
  /-- LAUNCH_CREDIT_REFILL (R236) -/
  | launchCreditRefill
  /-- SERVICE_RING_RECORD (R287) -/
  | serviceRingRecord (p : Nat)
  /-- RESUME (R288) -/
  | resume (w : Nat) (v : Word)
  /-- DELIVER (R288) -/
  | deliver (w : Nat) (v : Word)
  /-- KILL (R288) -/
  | kill (w : Nat) (v : Word)
  /-- AUDIT_RERUN (R318) -/
  | auditRerun (l team bank : Nat)
  /-- AUDIT_COMPARE (R319) -/
  | auditCompare (l team : Nat)
  /-- UNCORRECTABLE_ERROR (R320) -/
  | uncorrectableError (site : EccSite)
  /-- INTEGRITY_TREE_FAILURE (R323) -/
  | integrityTreeFailure (world base len : Nat)
  /-- MODULE_BOOT (R256) -/
  | moduleBoot
  /-- PARTITION_HALT (R264) -/
  | partitionHalt (p : Nat)
  /-- PARTITION_RESUME (R264) -/
  | partitionResume (p : Nat)
  /-- PARTITION_SAVE_DONE (R246) -/
  | partitionSaveDone (p : Nat)
  /-- PARTITION_RESTORE_DONE (R246) -/
  | partitionRestoreDone (p : Nat)
  /-- IMAGE_LOAD_GO (R261) -/
  | imageLoadGo
  /-- IMAGE_VERIFY_DONE (R261) -/
  | imageVerifyDone (verified : Bool) (loadid : Word)
  /-- IMAGE_REVOKE (R261) -/
  | imageRevoke
  /-- WORLD_WRITE (R266) -/
  | worldWrite (die : Nat) (v : Word)
  /-- WORLD_KEY_DESTROY (R266) -/
  | worldKeyDestroy (world : Nat)
  /-- BOUNCE_RESYNC (R310) -/
  | bounceResync (vf j : Nat) (v : W32)
  /-- BOUNCE_HSEQ_WRITE (R310) -/
  | bounceHseqWrite (vf j : Nat) (v : W32)
  /-- FLOW_VALID_CLEAR (R306) -/
  | flowValidClear (p flow : Nat)
  /-- WINDOW_WRITE (R258) -/
  | windowWrite (off : Nat) (v : Word) (path : WinPath)
  /-- PCIE_CXL_REQUEST (R268) -/
  | pcieCxlRequest (port : Nat) (write : Bool) (pa n : Nat) (v : Word)
  /-- SPDM_REQUEST (R268) -/
  | spdmRequest
  /-- POWER_LIMIT_WITHHOLDING (R12) -/
  | powerLimitWithholding (cycles : Nat)
  /-- LERRID_HART_MEMORY_ACCESS (R229) -/
  | lerridHartMemoryAccess (hart : Nat) (acc : HartAccess) (pa n : Nat) (v : Word)
  /-- CROSS_DIE_WRITE_APPLY (R225) -/
  | crossDieWriteApply (src dst : Nat) (clock : List Nat)
  /-- ICINV_COMPLETION (R173) -/
  | icinvCompletion (w : Nat) (x : SlotId)
deriving DecidableEq, Repr, Inhabited

end Sys2Proof
end

