-- ==== Sys2Proof/WellFormed.lean ====
section
/-! DEFINITION. WellFormed.lean: which instructions the encoding limits of R89 to R98, R208 and R209 admit. A word whose
fields break one of these is no instruction: the decoder refuses it (R100). For a step that is no instruction, its names
must lie in the ranges the device has (R7, R8, R259). -/
namespace Sys2Proof.Wf

/-- A field that names v0–v59 (R89). -/
def vreg (v : VReg) : Bool := decide (v.toNat ≤ 59)
/-- The destination of a vector ALU instruction: v0–v59, or 60 for the latches only (R89). -/
def aluDest (v : VReg) : Bool := decide (v.toNat ≤ 60)
/-- The offset field of F64-M and F64-A: v0–v59, or 60 for none (R89). -/
def voff (v : VReg) : Bool := decide (v.toNat ≤ 60)
/-- An even scalar or vector number. -/
def even6 (r : BitVec 6) : Bool := r.toNat % 2 == 0
/-- A pair of vector registers (R89). -/
def pair (v : VReg) : Bool := even6 v && decide (v.toNat ≤ 58)
/-- A quad of vector registers (R89). -/
def quad (v : VReg) : Bool := v.toNat % 4 == 0 && decide (v.toNat ≤ 56)
/-- The register run of MMAD, MDRAIN and MFILL ends at v59 or below (R89, R187). -/
def regRun (v : VReg) (r : BitVec 2) : Bool := decide (v.toNat + r.toNat ≤ 59)
/-- A literal byte offset has bits [1:0] = 00 (R88). -/
def litAligned (l : W32) : Bool := l.toNat % 4 == 0
/-- RM and OVF are used by the FADD reduction alone (R97). -/
def redQ (op : RedOp) (rm : Rm) (ovf : Ovf) : Bool := op == .fadd || (rm == .rne && ovf == .sat)
/-- The data register of a vector access: a pair at SZ 11 (R162). -/
def vecData (z : Size) (t : VReg) : Bool := if z == .b64 then pair t else vreg t
/-- A plain access has SCOPE 0 (R162). -/
def plainScope (m : MemQ) : Bool := m.order != .plain || m.scope == .wave
/-- ORD of a load is plain or acquire (R98). -/
def loadQ (m : MemQ) : Bool := (m.order == .plain || m.order == .acq) && plainScope m
/-- ORD of a store is plain or release, and SX is a load's (R98). -/
def storeQ (m : MemQ) : Bool := (m.order == .plain || m.order == .rel) && plainScope m && !m.sx
/-- FADD, FMIN and FMAX need SZ 10 (R98). -/
def atomWidth (op : AtomOp) (m : AtomQ) : Bool := !m.wide || !(op == .fadd || op == .fmin || op == .fmax)
/-- The operand registers of a vector atomic (R98, R166). -/
def atomVec (op : AtomOp) (m : AtomQ) (t : VReg) : Bool :=
  if op == .cas then (if m.wide then quad t else decide (t.toNat ≤ 58)) else if m.wide then pair t else vreg t
/-- A rendezvous number, 0–23 (R98). -/
def rvOk (rv : BitVec 6) : Bool := decide (rv.toNat ≤ 23)
/-- A register of CAPENTER: s1–s47 or s56–s63 (R208). -/
def enterReg (r : SReg) : Bool := decide (1 ≤ r.toNat ∧ r.toNat ≤ 47) || decide (56 ≤ r.toNat)
/-- A register a capsule body may name: s0 or s48–s55 (R83, R209). -/
def capReg (r : SReg) : Bool := r == 0 || decide (48 ≤ r.toNat ∧ r.toNat ≤ 55)
/-- A hardware wave of the package, by WAVEID (R20). -/
def waveOk (w : Nat) : Bool := decide (w < 8192)
/-- A bank of the package, 2 × core + bank. -/
def bankOk (b : Nat) : Bool := decide (b < 1024)
/-- A core of the package (R8). -/
def coreOk (c : Nat) : Bool := decide (c < 512)
/-- A partition (R7). -/
def partOk (p : Nat) : Bool := decide (p < 48)
/-- A queue of a VF (R232). -/
def queueOk (vf q : Nat) : Bool := decide (vf < 192) && decide (q < 8)

end Sys2Proof.Wf

namespace Sys2Proof
open Wf

/-- The encoding limits of each row. -/
def Instr.wf : Instr → Bool
  | .braLit lit => litAligned lit
  | .callLit lit => litAligned lit
  | .beqzLit _ lit => litAligned lit
  | .bnezLit _ lit => litAligned lit
  | .bltzLit _ lit => litAligned lit
  | .bgezLit _ lit => litAligned lit
  | .blezLit _ lit => litAligned lit
  | .bgtzLit _ lit => litAligned lit
  | .vbrLit _ lit => litAligned lit
  | .banyLit _ lit => litAligned lit
  | .ballLit _ lit => litAligned lit
  | .bnoneLit _ lit => litAligned lit
  | .kand d a b => d != 0 && a != 0 && b != 0
  | .kor d a b => d != 0 && a != 0 && b != 0
  | .kxor d a b => d != 0 && a != 0 && b != 0
  | .kandn d a b => d != 0 && a != 0 && b != 0
  | .knot d a => d != 0 && a != 0
  | .kmov d a => d != 0 && a != 0
  | .kpopc _ a => a != 0
  | .kfirst _ a => a != 0
  | .klds d s => d != 0 && even6 s
  | .ksts s a => a != 0 && even6 s
  | .kexec d => d != 0
  | .klane d _ => d != 0
  | .vadd d _ _ _ => aluDest d
  | .vaddLit d _ _ _ => aluDest d
  | .vsub d _ _ _ => aluDest d
  | .vsubLit d _ _ _ => aluDest d
  | .vmul d _ _ _ => aluDest d
  | .vmulLit d _ _ _ => aluDest d
  | .vmulh d _ _ _ => aluDest d
  | .vmulhLit d _ _ _ => aluDest d
  | .vand d _ _ _ => aluDest d
  | .vandLit d _ _ _ => aluDest d
  | .vor d _ _ _ => aluDest d
  | .vorLit d _ _ _ => aluDest d
  | .vxor d _ _ _ => aluDest d
  | .vxorLit d _ _ _ => aluDest d
  | .vandn d _ _ _ => aluDest d
  | .vandnLit d _ _ _ => aluDest d
  | .vshl d _ _ _ => aluDest d
  | .vshlLit d _ _ _ => aluDest d
  | .vshr d _ _ _ => aluDest d
  | .vshrLit d _ _ _ => aluDest d
  | .vsha d _ _ _ => aluDest d
  | .vshaLit d _ _ _ => aluDest d
  | .vrol d _ _ _ => aluDest d
  | .vrolLit d _ _ _ => aluDest d
  | .vmin d _ _ _ => aluDest d
  | .vminLit d _ _ _ => aluDest d
  | .vminn d _ _ _ => aluDest d
  | .vminnLit d _ _ _ => aluDest d
  | .vmax d _ _ _ => aluDest d
  | .vmaxLit d _ _ _ => aluDest d
  | .vmaxn d _ _ _ => aluDest d
  | .vmaxnLit d _ _ _ => aluDest d
  | .vsel d _ _ _ => aluDest d
  | .vselLit d _ _ _ => aluDest d
  | .vbcst d _ _ => aluDest d
  | .vlid d _ => aluDest d
  | .vmov d _ _ => aluDest d
  | .vmovLit d _ _ => aluDest d
  | .vcmp _ d a b _ => d != 0 && vreg a && vreg b
  | .vcmpLit _ d a _ _ => d != 0 && vreg a
  | .vmad d _ _ _ _ => aluDest d
  | .vmadLit d _ _ _ _ => aluDest d
  | .vclz d _ _ => aluDest d
  | .vpopc d _ _ => aluDest d
  | .vabs d _ _ => aluDest d
  | .vneg d _ _ => aluDest d
  | .vfadd d _ _ _ _ => aluDest d
  | .vfaddLit d _ _ _ _ => aluDest d
  | .vfsub d _ _ _ _ => aluDest d
  | .vfsubLit d _ _ _ _ => aluDest d
  | .vfmul d _ _ _ _ => aluDest d
  | .vfmulLit d _ _ _ _ => aluDest d
  | .vfma d _ _ _ _ _ => aluDest d
  | .vfmaLit d _ _ _ _ _ => aluDest d
  | .vfmin d _ _ _ _ => aluDest d
  | .vfminLit d _ _ _ _ => aluDest d
  | .vfmax d _ _ _ _ => aluDest d
  | .vfmaxLit d _ _ _ _ => aluDest d
  | .vfabs d _ _ _ => aluDest d
  | .vfneg d _ _ _ => aluDest d
  | .vfrnd d _ _ _ _ => aluDest d
  | .vrcp d _ _ _ _ => aluDest d
  | .vrsq d _ _ _ _ => aluDest d
  | .vsqrt d _ _ _ _ => aluDest d
  | .vexp2 d _ _ _ _ => aluDest d
  | .vlog2 d _ _ _ _ => aluDest d
  | .vsin d _ _ _ _ => aluDest d
  | .vcos d _ _ _ _ => aluDest d
  | .vtanh d _ _ _ _ => aluDest d
  | .vsigm d _ _ _ _ => aluDest d
  | .verf d _ _ _ _ => aluDest d
  | .vcvt src dst d _ _ _ _ _ => src != dst && aluDest d
  | .vqpack _ d a _ => vreg d && vreg a
  | .vqunpk d a _ => vreg d && vreg a
  | .vperm d a b _ => vreg d && vreg a && vreg b
  | .vpermLit d a _ _ => vreg d && vreg a
  | .vred op _ a _ rm ovf => vreg a && redQ op rm ovf
  | .vscan op d a _ rm ovf => vreg d && vreg a && redQ op rm ovf
  | .vcmprs d a _ => vreg d && vreg a
  | .vmatch d a _ => quad d && vreg a
  | .xvdepth d _ => vreg d
  | .vdp4 d a b c _ _ _ => vreg d && vreg a && vreg b && vreg c
  | .vdp4Lit d a c _ _ _ _ => vreg d && vreg a && vreg c
  | .xv p x y _ => vreg p && vreg x && vreg y
  | .xvS0 p x y _ => vreg p && vreg x && vreg y
  | .xvS1 p x y _ => vreg p && vreg x && vreg y
  | .xvRetire w => waveOk w
  | .xvpush v _ => vreg v
  | .xvpop v _ => vreg v
  | .xvpeek v _ => vreg v
  | .tblldComplete b => bankOk b
  | .vld t _ vo _ _ m => vecData m.size t && voff vo && loadQ m && (!m.sx || m.size == .b8 || m.size == .b16)
  | .vldLit t _ vo _ m _ => vecData m.size t && voff vo && loadQ m && (!m.sx || m.size == .b8 || m.size == .b16)
  | .vst t _ vo _ _ m => vecData m.size t && voff vo && storeQ m
  | .vstLit t _ vo _ m _ => vecData m.size t && voff vo && storeQ m
  | .sld _ _ _ m => loadQ m && (!m.sx || m.size != .b64)
  | .sldLit _ _ m _ => loadQ m && (!m.sx || m.size != .b64)
  | .sst _ _ _ m => storeQ m
  | .sstLit _ _ m _ => storeQ m
  | .loadDataReturn w _ => waveOk w
  | .vatom op t _ vo _ _ m => atomWidth op m && voff vo && atomVec op m t
  | .satom op t _ _ m => atomWidth op m && (op != .cas || t.toNat ≤ 62)
  | .mred op t _ vo _ _ m => atomWidth op m && voff vo && op != .swap && op != .cas && atomVec op m t
  | .fence streams _ => streams != 0
  | .fenceAcq streams _ => streams != 0
  | .fenceRel streams _ => streams != 0
  | .mwait _ _ _ q => q.acquire || q.scope == .wave
  | .mwaitLit _ _ q _ => q.acquire || q.scope == .wave
  | .mwaitWake w _ => waveOk w
  | .mwaitTimeout w _ => waveOk w
  | .chainedCommandEntry _ b => bankOk b
  | .networkMessagePlacement f _ => decide (f < 48 * 4096)
  | .barinit rv _ => rvOk rv
  | .bararr _ rv => rvOk rv
  | .barwait rv _ => rvOk rv
  | .barsync rv => rvOk rv
  | .capenter d a del off => enterReg d && enterReg a && enterReg del && litAligned off
  | .capexit a => capReg a
  | .mmad _ r d _ => regRun d r
  | .mdrain r d _ _ => regRun d r
  | .mfill r _ v _ => regRun v r
  | .arrayRowDrain c => coreOk c
  | .matrixOpRetire c => coreOk c
  | .lget _ v _ => vreg v
  | .lput v _ _ => vreg v
  | .fbpop d _ => even6 d
  | .xlatComplete w _ => waveOk w
  | .ctxComplete w _ => waveOk w
  | .commitGateRelease w _ => waveOk w
  | .shadowCheck w _ _ _ => waveOk w
  | .step0Reexecute c _ => coreOk c
  | .injectionFire c => coreOk c
  | .governorRaise c => coreOk c
  | .eventWindowExpiry c => coreOk c
  | .marginSettleComplete c => coreOk c
  | .quarantine c => coreOk c
  | .quarantineMove c => coreOk c
  | .swapQuantumExpiry c => coreOk c
  | .bankSwap c => coreOk c
  | .bankUngate c => coreOk c
  | .queueDoorbell vf q _ => queueOk vf q
  | .queueEnable vf q => queueOk vf q
  | .queueDisable vf q => queueOk vf q
  | .packetFetch vf q => queueOk vf q
  | .signalReread vf q => queueOk vf q
  | .cfeChoice p vf q => partOk p && queueOk vf q
  | .hxtLaunchMessage _ port _ packet => decide (port < 12) && packet.length == 8
  | .serviceRingRecord p => partOk p
  | .resume w _ => waveOk w
  | .deliver w _ => waveOk w
  | .kill w _ => waveOk w
  | .auditRerun _ _ b => bankOk b
  | .partitionHalt p => partOk p
  | .partitionResume p => partOk p
  | .partitionSaveDone p => partOk p
  | .partitionRestoreDone p => partOk p
  | .worldWrite die _ => decide (die < 8)
  | .bounceResync vf j _ => decide (vf < 192) && decide (j < 4)
  | .bounceHseqWrite vf j _ => decide (vf < 192) && decide (j < 4)
  | .flowValidClear p f => partOk p && decide (f < 4096)
  | .lerridHartMemoryAccess h _ _ _ _ => decide (h < 64)
  | .pcieCxlRequest port _ _ _ _ => decide (port < 4)
  | .crossDieWriteApply src dst _ => decide (src < 8) && decide (dst < 8)
  | .icinvCompletion w _ => waveOk w
  | .add .. | .addLit .. | .sub .. | .subLit .. | .mul .. | .mulLit .. | .mulh .. | .mulhLit .. | .mulhn ..
  | .mulhnLit .. | .div .. | .divLit .. | .divn .. | .divnLit .. | .rem .. | .remLit .. | .remn .. | .remnLit ..
  | .and_ .. | .andLit .. | .or_ .. | .orLit .. | .xor .. | .xorLit .. | .andn .. | .andnLit .. | .shl ..
  | .shlLit .. | .shr .. | .shrLit .. | .sha .. | .shaLit .. | .rol .. | .rolLit .. | .min_ .. | .minLit ..
  | .minn .. | .minnLit .. | .max_ .. | .maxLit .. | .maxn .. | .maxnLit .. | .slt .. | .sltLit .. | .sltn ..
  | .sltnLit .. | .seq .. | .seqLit .. | .clz .. | .ctz .. | .popc .. | .addi .. | .addiLit .. | .andi ..
  | .andiLit .. | .ori .. | .oriLit .. | .xori .. | .xoriLit .. | .slti .. | .sltiLit .. | .sltni .. | .sltniLit ..
  | .shli .. | .shri .. | .shai .. | .roli .. | .srd .. | .swr .. | .bra .. | .call .. | .beqz .. | .bnez ..
  | .bltz .. | .bgez .. | .blez .. | .bgtz .. | .vbr .. | .bany .. | .ball .. | .bnone .. | .nop | .ret | .jmpi ..
  | .calli .. | .join | .yield | .end_ | .trap .. | .tret | .xvclr .. | .tblld .. | .tblsw .. | .tblgen ..
  | .icinv .. | .dwb .. | .dinv .. | .cpy .. | .cpyCvt .. | .copyLanding .. | .copyCompletion .. | .engineFault ..
  | .nsend .. | .npost .. | .remoteAcceptance .. | .awset .. | .awwait .. | .awadd .. | .dqpush .. | .dqpop ..
  | .dqsteal .. | .dqcnt .. | .capstep | .capdrop | .capqry .. | .wload .. | .mma .. | .czero .. | .cwait ..
  | .tlcause .. | .tladdr .. | .tlstep .. | .tlbinv .. | .xlreplay .. | .fbstat .. | .banksw .. | .spill ..
  | .fill .. | .gate .. | .migr .. | .launchCompletion .. | .launchCreditRefill | .auditCompare ..
  | .uncorrectableError .. | .integrityTreeFailure .. | .moduleBoot | .imageLoadGo | .imageVerifyDone ..
  | .imageRevoke | .worldKeyDestroy .. | .windowWrite .. | .spdmRequest | .powerLimitWithholding .. => true

end Sys2Proof
end

