-- ==== Sys2Proof/Decode.lean ====
section
/-! DEFINITION. Decode.lean: from bytes to an instruction or a refusal by name (R86–R100), and the encoder written from
the same tables. The decoder reads the length from word 0, places the fields of the major's format, checks the zero
fields, and last the limits of `Instr.wf`. -/
namespace Sys2Proof

/-- Why a word is no instruction (R100). Every one of them is ILL, except that a text too short to hold the words
is no word at all. -/
inductive DecodeError where
  | tooShort
  | lenReserved
  | majorUnassigned
  | lengthMismatch
  | noLiteral
  | replacedFieldNonzero
  | functionUnassigned
  | zeroFieldNonzero
  | codeReserved
  | fieldLimit
deriving DecidableEq, Repr

/-- Bits `lo` to `lo + n − 1` of a word. -/
def fld (w : W32) (lo n : Nat) : BitVec n := w.extractLsb' lo n

/-! ### Field codes (R93, R96, R98) -/

def Rm.code : Rm → BitVec 2
  | .rne => 0 | .rtz => 1 | .rdn => 2 | .rup => 3
def rmOf (c : BitVec 2) : Rm :=
  match c.toNat with | 0 => .rne | 1 => .rtz | 2 => .rdn | _ => .rup
def Ovf.code : Ovf → BitVec 2
  | .sat => 0 | .inf => 1 | .nan => 2 | .trap => 3
def ovfOf (c : BitVec 2) : Ovf :=
  match c.toNat with | 0 => .sat | 1 => .inf | 2 => .nan | _ => .trap
def Packing.code : Packing → BitVec 2
  | .f32 => 0 | .f16x2 => 1 | .bf16x2 => 2
def packingOf (c : BitVec 2) : Option Packing :=
  match c.toNat with | 0 => some .f32 | 1 => some .f16x2 | 2 => some .bf16x2 | _ => none
def Size.code : Size → BitVec 2
  | .b8 => 0 | .b16 => 1 | .b32 => 2 | .b64 => 3
def sizeOf' (c : BitVec 2) : Size :=
  match c.toNat with | 0 => .b8 | 1 => .b16 | 2 => .b32 | _ => .b64
def Order.code : Order → BitVec 2
  | .plain => 0 | .acq => 1 | .rel => 2 | .acqRel => 3
def orderOf (c : BitVec 2) : Order :=
  match c.toNat with | 0 => .plain | 1 => .acq | 2 => .rel | _ => .acqRel
def Scope.code : Scope → BitVec 3
  | .wave => 0 | .team => 1 | .cluster => 2 | .die => 3 | .package => 4 | .system => 5
def scopeOf (c : BitVec 3) : Option Scope :=
  match c.toNat with
  | 0 => some .wave | 1 => some .team | 2 => some .cluster | 3 => some .die | 4 => some .package
  | 5 => some .system | _ => none
def CacheHint.code : CacheHint → BitVec 2
  | .default => 0 | .noAllocate => 1 | .keep => 2 | .bypassCluster => 3
def cacheOf (c : BitVec 2) : CacheHint :=
  match c.toNat with | 0 => .default | 1 => .noAllocate | 2 => .keep | _ => .bypassCluster
def AtomOp.code : AtomOp → BitVec 4
  | .add => 0 | .min => 1 | .minn => 2 | .max => 3 | .maxn => 4 | .and => 5 | .or => 6 | .xor => 7 | .swap => 8
  | .cas => 9 | .fadd => 10 | .fmin => 11 | .fmax => 12
def atomOf (c : BitVec 4) : Option AtomOp :=
  match c.toNat with
  | 0 => some .add | 1 => some .min | 2 => some .minn | 3 => some .max | 4 => some .maxn | 5 => some .and
  | 6 => some .or | 7 => some .xor | 8 => some .swap | 9 => some .cas | 10 => some .fadd | 11 => some .fmin
  | 12 => some .fmax | _ => none
def VCond.code : VCond → BitVec 8
  | .eq => 0 | .ne => 1 | .lt => 2 | .le => 3 | .gt => 4 | .ge => 5 | .ltn => 6 | .len => 7 | .gtn => 8 | .gen => 9
  | .feq => 16 | .fne => 17 | .flt => 18 | .fle => 19 | .fgt => 20 | .fge => 21 | .funo => 22 | .ford => 23
def vcondOf (c : BitVec 8) : Option VCond :=
  match c.toNat with
  | 0 => some .eq | 1 => some .ne | 2 => some .lt | 3 => some .le | 4 => some .gt | 5 => some .ge | 6 => some .ltn
  | 7 => some .len | 8 => some .gtn | 9 => some .gen | 16 => some .feq | 17 => some .fne | 18 => some .flt
  | 19 => some .fle | 20 => some .fgt | 21 => some .fge | 22 => some .funo | 23 => some .ford | _ => none
def RedOp.code : RedOp → BitVec 4
  | .add => 0 | .min => 1 | .minn => 2 | .max => 3 | .maxn => 4 | .and => 5 | .fadd => 6 | .fmin => 7 | .or => 8
  | .xor => 9 | .fmax => 10
def redOf (c : BitVec 4) : Option RedOp :=
  match c.toNat with
  | 0 => some .add | 1 => some .min | 2 => some .minn | 3 => some .max | 4 => some .maxn | 5 => some .and
  | 6 => some .fadd | 7 => some .fmin | 8 => some .or | 9 => some .xor | 10 => some .fmax | _ => none
def LaneType.code : LaneType → BitVec 4
  | .f32 => 0 | .f16 => 1 | .bf16 => 2 | .e4m3 => 3 | .e5m2 => 4 | .i32 => 5 | .n32 => 6 | .i16 => 7 | .n16 => 8
  | .i8 => 9 | .n8 => 10
def laneTypeOf (c : BitVec 4) : Option LaneType :=
  match c.toNat with
  | 0 => some .f32 | 1 => some .f16 | 2 => some .bf16 | 3 => some .e4m3 | 4 => some .e5m2 | 5 => some .i32
  | 6 => some .n32 | 7 => some .i16 | 8 => some .n16 | 9 => some .i8 | 10 => some .n8 | _ => none
def BlockType.code : BlockType → BitVec 2
  | .int => 0 | .e2m1 => 1 | .pow2 => 2 | .hyb => 3
def blockTypeOf (c : BitVec 2) : BlockType :=
  match c.toNat with | 0 => .int | 1 => .e2m1 | 2 => .pow2 | _ => .hyb
def ArrayFmt.code : ArrayFmt → BitVec 4
  | .f16 => 0 | .bf16 => 1 | .e4m3 => 2 | .e5m2 => 3 | .i8 => 4 | .q4 => 5
def arrayFmtOf (c : BitVec 4) : Option ArrayFmt :=
  match c.toNat with
  | 0 => some .f16 | 1 => some .bf16 | 2 => some .e4m3 | 3 => some .e5m2 | 4 => some .i8 | 5 => some .q4 | _ => none
def bit (b : Bool) : BitVec 1 := if b then 1 else 0

/-! ### Decoding -/

abbrev Decoded := Except DecodeError Instr

/-- Continue when a field that must be zero is zero (R90). -/
def needZero (c : Bool) (r : Decoded) : Decoded := if c then r else .error .zeroFieldNonzero
/-- A code, or the refusal of a reserved one (R93). -/
def needCode {α : Type} (c : Option α) (r : α → Decoded) : Decoded :=
  match c with | some x => r x | none => .error .codeReserved
/-- The limits of `Instr.wf`, checked last (R100). -/
def limited (i : Instr) : Decoded := if i.wf then .ok i else .error .fieldLimit
/-- A function code, or the refusal of an unassigned one. -/
def needFn (i : Option Instr) : Decoded :=
  match i with | some i => limited i | none => .error .functionUnassigned
/-- The field that a literal replaces must be zero (R88). -/
def needReplaced (c : Bool) (r : Decoded) : Decoded := if c then r else .error .replacedFieldNonzero

/-- The base size of a major in words (R87); `none` for an unassigned major (R94). -/
def baseWords (maj : Nat) : Option Nat :=
  if maj = 0 ∨ maj = 0x3F ∨ (0x35 ≤ maj ∧ maj ≤ 0x3B) ∨ maj = 0x3D ∨ maj = 0x3E ∨ 0x3F < maj then none
  else if (0x17 ≤ maj ∧ maj ≤ 0x1D) ∨ (0x21 ≤ maj ∧ maj ≤ 0x27) ∨ maj = 0x29 ∨ maj = 0x2B ∨ maj = 0x2C
      ∨ maj = 0x2F ∨ maj = 0x3C then some 2
  else some 1

/-- How many words the device fetches for word 0 (R291): one when the word alone decides that it is no instruction,
else as many as LEN calls for. -/
def fetchWords (w0 : W32) : Nat :=
  let len := (fld w0 0 2).toNat
  if len = 3 ∨ (baseWords (fld w0 2 6).toNat).isNone then 1 else len + 1

/-- SALU without a literal (R95, R102). -/
def saluOp (fn : Nat) (d a b : SReg) : Option Instr :=
  match fn with
  | 0x00 => some (.add d a b) | 0x01 => some (.sub d a b) | 0x02 => some (.mul d a b) | 0x03 => some (.mulh d a b)
  | 0x04 => some (.mulhn d a b) | 0x05 => some (.div d a b) | 0x06 => some (.divn d a b) | 0x07 => some (.rem d a b)
  | 0x08 => some (.remn d a b) | 0x09 => some (.and_ d a b) | 0x0A => some (.or_ d a b) | 0x0B => some (.xor d a b)
  | 0x0C => some (.andn d a b) | 0x0D => some (.shl d a b) | 0x0E => some (.shr d a b) | 0x0F => some (.sha d a b)
  | 0x10 => some (.rol d a b) | 0x11 => some (.min_ d a b) | 0x12 => some (.minn d a b) | 0x13 => some (.max_ d a b)
  | 0x14 => some (.maxn d a b) | 0x15 => some (.slt d a b) | 0x16 => some (.sltn d a b) | 0x17 => some (.seq d a b)
  | _ => none
/-- SALU with a literal in place of sb. -/
def saluLitOp (fn : Nat) (d a : SReg) (l : W32) : Option Instr :=
  match fn with
  | 0x00 => some (.addLit d a l) | 0x01 => some (.subLit d a l) | 0x02 => some (.mulLit d a l)
  | 0x03 => some (.mulhLit d a l) | 0x04 => some (.mulhnLit d a l) | 0x05 => some (.divLit d a l)
  | 0x06 => some (.divnLit d a l) | 0x07 => some (.remLit d a l) | 0x08 => some (.remnLit d a l)
  | 0x09 => some (.andLit d a l) | 0x0A => some (.orLit d a l) | 0x0B => some (.xorLit d a l)
  | 0x0C => some (.andnLit d a l) | 0x0D => some (.shlLit d a l) | 0x0E => some (.shrLit d a l)
  | 0x0F => some (.shaLit d a l) | 0x10 => some (.rolLit d a l) | 0x11 => some (.minLit d a l)
  | 0x12 => some (.minnLit d a l) | 0x13 => some (.maxLit d a l) | 0x14 => some (.maxnLit d a l)
  | 0x15 => some (.sltLit d a l) | 0x16 => some (.sltnLit d a l) | 0x17 => some (.seqLit d a l)
  | _ => none
/-- SALU's unary functions. -/
def saluUnaryOp (fn : Nat) (d a : SReg) : Option Instr :=
  match fn with
  | 0x18 => some (.clz d a) | 0x19 => some (.ctz d a) | 0x1A => some (.popc d a) | _ => none

def decodeSalu (w0 : W32) (lit : Option W32) : Decoded :=
  let fn := (fld w0 26 6).toNat; let d := fld w0 8 6; let a := fld w0 14 6; let b := fld w0 20 6
  match lit with
  | some l =>
    match saluLitOp fn d a l with
    | some i => needReplaced (b == 0) (limited i)
    | none => if (saluUnaryOp fn d a).isSome then .error .noLiteral else .error .functionUnassigned
  | none =>
    match saluUnaryOp fn d a with
    | some i => needZero (b == 0) (limited i)
    | none => needFn (saluOp fn d a b)

/-- The immediate majors 0x02–0x05, 0x07, 0x08 (R105). -/
def immOp (maj : Nat) (d a : SReg) (i : BitVec 12) : Option Instr :=
  match maj with
  | 0x02 => some (.addi d a i) | 0x03 => some (.andi d a i) | 0x04 => some (.ori d a i) | 0x05 => some (.xori d a i)
  | 0x07 => some (.slti d a i) | 0x08 => some (.sltni d a i) | _ => none
def immLitOp (maj : Nat) (d a : SReg) (l : W32) : Option Instr :=
  match maj with
  | 0x02 => some (.addiLit d a l) | 0x03 => some (.andiLit d a l) | 0x04 => some (.oriLit d a l)
  | 0x05 => some (.xoriLit d a l) | 0x07 => some (.sltiLit d a l) | 0x08 => some (.sltniLit d a l) | _ => none
def decodeImm (maj : Nat) (w0 : W32) (lit : Option W32) : Decoded :=
  let d := fld w0 8 6; let a := fld w0 14 6; let i := fld w0 20 12
  match lit with
  | some l => needReplaced (i == 0) (needFn (immLitOp maj d a l))
  | none => needFn (immOp maj d a i)

/-- SHIFTI (R106). -/
def decodeShifti (w0 : W32) : Decoded :=
  let d := fld w0 8 6; let a := fld w0 14 6; let n := fld w0 20 6
  needZero (fld w0 28 4 == 0)
    (match (fld w0 26 2).toNat with
     | 0 => limited (.shli d a n) | 1 => limited (.shri d a n) | 2 => limited (.shai d a n)
     | _ => limited (.roli d a n))

/-- SRD and SWR (R107). -/
def decodeSpr (maj : Nat) (w0 : W32) : Decoded :=
  needZero (fld w0 14 6 == 0)
    (limited (if maj = 0x09 then .srd (fld w0 8 6) (fld w0 20 12) else .swr (fld w0 8 6) (fld w0 20 12)))

/-- BRA and CALL (R111). -/
def decodeJump (maj : Nat) (w0 : W32) (lit : Option W32) : Decoded :=
  let o := fld w0 8 24
  match lit with
  | some l => needReplaced (o == 0) (limited (if maj = 0x0B then .braLit l else .callLit l))
  | none => limited (if maj = 0x0B then .bra o else .call o)

/-- The conditions of BZ (R93, R112). -/
def bzOp (c : Nat) (a : SReg) (o : BitVec 14) : Option Instr :=
  match c with
  | 0 => some (.beqz a o) | 1 => some (.bnez a o) | 2 => some (.bltz a o) | 3 => some (.bgez a o)
  | 4 => some (.blez a o) | 5 => some (.bgtz a o) | _ => none
def bzLitOp (c : Nat) (a : SReg) (l : W32) : Option Instr :=
  match c with
  | 0 => some (.beqzLit a l) | 1 => some (.bnezLit a l) | 2 => some (.bltzLit a l) | 3 => some (.bgezLit a l)
  | 4 => some (.blezLit a l) | 5 => some (.bgtzLit a l) | _ => none
def decodeBz (w0 : W32) (lit : Option W32) : Decoded :=
  let c := (fld w0 8 4).toNat; let a := fld w0 12 6; let o := fld w0 18 14
  match lit with
  | some l => needReplaced (o == 0) (needCode (bzLitOp c a l) limited)
  | none => needCode (bzOp c a o) limited

/-- VBR and BU (R114, R115). -/
def decodeVbr (w0 : W32) (lit : Option W32) : Decoded :=
  let k := fld w0 8 4; let o := fld w0 18 14
  needZero (fld w0 12 6 == 0)
    (match lit with
     | some l => needReplaced (o == 0) (limited (.vbrLit k l))
     | none => limited (.vbr k o))
def buOp (fn : Nat) (k : KReg) (o : BitVec 14) : Option Instr :=
  match fn with | 0 => some (.bany k o) | 1 => some (.ball k o) | 2 => some (.bnone k o) | _ => none
def buLitOp (fn : Nat) (k : KReg) (l : W32) : Option Instr :=
  match fn with | 0 => some (.banyLit k l) | 1 => some (.ballLit k l) | 2 => some (.bnoneLit k l) | _ => none
def decodeBu (w0 : W32) (lit : Option W32) : Decoded :=
  let fn := (fld w0 12 6).toNat; let k := fld w0 8 4; let o := fld w0 18 14
  match lit with
  | some l => needReplaced (o == 0) (needFn (buLitOp fn k l))
  | none => needFn (buOp fn k o)

/-- CTL (R95, R116). -/
def decodeCtl (w0 : W32) : Decoded :=
  let r := fld w0 8 6
  needZero (fld w0 14 6 == 0)
    (match (fld w0 20 12).toNat with
     | 0x000 => needZero (r == 0) (limited .nop)
     | 0x001 => needZero (r == 0) (limited .ret)
     | 0x002 => limited (.jmpi r)
     | 0x003 => limited (.calli r)
     | 0x004 => needZero (r == 0) (limited .join)
     | 0x005 => needZero (r == 0) (limited .yield)
     | 0x006 => needZero (r == 0) (limited .end_)
     | 0x010 => limited (.trap r)
     | 0x020 => needZero (r == 0) (limited .tret)
     | _ => .error .functionUnassigned)

/-- KOP (R118). -/
def decodeKop (w0 : W32) : Decoded :=
  let d := fld w0 8 4; let a := fld w0 12 4; let b := fld w0 16 4; let s := fld w0 20 6
  match (fld w0 26 6).toNat with
  | 0x00 => needZero (s == 0) (limited (.kand d a b))
  | 0x01 => needZero (s == 0) (limited (.kor d a b))
  | 0x02 => needZero (s == 0) (limited (.kxor d a b))
  | 0x03 => needZero (s == 0) (limited (.kandn d a b))
  | 0x04 => needZero (b == 0 && s == 0) (limited (.knot d a))
  | 0x05 => needZero (b == 0 && s == 0) (limited (.kmov d a))
  | 0x06 => needZero (d == 0 && b == 0) (limited (.kpopc s a))
  | 0x07 => needZero (d == 0 && b == 0) (limited (.kfirst s a))
  | 0x08 => needZero (a == 0 && b == 0) (limited (.klds d s))
  | 0x09 => needZero (d == 0 && b == 0) (limited (.ksts s a))
  | 0x0A => needZero (a == 0 && b == 0 && s == 0) (limited (.kexec d))
  | 0x0B => needZero (a == 0 && b == 0) (limited (.klane d s))
  | _ => .error .functionUnassigned

/-- The 32-bit vector majors 0x12–0x15 (R126); the key is 4 × (major − 0x12) + FN2. -/
def vaOp (key : Nat) (d a b : VReg) (k : KReg) : Option Instr :=
  match key with
  | 0 => some (.vadd d a b k) | 1 => some (.vsub d a b k) | 2 => some (.vmul d a b k) | 3 => some (.vmulh d a b k)
  | 4 => some (.vand d a b k) | 5 => some (.vor d a b k) | 6 => some (.vxor d a b k) | 7 => some (.vandn d a b k)
  | 8 => some (.vshl d a b k) | 9 => some (.vshr d a b k) | 10 => some (.vsha d a b k) | 11 => some (.vrol d a b k)
  | 12 => some (.vmin d a b k) | 13 => some (.vminn d a b k) | 14 => some (.vmax d a b k)
  | 15 => some (.vmaxn d a b k) | 16 => some (.vsel d a b k) | _ => none
def vaLitOp (key : Nat) (d a : VReg) (k : KReg) (l : W32) : Option Instr :=
  match key with
  | 0 => some (.vaddLit d a k l) | 1 => some (.vsubLit d a k l) | 2 => some (.vmulLit d a k l)
  | 3 => some (.vmulhLit d a k l) | 4 => some (.vandLit d a k l) | 5 => some (.vorLit d a k l)
  | 6 => some (.vxorLit d a k l) | 7 => some (.vandnLit d a k l) | 8 => some (.vshlLit d a k l)
  | 9 => some (.vshrLit d a k l) | 10 => some (.vshaLit d a k l) | 11 => some (.vrolLit d a k l)
  | 12 => some (.vminLit d a k l) | 13 => some (.vminnLit d a k l) | 14 => some (.vmaxLit d a k l)
  | 15 => some (.vmaxnLit d a k l) | 16 => some (.vselLit d a k l) | _ => none
/-- Majors 0x12–0x16 (R126, R127). -/
def decodeVa (maj : Nat) (w0 : W32) (lit : Option W32) : Decoded :=
  let k := fld w0 8 4; let d := fld w0 12 6; let a := fld w0 18 6; let b := fld w0 24 6
  let key := 4 * (maj - 0x12) + (fld w0 30 2).toNat
  if key ≤ 16 then
    match lit with
    | some l => needReplaced (b == 0) (needFn (vaLitOp key d a k l))
    | none => needFn (vaOp key d a b k)
  else if key = 19 then
    match lit with
    | some l => needReplaced (b == 0) (needZero (a == 0) (limited (.vmovLit d k l)))
    | none => needZero (a == 0) (limited (.vmov d b k))
  else if lit.isSome then .error .noLiteral
  else if key = 17 then needZero (b == 0) (limited (.vbcst d a k))
  else needZero (a == 0 && b == 0) (limited (.vlid d k))

/-- The fields of F64-V (R92). -/
structure F64V where
  k : KReg
  d : VReg
  a : VReg
  b : VReg
  c : VReg
  fn : BitVec 8
  ovf : BitVec 2
  rm : BitVec 2
  fmt : BitVec 2
  aux : BitVec 4
deriving DecidableEq, Repr

def f64v (w0 w1 : W32) : F64V :=
  { k := fld w0 8 4, d := fld w0 12 6, a := fld w0 18 6, b := fld w0 24 6, c := fld w1 0 6, fn := fld w1 6 8
    ovf := fld w1 14 2, rm := fld w1 16 2, fmt := fld w1 18 2, aux := fld w1 20 4 }

/-- RM, OVF, FMT and AUX4 all zero (R97). -/
def F64V.plain (f : F64V) : Bool := f.ovf == 0 && f.rm == 0 && f.fmt == 0 && f.aux == 0
def F64V.fpq (f : F64V) (p : Packing) : FpQ := { rm := rmOf f.rm, ovf := ovfOf f.ovf, fmt := p }
/-- No literal may stand where vb is not read (R88). -/
def noLit (lit : Option W32) (r : Decoded) : Decoded := if lit.isSome then .error .noLiteral else r

/-- VCMP and VIEX (R129, R130). -/
def decodeVcmp (f : F64V) (lit : Option W32) : Decoded :=
  needZero (f.plain && f.c == 0 && f.d.extractLsb' 4 2 == 0)
    (match vcondOf f.fn with
     | none => .error .functionUnassigned
     | some c =>
       match lit with
       | some l => needReplaced (f.b == 0) (limited (.vcmpLit c (f.d.extractLsb' 0 4) f.a f.k l))
       | none => limited (.vcmp c (f.d.extractLsb' 0 4) f.a f.b f.k))
def viexOp (fn : Nat) (d a : VReg) (k : KReg) : Option Instr :=
  match fn with
  | 1 => some (.vclz d a k) | 2 => some (.vpopc d a k) | 3 => some (.vabs d a k) | 4 => some (.vneg d a k)
  | _ => none
def decodeViex (f : F64V) (lit : Option W32) : Decoded :=
  needZero f.plain
    (if f.fn = 0 then
       match lit with
       | some l => needReplaced (f.b == 0) (limited (.vmadLit f.d f.a f.c f.k l))
       | none => limited (.vmad f.d f.a f.b f.c f.k)
     else
       match viexOp f.fn.toNat f.d f.a f.k with
       | none => .error .functionUnassigned
       | some i => noLit lit (needZero (f.b == 0 && f.c == 0) (limited i)))

/-- VFP (R131, R132). -/
def vfpBin (fn : Nat) (d a b : VReg) (k : KReg) (q : FpQ) : Option Instr :=
  match fn with
  | 0 => some (.vfadd d a b k q) | 1 => some (.vfsub d a b k q) | 2 => some (.vfmul d a b k q) | _ => none
def vfpBinLit (fn : Nat) (d a : VReg) (k : KReg) (q : FpQ) (l : W32) : Option Instr :=
  match fn with
  | 0 => some (.vfaddLit d a k q l) | 1 => some (.vfsubLit d a k q l) | 2 => some (.vfmulLit d a k q l) | _ => none
def vfpMin (fn : Nat) (d a b : VReg) (k : KReg) (p : Packing) : Option Instr :=
  match fn with | 4 => some (.vfmin d a b k p) | 5 => some (.vfmax d a b k p) | _ => none
def vfpMinLit (fn : Nat) (d a : VReg) (k : KReg) (p : Packing) (l : W32) : Option Instr :=
  match fn with | 4 => some (.vfminLit d a k p l) | 5 => some (.vfmaxLit d a k p l) | _ => none
def vfpUnary (fn : Nat) (d a : VReg) (k : KReg) (p : Packing) : Option Instr :=
  match fn with | 6 => some (.vfabs d a k p) | 7 => some (.vfneg d a k p) | _ => none
def decodeVfp (f : F64V) (lit : Option W32) : Decoded :=
  needZero (f.aux == 0) (needCode (packingOf f.fmt) fun p =>
    let fn := f.fn.toNat
    if fn < 3 then
      needZero (f.c == 0)
        (match lit with
         | some l => needReplaced (f.b == 0) (needFn (vfpBinLit fn f.d f.a f.k (f.fpq p) l))
         | none => needFn (vfpBin fn f.d f.a f.b f.k (f.fpq p)))
    else if fn = 3 then
      match lit with
      | some l => needReplaced (f.b == 0) (limited (.vfmaLit f.d f.a f.c f.k (f.fpq p) l))
      | none => limited (.vfma f.d f.a f.b f.c f.k (f.fpq p))
    else if fn < 6 then
      needZero (f.c == 0 && f.rm == 0 && f.ovf == 0)
        (match lit with
         | some l => needReplaced (f.b == 0) (needFn (vfpMinLit fn f.d f.a f.k p l))
         | none => needFn (vfpMin fn f.d f.a f.b f.k p))
    else if fn < 8 then
      noLit lit (needZero (f.b == 0 && f.c == 0 && f.rm == 0 && f.ovf == 0) (needFn (vfpUnary fn f.d f.a f.k p)))
    else if fn = 8 then
      noLit lit (needZero (f.b == 0 && f.c == 0 && f.ovf == 0) (limited (.vfrnd f.d f.a f.k p (rmOf f.rm))))
    else .error .functionUnassigned)

/-- VSFN (R133). -/
def vsfnOp (fn : Nat) (d a : VReg) (k : KReg) (p : Packing) (o : Ovf) : Option Instr :=
  match fn with
  | 0 => some (.vrcp d a k p o) | 1 => some (.vrsq d a k p o) | 2 => some (.vsqrt d a k p o)
  | 3 => some (.vexp2 d a k p o) | 4 => some (.vlog2 d a k p o) | 5 => some (.vsin d a k p o)
  | 6 => some (.vcos d a k p o) | 7 => some (.vtanh d a k p o) | 8 => some (.vsigm d a k p o)
  | 9 => some (.verf d a k p o) | _ => none
def decodeVsfn (f : F64V) (lit : Option W32) : Decoded :=
  needZero (f.aux == 0 && f.rm == 0) (needCode (packingOf f.fmt) fun p =>
    match vsfnOp f.fn.toNat f.d f.a f.k p (ovfOf f.ovf) with
    | none => .error .functionUnassigned
    | some i => noLit lit (needZero (f.b == 0 && f.c == 0) (limited i)))

/-- VCVT (R134). -/
def decodeVcvt (f : F64V) (lit : Option W32) : Decoded :=
  match laneTypeOf (f.fn.extractLsb' 4 4), laneTypeOf (f.fn.extractLsb' 0 4) with
  | some src, some dst =>
    noLit lit (needZero (f.b == 0 && f.c == 0 && f.fmt == 0 && f.aux.extractLsb' 1 3 == 0)
      (limited (.vcvt src dst f.d f.a f.k (rmOf f.rm) (ovfOf f.ovf) (f.aux.extractLsb' 0 1 == 1))))
  | _, _ => .error .functionUnassigned

/-- VQ (R135, R136). -/
def decodeVq (f : F64V) (lit : Option W32) : Decoded :=
  if f.fn = 0 then
    noLit lit (needZero (f.b == 0 && f.c == 0 && f.ovf == 0 && f.rm == 0 && f.fmt == 0 && f.aux.extractLsb' 2 2 == 0)
      (limited (.vqpack (blockTypeOf (f.aux.extractLsb' 0 2)) f.d f.a f.k)))
  else if f.fn = 1 then
    noLit lit (needZero (f.b == 0 && f.c == 0 && f.plain) (limited (.vqunpk f.d f.a f.k)))
  else .error .functionUnassigned

/-- VLANE (R137–R142). -/
def decodeVlane (f : F64V) (lit : Option W32) : Decoded :=
  match f.fn.toNat with
  | 0 =>
    needZero (f.c == 0 && f.plain)
      (match lit with
       | some l => needReplaced (f.b == 0) (limited (.vpermLit f.d f.a f.k l))
       | none => limited (.vperm f.d f.a f.b f.k))
  | 1 =>
    noLit lit (needZero (f.b == 0 && f.c == 0 && f.fmt == 0) (needCode (redOf f.aux) fun op =>
      limited (.vred op f.d f.a f.k (rmOf f.rm) (ovfOf f.ovf))))
  | 2 =>
    noLit lit (needZero (f.b == 0 && f.c == 0 && f.fmt == 0) (needCode (redOf f.aux) fun op =>
      limited (.vscan op f.d f.a f.k (rmOf f.rm) (ovfOf f.ovf))))
  | 3 => noLit lit (needZero (f.b == 0 && f.c == 0 && f.plain) (limited (.vcmprs f.d f.a f.k)))
  | 4 => noLit lit (needZero (f.b == 0 && f.c == 0 && f.plain) (limited (.vmatch f.d f.a f.k)))
  | 5 => noLit lit (needZero (f.a == 0 && f.b == 0 && f.c == 0 && f.plain) (limited (.xvdepth f.d f.k)))
  | _ => .error .functionUnassigned

/-- VDP4 (R143). -/
def decodeVdp4 (f : F64V) (lit : Option W32) : Decoded :=
  if f.fn = 0 then
    needZero (f.fmt == 0 && f.aux == 0)
      (match lit with
       | some l => needReplaced (f.b == 0) (limited (.vdp4Lit f.d f.a f.c f.k (rmOf f.rm) (ovfOf f.ovf) l))
       | none => limited (.vdp4 f.d f.a f.b f.c f.k (rmOf f.rm) (ovfOf f.ovf)))
  else .error .functionUnassigned

/-- The majors of format F64-V. -/
def decodeF64v (maj : Nat) (w0 w1 : W32) (lit : Option W32) : Decoded :=
  let f := f64v w0 w1
  needZero (fld w0 30 2 == 0 && fld w1 24 8 == 0)
    (match maj with
     | 0x17 => decodeVcmp f lit
     | 0x18 => decodeViex f lit
     | 0x19 => decodeVfp f lit
     | 0x1A => decodeVsfn f lit
     | 0x1B => decodeVcvt f lit
     | 0x1C => decodeVq f lit
     | 0x1D => decodeVlane f lit
     | _ => decodeVdp4 f lit)

/-- XV and XVS (R146, R153). -/
def decodeXv (w0 : W32) : Decoded :=
  let k := fld w0 8 4; let p := fld w0 12 6; let x := fld w0 18 6; let y := fld w0 24 6
  match (fld w0 30 2).toNat with
  | 0 => limited (.xv p x y k) | 1 => limited (.xvS0 p x y k) | 2 => limited (.xvS1 p x y k)
  | _ => .error .codeReserved
def decodeXvs (w0 : W32) : Decoded :=
  let k := fld w0 8 4; let d := fld w0 12 6; let a := fld w0 18 6
  needZero (fld w0 24 6 == 0)
    (match (fld w0 30 2).toNat with
     | 0 => needZero (d == 0) (limited (.xvpush a k))
     | 1 => needZero (a == 0) (limited (.xvpop d k))
     | 2 => needZero (a == 0) (limited (.xvpeek d k))
     | _ => needZero (d == 0 && a == 0) (limited (.xvclr k)))

/-- TBL (R155): FN6[1:0] at [27:26] is the table, FN6[5:2] at [31:28] the operation. -/
def decodeTbl (w0 : W32) : Decoded :=
  let t := fld w0 26 2; let d := fld w0 8 6; let a := fld w0 14 6
  needZero (fld w0 20 6 == 0)
    (match (fld w0 28 4).toNat with
     | 0 => needZero (d == 0) (limited (.tblld t a))
     | 1 => needZero (d == 0 && a == 0) (limited (.tblsw t))
     | 2 => needZero (a == 0) (limited (.tblgen d t))
     | _ => .error .functionUnassigned)

/-- Loads, stores and MWAIT: format F64-M (R162, R172). -/
def decodeF64m (maj : Nat) (w0 w1 : W32) (lit : Option W32) : Decoded :=
  let k := fld w0 8 4; let t := fld w0 12 6; let sb := fld w0 18 6; let vo := fld w0 24 6
  let imm := fld w1 0 20
  needCode (scopeOf (fld w1 24 3)) fun sc =>
    let m : MemQ :=
      { size := sizeOf' (fld w0 30 2), strm := fld w1 20 4, scope := sc, order := orderOf (fld w1 27 2)
        cache := cacheOf (fld w1 29 2), sx := fld w1 31 1 == 1 }
    match lit with
    | some l =>
      needReplaced (imm == 0)
        (match maj with
         | 0x21 => limited (.vldLit t sb vo k m l)
         | 0x22 => limited (.vstLit t sb vo k m l)
         | 0x23 => needZero (k == 0 && vo == 60) (limited (.sldLit t sb m l))
         | 0x24 => needZero (k == 0 && vo == 60) (limited (.sstLit t sb m l))
         | _ => decodeMwait k t sb vo m (some l) imm)
    | none =>
      match maj with
      | 0x21 => limited (.vld t sb vo k imm m)
      | 0x22 => limited (.vst t sb vo k imm m)
      | 0x23 => needZero (k == 0 && vo == 60) (limited (.sld t sb imm m))
      | 0x24 => needZero (k == 0 && vo == 60) (limited (.sst t sb imm m))
      | _ => decodeMwait k t sb vo m none imm
where
  decodeMwait (k : KReg) (t sb : SReg) (vo : VReg) (m : MemQ) (lit : Option W32) (imm : BitVec 20) : Decoded :=
    needZero (k == 0 && vo == 60 && m.cache == .default && !m.sx)
      (if (m.size == .b32 || m.size == .b64) && (m.order == .plain || m.order == .acq) then
         let q : WaitQ := { wide := m.size == .b64, strm := m.strm, scope := m.scope, acquire := m.order == .acq }
         match lit with
         | some l => limited (.mwaitLit t sb q l)
         | none => limited (.mwait t sb imm q)
       else .error .fieldLimit)

/-- Atomics: format F64-A (R166). -/
def decodeF64a (maj : Nat) (w0 w1 : W32) : Decoded :=
  let k := fld w0 8 4; let t := fld w0 12 6; let sb := fld w0 18 6; let vo := fld w0 24 6
  let imm := fld w1 0 16
  needZero (fld w1 29 3 == 0) (needCode (scopeOf (fld w1 24 3)) fun sc =>
    match atomOf (fld w1 16 4) with
    | none => .error .functionUnassigned
    | some op =>
      if fld w0 31 1 == 1 then
        let m : AtomQ := { wide := fld w0 30 1 == 1, strm := fld w1 20 4, scope := sc, order := orderOf (fld w1 27 2) }
        match maj with
        | 0x25 => limited (.vatom op t sb vo k imm m)
        | 0x26 => needZero (k == 0 && vo == 60) (limited (.satom op t sb imm m))
        | _ => limited (.mred op t sb vo k imm m)
      else .error .fieldLimit)

/-- FENCE (R170). -/
def decodeFence (w0 : W32) : Decoded :=
  let m := fld w0 8 16
  needZero (fld w0 29 3 == 0) (needCode (scopeOf (fld w0 24 3)) fun sc =>
    match (fld w0 27 2).toNat with
    | 0 => limited (.fence m sc) | 1 => limited (.fenceAcq m sc) | 2 => limited (.fenceRel m sc)
    | _ => .error .codeReserved)

/-- CPY and NET: format F64-C (R196, R202). -/
def decodeF64c (maj : Nat) (w0 w1 : W32) : Decoded :=
  let dst := fld w0 8 6; let src := fld w0 14 6; let saw := fld w0 20 6; let st := fld w0 26 4
  let ch := fld w1 0 6; let mc := fld w1 6 8
  needZero (fld w0 30 2 == 0 && fld w1 19 13 == 0) (needCode (scopeOf (fld w1 16 3)) fun sc =>
    match maj, (fld w1 14 2).toNat with
    | 0x2B, 0 => limited (.cpy dst src saw ch st sc mc)
    | 0x2B, 1 => limited (.cpyCvt dst src saw ch st sc mc)
    | 0x2C, 0 => needZero (ch == 0 && mc == 0 && sc == .wave) (limited (.nsend dst src saw st))
    | 0x2C, 1 => needZero (ch == 0 && mc == 0 && sc == .wave) (limited (.npost dst src saw st))
    | _, _ => .error .functionUnassigned)

/-- CAPENTER: format F64-CE (R208). -/
def decodeCapenter (w0 w1 : W32) : Decoded :=
  needZero (fld w0 26 6 == 0) (limited (.capenter (fld w0 8 6) (fld w0 14 6) (fld w0 20 6) w1))

/-- MCACHE, SYNC, DQ, CAP, LANE, XLAT and CTX: format F32-S (R98). -/
noncomputable def decodeSys (maj : Nat) (w0 : W32) : Decoded :=
  let d := fld w0 8 6; let a := fld w0 14 6; let b := fld w0 20 6
  match maj, (fld w0 26 6).toNat with
  | 0x2A, 0 => needZero (d.extractLsb' 3 3 == 0) (needCode (scopeOf (d.extractLsb' 0 3)) fun sc => limited (.icinv sc a b))
  | 0x2A, 1 => needZero (d == 0) (limited (.dwb a b))
  | 0x2A, 2 => needZero (d == 0) (limited (.dinv a b))
  | 0x2D, 0 => needZero (d == 0) (limited (.barinit a b))
  | 0x2D, 1 => needZero (b == 0) (limited (.bararr d a))
  | 0x2D, 2 => needZero (d == 0) (limited (.barwait a b))
  | 0x2D, 3 => needZero (d == 0 && b == 0) (limited (.barsync a))
  | 0x2D, 4 => needZero (d == 0) (limited (.awset a b))
  | 0x2D, 5 => limited (.awwait d a b)
  | 0x2D, 6 => needZero (d == 0) (limited (.awadd a b))
  | 0x2E, 0 => needZero (d == 0 && b == 0) (limited (.dqpush a))
  | 0x2E, 1 => needZero (a == 0 && b == 0) (limited (.dqpop d))
  | 0x2E, 2 => needZero (b == 0) (limited (.dqsteal d a))
  | 0x2E, 3 => needZero (a == 0 && b == 0) (limited (.dqcnt d))
  | 0x30, 0 => needZero (d == 0 && a == 0 && b == 0) (limited .capstep)
  | 0x30, 1 => needZero (d == 0 && b == 0) (limited (.capexit a))
  | 0x30, 2 => needZero (d == 0 && a == 0 && b == 0) (limited .capdrop)
  | 0x30, 3 => needZero (b == 0) (limited (.capqry d a))
  | 0x32, 0 => limited (.lget d a b)
  | 0x32, 1 => limited (.lput d a b)
  | 0x32, 2 => needZero (b == 0) (limited (.tlcause d a))
  | 0x32, 3 => needZero (b == 0) (limited (.tladdr d a))
  | 0x32, 4 => needZero (b == 0) (limited (.tlstep d a))
  | 0x33, 0 => needZero (d == 0) (limited (.tlbinv a b))
  | 0x33, 1 => needZero (b == 0) (limited (.fbpop d a))
  | 0x33, 2 => needZero (d == 0 && b == 0) (limited (.xlreplay a))
  | 0x33, 3 => needZero (b == 0) (limited (.fbstat d a))
  | 0x34, 0 => needZero (d == 0 && b == 0) (limited (.banksw a))
  | 0x34, 1 => needZero (d == 0) (limited (.spill a b))
  | 0x34, 2 => needZero (d == 0) (limited (.fill a b))
  | 0x34, 3 => needZero (d == 0 && b == 0) (limited (.gate a))
  | 0x34, 4 => needZero (d == 0) (limited (.migr a b))
  | _, _ => .error .functionUnassigned

/-- MX: format F32-X (R187). -/
noncomputable def decodeMx (w0 : W32) : Decoded :=
  let t := fld w0 8 2; let a := fld w0 10 6; let b := fld w0 16 6; let f := fld w0 22 4; let r := fld w0 26 2
  match (fld w0 28 4).toNat with
  | 0 => needZero (t == 0 && b == 0 && r == 0) (needCode (arrayFmtOf f) fun f => limited (.wload f a))
  | 1 =>
    if fld w0 27 1 == 1 then .error .codeReserved
    else needCode (arrayFmtOf f) fun f => limited (.mma f (fld w0 26 1 == 1) t a b)
  | 2 => needZero (t == 0) (needCode (arrayFmtOf f) fun f => limited (.mmad f r b a))
  | 3 => needZero (f == 0) (limited (.mdrain r b t a))
  | 4 => needZero (f == 0) (limited (.mfill r t b a))
  | 5 => needZero (a == 0 && b == 0 && f == 0 && r == 0) (limited (.czero t))
  | 6 => needZero (a == 0 && b == 0 && f == 0 && r == 0) (limited (.cwait t))
  | _ => .error .functionUnassigned

/-- The instructions of a 32-bit base (R87), with the literal if there is one. -/
noncomputable def decode32 (maj : Nat) (w0 : W32) (lit : Option W32) : Decoded :=
  if maj = 0x01 then decodeSalu w0 lit
  else if maj ≤ 0x05 ∨ maj = 0x07 ∨ maj = 0x08 then decodeImm maj w0 lit
  else if maj = 0x0B ∨ maj = 0x0C then decodeJump maj w0 lit
  else if maj = 0x0D then decodeBz w0 lit
  else if maj = 0x0E then decodeVbr w0 lit
  else if maj = 0x0F then decodeBu w0 lit
  else if 0x12 ≤ maj ∧ maj ≤ 0x16 then decodeVa maj w0 lit
  else if lit.isSome then .error .noLiteral
  else if maj = 0x06 then decodeShifti w0
  else if maj = 0x09 ∨ maj = 0x0A then decodeSpr maj w0
  else if maj = 0x10 then decodeCtl w0
  else if maj = 0x11 then decodeKop w0
  else if maj = 0x1E then decodeXv w0
  else if maj = 0x1F then decodeXvs w0
  else if maj = 0x20 then decodeTbl w0
  else if maj = 0x28 then decodeFence w0
  else if maj = 0x31 then decodeMx w0
  else decodeSys maj w0

/-- The instructions of a 64-bit base. -/
def decode64 (maj : Nat) (w0 w1 : W32) (lit : Option W32) : Decoded :=
  if (0x17 ≤ maj ∧ maj ≤ 0x1D) ∨ maj = 0x3C then decodeF64v maj w0 w1 lit
  else if (0x21 ≤ maj ∧ maj ≤ 0x24) ∨ maj = 0x29 then decodeF64m maj w0 w1 lit
  else if lit.isSome then .error .noLiteral
  else if 0x25 ≤ maj ∧ maj ≤ 0x27 then decodeF64a maj w0 w1
  else if maj = 0x2F then decodeCapenter w0 w1
  else decodeF64c maj w0 w1

/-- The decoder on the words that word 0 calls for (R87). Words beyond them are not looked at. -/
noncomputable def decodeWords (w0 w1 w2 : W32) : Decoded :=
  let len := (fld w0 0 2).toNat; let maj := (fld w0 2 6).toNat
  if len = 3 then .error .lenReserved
  else
    match baseWords maj with
    | none => .error .majorUnassigned
    | some 1 =>
      if len = 0 then decode32 maj w0 none
      else if len = 1 then decode32 maj w0 (some w1)
      else .error .lengthMismatch
    | some _ =>
      if len = 1 then decode64 maj w0 w1 none
      else if len = 2 then decode64 maj w0 w1 (some w2)
      else .error .lengthMismatch

/-- One little-endian word of a byte text (R3). -/
def wordOf (b0 b1 b2 b3 : Byte) : W32 := b3 ++ b2 ++ b1 ++ b0

/-- The decoder on any bytes: the instruction and the bytes after it, or why there is none. -/
noncomputable def decode : List Byte → Except DecodeError (Instr × List Byte)
  | b0 :: b1 :: b2 :: b3 :: rest =>
    let w0 := wordOf b0 b1 b2 b3
    if fetchWords w0 = 1 then (decodeWords w0 0 0).map fun i => (i, rest)
    else
      match rest with
      | c0 :: c1 :: c2 :: c3 :: rest =>
        let w1 := wordOf c0 c1 c2 c3
        if fetchWords w0 = 2 then (decodeWords w0 w1 0).map fun i => (i, rest)
        else
          match rest with
          | d0 :: d1 :: d2 :: d3 :: rest => (decodeWords w0 w1 (wordOf d0 d1 d2 d3)).map fun i => (i, rest)
          | _ => .error .tooShort
      | _ => .error .tooShort
  | _ => .error .tooShort

/-- The bytes of a word, lowest address first (R3). -/
def bytesOf (w : W32) : List Byte := [fld w 0 8, fld w 8 8, fld w 16 8, fld w 24 8]

/-- The instruction that the decoder reads from the words whose bits, numbered from word 0's bit 0 upward, are `w`;
every bit above them is zero. -/
noncomputable def decodeTableWord (nbits w : Nat) : Option Instr :=
  let v := w % 2 ^ nbits
  let bs := bytesOf (BitVec.ofNat 32 v) ++ bytesOf (BitVec.ofNat 32 (v / 2 ^ 32)) ++ bytesOf (BitVec.ofNat 32 (v / 2 ^ 64))
  match decode bs with
  | .ok (i, _) => some i
  | .error _ => none

/-! ### Encoding

The words of a well-formed instruction, from the same tables. A step that is no instruction has no words. -/

/-- F32-S (R91). -/
def f32s (len : BitVec 2) (maj : BitVec 6) (d a b fn : BitVec 6) : W32 := fn ++ b ++ a ++ d ++ maj ++ len
/-- F32-I (R91). -/
def f32i (len : BitVec 2) (maj : BitVec 6) (d a : BitVec 6) (imm : BitVec 12) : W32 := imm ++ a ++ d ++ maj ++ len
/-- F32-J (R91). -/
def f32j (len : BitVec 2) (maj : BitVec 6) (off : BitVec 24) : W32 := off ++ maj ++ len
/-- F32-B (R91): the condition or mask, the register or function, the offset. -/
def f32b (len : BitVec 2) (maj : BitVec 6) (c : BitVec 4) (a : BitVec 6) (off : BitVec 14) : W32 :=
  off ++ a ++ c ++ maj ++ len
/-- F32-Y (R91). -/
def f32y (maj : BitVec 6) (d a : BitVec 6) (fn : BitVec 12) : W32 := fn ++ a ++ d ++ maj ++ (0 : BitVec 2)
/-- F32-K (R91). -/
def f32k (d a b : BitVec 4) (s fn : BitVec 6) : W32 := fn ++ s ++ b ++ a ++ d ++ (0x11 : BitVec 6) ++ (0 : BitVec 2)
/-- F32-V and F32-XV (R91), and word 0 of F64-V, F64-M and F64-A (R92). -/
def f32v (len : BitVec 2) (maj : BitVec 6) (k : BitVec 4) (d a b : BitVec 6) (fn : BitVec 2) : W32 :=
  fn ++ b ++ a ++ d ++ k ++ maj ++ len
/-- F32-F (R91). -/
def f32f (streams : BitVec 16) (scope : BitVec 3) (kind : BitVec 2) : W32 :=
  (0 : BitVec 3) ++ kind ++ scope ++ streams ++ (0x28 : BitVec 6) ++ (0 : BitVec 2)
/-- F32-X (R91). -/
def f32x (tile : BitVec 2) (a b : BitVec 6) (fmt : BitVec 4) (r : BitVec 2) (fn : BitVec 4) : W32 :=
  fn ++ r ++ fmt ++ b ++ a ++ tile ++ (0x31 : BitVec 6) ++ (0 : BitVec 2)
/-- Word 1 of F64-V (R92). -/
def f64vW1 (c : BitVec 6) (fn : BitVec 8) (ovf rm fmt : BitVec 2) (aux : BitVec 4) : W32 :=
  (0 : BitVec 8) ++ aux ++ fmt ++ rm ++ ovf ++ fn ++ c
/-- Word 1 of F64-M (R92). -/
def f64mW1 (imm : BitVec 20) (strm : BitVec 4) (scope : BitVec 3) (ord cache : BitVec 2) (sx : BitVec 1) : W32 :=
  sx ++ cache ++ ord ++ scope ++ strm ++ imm
/-- Word 1 of F64-A (R92). -/
def f64aW1 (imm : BitVec 16) (aop strm : BitVec 4) (scope : BitVec 3) (ord : BitVec 2) : W32 :=
  (0 : BitVec 3) ++ ord ++ scope ++ strm ++ aop ++ imm
/-- Word 0 of F64-C (R92). -/
def f64cW0 (maj : BitVec 6) (dst src saw : BitVec 6) (strm : BitVec 4) : W32 :=
  (0 : BitVec 2) ++ strm ++ saw ++ src ++ dst ++ maj ++ (1 : BitVec 2)
/-- Word 1 of F64-C (R92). -/
def f64cW1 (chain : BitVec 6) (mc : BitVec 8) (kind : BitVec 2) (scope : BitVec 3) : W32 :=
  (0 : BitVec 13) ++ scope ++ kind ++ mc ++ chain

/-- A vector ALU instruction of format F64-V. -/
def encV (maj : BitVec 6) (k : KReg) (d a b c : BitVec 6) (fn : BitVec 8) (ovf rm fmt : BitVec 2) (aux : BitVec 4) :
    List W32 := [f32v 1 maj k d a b 0, f64vW1 c fn ovf rm fmt aux]
/-- Its literal form, in word 2. -/
def encVLit (maj : BitVec 6) (k : KReg) (d a c : BitVec 6) (fn : BitVec 8) (ovf rm fmt : BitVec 2) (aux : BitVec 4)
    (l : W32) : List W32 := [f32v 2 maj k d a 0 0, f64vW1 c fn ovf rm fmt aux, l]
/-- A floating-point instruction of VFP. -/
def encFp (k : KReg) (d a b c : BitVec 6) (fn : BitVec 8) (q : FpQ) : List W32 :=
  encV 0x19 k d a b c fn q.ovf.code q.rm.code q.fmt.code 0
def encFpLit (k : KReg) (d a c : BitVec 6) (fn : BitVec 8) (q : FpQ) (l : W32) : List W32 :=
  encVLit 0x19 k d a c fn q.ovf.code q.rm.code q.fmt.code 0 l
/-- VSFN. -/
def encSfn (k : KReg) (d a : BitVec 6) (fn : BitVec 8) (p : Packing) (o : Ovf) : List W32 :=
  encV 0x1A k d a 0 0 fn o.code 0 p.code 0
/-- A load or store. -/
def encM (maj : BitVec 6) (k : KReg) (t sb vo : BitVec 6) (imm : BitVec 20) (m : MemQ) : List W32 :=
  [f32v 1 maj k t sb vo m.size.code, f64mW1 imm m.strm m.scope.code m.order.code m.cache.code (bit m.sx)]
def encMLit (maj : BitVec 6) (k : KReg) (t sb vo : BitVec 6) (m : MemQ) (l : W32) : List W32 :=
  [f32v 2 maj k t sb vo m.size.code, f64mW1 0 m.strm m.scope.code m.order.code m.cache.code (bit m.sx), l]
/-- MWAIT's qualifiers as those of F64-M. -/
def WaitQ.memQ (q : WaitQ) : MemQ :=
  { size := if q.wide then .b64 else .b32, strm := q.strm, scope := q.scope
    order := if q.acquire then .acq else .plain, cache := .default, sx := false }
/-- An atomic. -/
def encA (maj : BitVec 6) (op : AtomOp) (k : KReg) (t sb vo : BitVec 6) (imm : BitVec 16) (m : AtomQ) : List W32 :=
  [f32v 1 maj k t sb vo (if m.wide then 3 else 2), f64aW1 imm op.code m.strm m.scope.code m.order.code]
/-- An F32-S instruction without a literal. -/
def encS (maj : BitVec 6) (d a b fn : BitVec 6) : List W32 := [f32s 0 maj d a b fn]

/-- The words of an instruction. -/
def encode : Instr → List W32
  | .add d a b => encS 1 d a b 0
  | .addLit d a l => [f32s 1 1 d a 0 0, l]
  | .sub d a b => encS 1 d a b 1
  | .subLit d a l => [f32s 1 1 d a 0 1, l]
  | .mul d a b => encS 1 d a b 2
  | .mulLit d a l => [f32s 1 1 d a 0 2, l]
  | .mulh d a b => encS 1 d a b 3
  | .mulhLit d a l => [f32s 1 1 d a 0 3, l]
  | .mulhn d a b => encS 1 d a b 4
  | .mulhnLit d a l => [f32s 1 1 d a 0 4, l]
  | .div d a b => encS 1 d a b 5
  | .divLit d a l => [f32s 1 1 d a 0 5, l]
  | .divn d a b => encS 1 d a b 6
  | .divnLit d a l => [f32s 1 1 d a 0 6, l]
  | .rem d a b => encS 1 d a b 7
  | .remLit d a l => [f32s 1 1 d a 0 7, l]
  | .remn d a b => encS 1 d a b 8
  | .remnLit d a l => [f32s 1 1 d a 0 8, l]
  | .and_ d a b => encS 1 d a b 9
  | .andLit d a l => [f32s 1 1 d a 0 9, l]
  | .or_ d a b => encS 1 d a b 10
  | .orLit d a l => [f32s 1 1 d a 0 10, l]
  | .xor d a b => encS 1 d a b 11
  | .xorLit d a l => [f32s 1 1 d a 0 11, l]
  | .andn d a b => encS 1 d a b 12
  | .andnLit d a l => [f32s 1 1 d a 0 12, l]
  | .shl d a b => encS 1 d a b 13
  | .shlLit d a l => [f32s 1 1 d a 0 13, l]
  | .shr d a b => encS 1 d a b 14
  | .shrLit d a l => [f32s 1 1 d a 0 14, l]
  | .sha d a b => encS 1 d a b 15
  | .shaLit d a l => [f32s 1 1 d a 0 15, l]
  | .rol d a b => encS 1 d a b 16
  | .rolLit d a l => [f32s 1 1 d a 0 16, l]
  | .min_ d a b => encS 1 d a b 17
  | .minLit d a l => [f32s 1 1 d a 0 17, l]
  | .minn d a b => encS 1 d a b 18
  | .minnLit d a l => [f32s 1 1 d a 0 18, l]
  | .max_ d a b => encS 1 d a b 19
  | .maxLit d a l => [f32s 1 1 d a 0 19, l]
  | .maxn d a b => encS 1 d a b 20
  | .maxnLit d a l => [f32s 1 1 d a 0 20, l]
  | .slt d a b => encS 1 d a b 21
  | .sltLit d a l => [f32s 1 1 d a 0 21, l]
  | .sltn d a b => encS 1 d a b 22
  | .sltnLit d a l => [f32s 1 1 d a 0 22, l]
  | .seq d a b => encS 1 d a b 23
  | .seqLit d a l => [f32s 1 1 d a 0 23, l]
  | .clz d a => encS 1 d a 0 24
  | .ctz d a => encS 1 d a 0 25
  | .popc d a => encS 1 d a 0 26
  | .addi d a i => [f32i 0 2 d a i]
  | .addiLit d a l => [f32i 1 2 d a 0, l]
  | .andi d a i => [f32i 0 3 d a i]
  | .andiLit d a l => [f32i 1 3 d a 0, l]
  | .ori d a i => [f32i 0 4 d a i]
  | .oriLit d a l => [f32i 1 4 d a 0, l]
  | .xori d a i => [f32i 0 5 d a i]
  | .xoriLit d a l => [f32i 1 5 d a 0, l]
  | .slti d a i => [f32i 0 7 d a i]
  | .sltiLit d a l => [f32i 1 7 d a 0, l]
  | .sltni d a i => [f32i 0 8 d a i]
  | .sltniLit d a l => [f32i 1 8 d a 0, l]
  | .shli d a n => [f32i 0 6 d a ((0 : BitVec 4) ++ (0 : BitVec 2) ++ n)]
  | .shri d a n => [f32i 0 6 d a ((0 : BitVec 4) ++ (1 : BitVec 2) ++ n)]
  | .shai d a n => [f32i 0 6 d a ((0 : BitVec 4) ++ (2 : BitVec 2) ++ n)]
  | .roli d a n => [f32i 0 6 d a ((0 : BitVec 4) ++ (3 : BitVec 2) ++ n)]
  | .srd d n => [f32y 9 d 0 n]
  | .swr a n => [f32y 10 a 0 n]
  | .bra o => [f32j 0 0x0B o]
  | .braLit l => [f32j 1 0x0B 0, l]
  | .call o => [f32j 0 0x0C o]
  | .callLit l => [f32j 1 0x0C 0, l]
  | .beqz a o => [f32b 0 0x0D 0 a o]
  | .beqzLit a l => [f32b 1 0x0D 0 a 0, l]
  | .bnez a o => [f32b 0 0x0D 1 a o]
  | .bnezLit a l => [f32b 1 0x0D 1 a 0, l]
  | .bltz a o => [f32b 0 0x0D 2 a o]
  | .bltzLit a l => [f32b 1 0x0D 2 a 0, l]
  | .bgez a o => [f32b 0 0x0D 3 a o]
  | .bgezLit a l => [f32b 1 0x0D 3 a 0, l]
  | .blez a o => [f32b 0 0x0D 4 a o]
  | .blezLit a l => [f32b 1 0x0D 4 a 0, l]
  | .bgtz a o => [f32b 0 0x0D 5 a o]
  | .bgtzLit a l => [f32b 1 0x0D 5 a 0, l]
  | .vbr k o => [f32b 0 0x0E k 0 o]
  | .vbrLit k l => [f32b 1 0x0E k 0 0, l]
  | .bany k o => [f32b 0 0x0F k 0 o]
  | .banyLit k l => [f32b 1 0x0F k 0 0, l]
  | .ball k o => [f32b 0 0x0F k 1 o]
  | .ballLit k l => [f32b 1 0x0F k 1 0, l]
  | .bnone k o => [f32b 0 0x0F k 2 o]
  | .bnoneLit k l => [f32b 1 0x0F k 2 0, l]
  | .nop => [f32y 0x10 0 0 0]
  | .ret => [f32y 0x10 0 0 1]
  | .jmpi a => [f32y 0x10 a 0 2]
  | .calli a => [f32y 0x10 a 0 3]
  | .join => [f32y 0x10 0 0 4]
  | .yield => [f32y 0x10 0 0 5]
  | .end_ => [f32y 0x10 0 0 6]
  | .trap n => [f32y 0x10 n 0 0x10]
  | .tret => [f32y 0x10 0 0 32]
  | .kand d a b => [f32k d a b 0 0]
  | .kor d a b => [f32k d a b 0 1]
  | .kxor d a b => [f32k d a b 0 2]
  | .kandn d a b => [f32k d a b 0 3]
  | .knot d a => [f32k d a 0 0 4]
  | .kmov d a => [f32k d a 0 0 5]
  | .kpopc s a => [f32k 0 a 0 s 6]
  | .kfirst s a => [f32k 0 a 0 s 7]
  | .klds d s => [f32k d 0 0 s 8]
  | .ksts s a => [f32k 0 a 0 s 9]
  | .kexec d => [f32k d 0 0 0 10]
  | .klane d s => [f32k d 0 0 s 11]
  | .vadd d a b k => [f32v 0 18 k d a b 0]
  | .vaddLit d a k l => [f32v 1 18 k d a 0 0, l]
  | .vsub d a b k => [f32v 0 18 k d a b 1]
  | .vsubLit d a k l => [f32v 1 18 k d a 0 1, l]
  | .vmul d a b k => [f32v 0 18 k d a b 2]
  | .vmulLit d a k l => [f32v 1 18 k d a 0 2, l]
  | .vmulh d a b k => [f32v 0 18 k d a b 3]
  | .vmulhLit d a k l => [f32v 1 18 k d a 0 3, l]
  | .vand d a b k => [f32v 0 19 k d a b 0]
  | .vandLit d a k l => [f32v 1 19 k d a 0 0, l]
  | .vor d a b k => [f32v 0 19 k d a b 1]
  | .vorLit d a k l => [f32v 1 19 k d a 0 1, l]
  | .vxor d a b k => [f32v 0 19 k d a b 2]
  | .vxorLit d a k l => [f32v 1 19 k d a 0 2, l]
  | .vandn d a b k => [f32v 0 19 k d a b 3]
  | .vandnLit d a k l => [f32v 1 19 k d a 0 3, l]
  | .vshl d a b k => [f32v 0 20 k d a b 0]
  | .vshlLit d a k l => [f32v 1 20 k d a 0 0, l]
  | .vshr d a b k => [f32v 0 20 k d a b 1]
  | .vshrLit d a k l => [f32v 1 20 k d a 0 1, l]
  | .vsha d a b k => [f32v 0 20 k d a b 2]
  | .vshaLit d a k l => [f32v 1 20 k d a 0 2, l]
  | .vrol d a b k => [f32v 0 20 k d a b 3]
  | .vrolLit d a k l => [f32v 1 20 k d a 0 3, l]
  | .vmin d a b k => [f32v 0 21 k d a b 0]
  | .vminLit d a k l => [f32v 1 21 k d a 0 0, l]
  | .vminn d a b k => [f32v 0 21 k d a b 1]
  | .vminnLit d a k l => [f32v 1 21 k d a 0 1, l]
  | .vmax d a b k => [f32v 0 21 k d a b 2]
  | .vmaxLit d a k l => [f32v 1 21 k d a 0 2, l]
  | .vmaxn d a b k => [f32v 0 21 k d a b 3]
  | .vmaxnLit d a k l => [f32v 1 21 k d a 0 3, l]
  | .vsel d a b k => [f32v 0 22 k d a b 0]
  | .vselLit d a k l => [f32v 1 22 k d a 0 0, l]
  | .vbcst d s k => [f32v 0 0x16 k d s 0 1]
  | .vlid d k => [f32v 0 0x16 k d 0 0 2]
  | .vmov d b k => [f32v 0 0x16 k d 0 b 3]
  | .vmovLit d k l => [f32v 1 0x16 k d 0 0 3, l]
  | .vcmp c d a b k => encV 0x17 k ((0 : BitVec 2) ++ d) a b 0 c.code 0 0 0 0
  | .vcmpLit c d a k l => encVLit 0x17 k ((0 : BitVec 2) ++ d) a 0 c.code 0 0 0 0 l
  | .vmad d a b c k => encV 0x18 k d a b c 0 0 0 0 0
  | .vmadLit d a c k l => encVLit 0x18 k d a c 0 0 0 0 0 l
  | .vclz d a k => encV 0x18 k d a 0 0 1 0 0 0 0
  | .vpopc d a k => encV 0x18 k d a 0 0 2 0 0 0 0
  | .vabs d a k => encV 0x18 k d a 0 0 3 0 0 0 0
  | .vneg d a k => encV 0x18 k d a 0 0 4 0 0 0 0
  | .vfadd d a b k q => encFp k d a b 0 0 q
  | .vfaddLit d a k q l => encFpLit k d a 0 0 q l
  | .vfsub d a b k q => encFp k d a b 0 1 q
  | .vfsubLit d a k q l => encFpLit k d a 0 1 q l
  | .vfmul d a b k q => encFp k d a b 0 2 q
  | .vfmulLit d a k q l => encFpLit k d a 0 2 q l
  | .vfma d a b c k q => encFp k d a b c 3 q
  | .vfmaLit d a c k q l => encFpLit k d a c 3 q l
  | .vfmin d a b k p => encV 0x19 k d a b 0 4 0 0 p.code 0
  | .vfminLit d a k p l => encVLit 0x19 k d a 0 4 0 0 p.code 0 l
  | .vfmax d a b k p => encV 0x19 k d a b 0 5 0 0 p.code 0
  | .vfmaxLit d a k p l => encVLit 0x19 k d a 0 5 0 0 p.code 0 l
  | .vfabs d a k p => encV 0x19 k d a 0 0 6 0 0 p.code 0
  | .vfneg d a k p => encV 0x19 k d a 0 0 7 0 0 p.code 0
  | .vfrnd d a k p rm => encV 0x19 k d a 0 0 8 0 rm.code p.code 0
  | .vrcp d a k p o => encSfn k d a 0 p o
  | .vrsq d a k p o => encSfn k d a 1 p o
  | .vsqrt d a k p o => encSfn k d a 2 p o
  | .vexp2 d a k p o => encSfn k d a 3 p o
  | .vlog2 d a k p o => encSfn k d a 4 p o
  | .vsin d a k p o => encSfn k d a 5 p o
  | .vcos d a k p o => encSfn k d a 6 p o
  | .vtanh d a k p o => encSfn k d a 7 p o
  | .vsigm d a k p o => encSfn k d a 8 p o
  | .verf d a k p o => encSfn k d a 9 p o
  | .vcvt src dst d a k rm o sr => encV 0x1B k d a 0 0 (src.code ++ dst.code) o.code rm.code 0 ((0 : BitVec 3) ++ bit sr)
  | .vqpack t d a k => encV 0x1C k d a 0 0 0 0 0 0 ((0 : BitVec 2) ++ t.code)
  | .vqunpk d a k => encV 0x1C k d a 0 0 1 0 0 0 0
  | .vperm d a b k => encV 0x1D k d a b 0 0 0 0 0 0
  | .vpermLit d a k l => encVLit 0x1D k d a 0 0 0 0 0 0 l
  | .vred op d a k rm o => encV 0x1D k d a 0 0 1 o.code rm.code 0 op.code
  | .vscan op d a k rm o => encV 0x1D k d a 0 0 2 o.code rm.code 0 op.code
  | .vcmprs d a k => encV 0x1D k d a 0 0 3 0 0 0 0
  | .vmatch d a k => encV 0x1D k d a 0 0 4 0 0 0 0
  | .xvdepth d k => encV 0x1D k d 0 0 0 5 0 0 0 0
  | .vdp4 d a b c k rm o => encV 0x3C k d a b c 0 o.code rm.code 0 0
  | .vdp4Lit d a c k rm o l => encVLit 0x3C k d a c 0 o.code rm.code 0 0 l
  | .xv p x y k => [f32v 0 0x1E k p x y 0]
  | .xvS0 p x y k => [f32v 0 0x1E k p x y 1]
  | .xvS1 p x y k => [f32v 0 0x1E k p x y 2]
  | .xvpush a k => [f32v 0 0x1F k 0 a 0 0]
  | .xvpop d k => [f32v 0 0x1F k d 0 0 1]
  | .xvpeek d k => [f32v 0 0x1F k d 0 0 2]
  | .xvclr k => [f32v 0 0x1F k 0 0 0 3]
  | .tblld t a => encS 0x20 0 a 0 ((0 : BitVec 4) ++ t)
  | .tblsw t => encS 0x20 0 0 0 ((1 : BitVec 4) ++ t)
  | .tblgen d t => encS 0x20 d 0 0 ((2 : BitVec 4) ++ t)
  | .vld t sb vo k i m => encM 33 k t sb vo i m
  | .vldLit t sb vo k m l => encMLit 33 k t sb vo m l
  | .vst t sb vo k i m => encM 34 k t sb vo i m
  | .vstLit t sb vo k m l => encMLit 34 k t sb vo m l
  | .sld t sb i m => encM 35 0 t sb 60 i m
  | .sldLit t sb m l => encMLit 35 0 t sb 60 m l
  | .sst t sb i m => encM 36 0 t sb 60 i m
  | .sstLit t sb m l => encMLit 36 0 t sb 60 m l
  | .vatom op t sb vo k i m => encA 0x25 op k t sb vo i m
  | .satom op t sb i m => encA 0x26 op 0 t sb 60 i m
  | .mred op t sb vo k i m => encA 0x27 op k t sb vo i m
  | .fence m sc => [f32f m sc.code 0]
  | .fenceAcq m sc => [f32f m sc.code 1]
  | .fenceRel m sc => [f32f m sc.code 2]
  | .mwait t sb i q => encM 0x29 0 t sb 60 i q.memQ
  | .mwaitLit t sb q l => encMLit 0x29 0 t sb 60 q.memQ l
  | .icinv sc a b => encS 0x2A ((0 : BitVec 3) ++ sc.code) a b 0
  | .dwb a b => encS 0x2A 0 a b 1
  | .dinv a b => encS 0x2A 0 a b 2
  | .cpy dst src saw ch st sc mc => [f64cW0 0x2B dst src saw st, f64cW1 ch mc 0 sc.code]
  | .cpyCvt dst src saw ch st sc mc => [f64cW0 0x2B dst src saw st, f64cW1 ch mc 1 sc.code]
  | .nsend flow rec saw st => [f64cW0 0x2C flow rec saw st, f64cW1 0 0 0 0]
  | .npost flow rec saw st => [f64cW0 0x2C flow rec saw st, f64cW1 0 0 1 0]
  | .barinit rv b => encS 0x2D 0 rv b 0
  | .bararr d rv => encS 0x2D d rv 0 1
  | .barwait rv b => encS 0x2D 0 rv b 2
  | .barsync rv => encS 0x2D 0 rv 0 3
  | .awset a b => encS 0x2D 0 a b 4
  | .awwait d a b => encS 0x2D d a b 5
  | .awadd a b => encS 0x2D 0 a b 6
  | .dqpush a => encS 0x2E 0 a 0 0
  | .dqpop d => encS 0x2E d 0 0 1
  | .dqsteal d a => encS 0x2E d a 0 2
  | .dqcnt d => encS 0x2E d 0 0 3
  | .capenter d a del o => [f32s 1 0x2F d a del 0, o]
  | .capstep => encS 0x30 0 0 0 0
  | .capexit a => encS 0x30 0 a 0 1
  | .capdrop => encS 0x30 0 0 0 2
  | .capqry d a => encS 0x30 d a 0 3
  | .wload f a => [f32x 0 a 0 f.code 0 0]
  | .mma f acc t a b => [f32x t a b f.code ((0 : BitVec 1) ++ bit acc) 1]
  | .mmad f r d a => [f32x 0 a d f.code r 2]
  | .mdrain r d t a => [f32x t a d 0 r 3]
  | .mfill r t v a => [f32x t a v 0 r 4]
  | .czero t => [f32x t 0 0 0 0 5]
  | .cwait t => [f32x t 0 0 0 0 6]
  | .lget d v b => encS 0x32 d v b 0
  | .lput v a b => encS 0x32 v a b 1
  | .tlcause d a => encS 0x32 d a 0 2
  | .tladdr d a => encS 0x32 d a 0 3
  | .tlstep d a => encS 0x32 d a 0 4
  | .tlbinv a b => encS 0x33 0 a b 0
  | .fbpop d a => encS 0x33 d a 0 1
  | .xlreplay a => encS 0x33 0 a 0 2
  | .fbstat d a => encS 0x33 d a 0 3
  | .banksw a => encS 0x34 0 a 0 0
  | .spill a b => encS 0x34 0 a b 1
  | .fill a b => encS 0x34 0 a b 2
  | .gate a => encS 0x34 0 a 0 3
  | .migr a b => encS 0x34 0 a b 4
  | .xvRetire .. | .tblldComplete .. | .loadDataReturn .. | .mwaitWake .. | .mwaitTimeout .. | .copyLanding ..
  | .copyCompletion .. | .chainedCommandEntry .. | .engineFault .. | .networkMessagePlacement ..
  | .remoteAcceptance .. | .arrayRowDrain .. | .matrixOpRetire .. | .xlatComplete .. | .ctxComplete ..
  | .commitGateRelease .. | .shadowCheck .. | .step0Reexecute .. | .injectionFire .. | .governorRaise ..
  | .eventWindowExpiry .. | .marginSettleComplete .. | .quarantine .. | .quarantineMove .. | .swapQuantumExpiry ..
  | .bankSwap .. | .bankUngate .. | .queueDoorbell .. | .queueEnable .. | .queueDisable .. | .packetFetch ..
  | .signalReread .. | .cfeChoice .. | .launchCompletion .. | .hxtLaunchMessage .. | .launchCreditRefill
  | .serviceRingRecord .. | .resume .. | .deliver .. | .kill .. | .auditRerun .. | .auditCompare ..
  | .uncorrectableError .. | .integrityTreeFailure .. | .moduleBoot | .partitionHalt .. | .partitionResume ..
  | .partitionSaveDone .. | .partitionRestoreDone .. | .imageLoadGo | .imageVerifyDone .. | .imageRevoke
  | .worldWrite .. | .worldKeyDestroy .. | .bounceResync .. | .bounceHseqWrite .. | .flowValidClear ..
  | .windowWrite .. | .pcieCxlRequest .. | .spdmRequest | .powerLimitWithholding .. | .lerridHartMemoryAccess ..
  | .crossDieWriteApply .. | .icinvCompletion .. => []

/-- The bytes of an instruction in memory, lowest address first (R3, R86). -/
def encodeBytes (i : Instr) : List Byte := (encode i).flatMap bytesOf

/-- How many bytes an instruction takes (R86). -/
def Instr.size (i : Instr) : Nat := 4 * (encode i).length

/-- Whether a row is an instruction, which has words, or a step of an engine, a front end or an outside party. -/
def Instr.isInstruction (i : Instr) : Bool := (encode i).length != 0

end Sys2Proof
end

