-- ==== Sys2Proof/Machine/Event.lean ====
section
/-! DEFINITION. Machine/Event.lean: the steps of engines, schedulers, front ends and outside parties as plain data, for
the state's list of inputs to come: the rows of the opcode table that are no instructions, with the same arguments as
their constructors of `Instr`. -/
namespace Sys2Proof.Machine

/-- A step that is no instruction. -/
inductive Event where
  /-- XV_RETIRE (R151) -/
  | xvRetire (w : Nat)
  /-- TBLLD_COMPLETE (R156) -/
  | tblldComplete (bank : Nat)
  /-- LOAD_DATA_RETURN (R163) -/
  | loadDataReturn (w : Nat) (x : SlotId)
  /-- MWAIT_WAKE (R172) -/
  | mwaitWake (w : Nat) (x : SlotId)
  /-- MWAIT_TIMEOUT (R172) -/
  | mwaitTimeout (w : Nat) (x : SlotId)
  /-- COPY_LANDING (R200) -/
  | copyLanding (t : Nat)
  /-- COPY_COMPLETION (R200) -/
  | copyCompletion (t : Nat)
  /-- CHAINED_COMMAND_ENTRY (R199) -/
  | chainedCommandEntry (t bank : Nat)
  /-- ENGINE_FAULT (R286) -/
  | engineFault (t : Nat)
  /-- NETWORK_MESSAGE_PLACEMENT (R204) -/
  | networkMessagePlacement (flow : Nat) (data : List Byte)
  /-- REMOTE_ACCEPTANCE (R203) -/
  | remoteAcceptance (t : Nat)
  /-- ARRAY_ROW_DRAIN (R186) -/
  | arrayRowDrain (core : Nat)
  /-- MATRIX_OP_RETIRE (R186) -/
  | matrixOpRetire (core : Nat)
  /-- XLAT_COMPLETE (R303) -/
  | xlatComplete (w : Nat) (x : SlotId)
  /-- CTX_COMPLETE (R244) -/
  | ctxComplete (w : Nat) (x : SlotId)
  /-- COMMIT_GATE_RELEASE (R249) -/
  | commitGateRelease (w : Nat) (x : SlotId)
  /-- SHADOW_CHECK (R247) -/
  | shadowCheck (w : Nat) (x : SlotId) (stage : BitVec 4) (late : Bool)
  /-- STEP0_REEXECUTE (R311) -/
  | step0Reexecute (core : Nat) (late : Bool)
  /-- INJECTION_FIRE (R253) -/
  | injectionFire (core : Nat)
  /-- GOVERNOR_RAISE (R252) -/
  | governorRaise (core : Nat)
  /-- EVENT_WINDOW_EXPIRY (R252) -/
  | eventWindowExpiry (core : Nat)
  /-- MARGIN_SETTLE_COMPLETE (R251) -/
  | marginSettleComplete (core : Nat)
  /-- QUARANTINE (R313) -/
  | quarantine (core : Nat)
  /-- QUARANTINE_MOVE (R314) -/
  | quarantineMove (core : Nat)
  /-- SWAP_QUANTUM_EXPIRY (R243) -/
  | swapQuantumExpiry (core : Nat)
  /-- BANK_SWAP (R243) -/
  | bankSwap (core : Nat)
  /-- BANK_UNGATE (R243) -/
  | bankUngate (core : Nat)
  /-- QUEUE_DOORBELL (R232) -/
  | queueDoorbell (vf q : Nat) (widx : Word)
  /-- QUEUE_ENABLE (R308) -/
  | queueEnable (vf q : Nat)
  /-- QUEUE_DISABLE (R308) -/
  | queueDisable (vf q : Nat)
  /-- PACKET_FETCH (R233) -/
  | packetFetch (vf q : Nat)
  /-- SIGNAL_REREAD (R235) -/
  | signalReread (vf q : Nat)
  /-- CFE_CHOICE (R237) -/
  | cfeChoice (p vf q : Nat)
  /-- LAUNCH_COMPLETION (R35) -/
  | launchCompletion (l : Nat)
  /-- HXT_LAUNCH_MESSAGE (R236) -/
  | hxtLaunchMessage (tenant : W32) (port : Nat) (pre : Word) (packet : List Word)
  /-- LAUNCH_CREDIT_REFILL (R236) -/
  | launchCreditRefill
  /-- SERVICE_RING_RECORD (R287) -/
  | serviceRingRecord (p : Nat)
  /-- RESUME (R288) -/
  | resume (w : Nat) (v : Word)
  /-- DELIVER (R288) -/
  | deliver (w : Nat) (v : Word)
  /-- KILL (R288) -/
  | kill (w : Nat) (v : Word)
  /-- AUDIT_RERUN (R318) -/
  | auditRerun (l team bank : Nat)
  /-- AUDIT_COMPARE (R319) -/
  | auditCompare (l team : Nat)
  /-- UNCORRECTABLE_ERROR (R320) -/
  | uncorrectableError (site : EccSite)
  /-- INTEGRITY_TREE_FAILURE (R323) -/
  | integrityTreeFailure (world base len : Nat)
  /-- MODULE_BOOT (R256) -/
  | moduleBoot
  /-- PARTITION_HALT (R264) -/
  | partitionHalt (p : Nat)
  /-- PARTITION_RESUME (R264) -/
  | partitionResume (p : Nat)
  /-- PARTITION_SAVE_DONE (R246) -/
  | partitionSaveDone (p : Nat)
  /-- PARTITION_RESTORE_DONE (R246) -/
  | partitionRestoreDone (p : Nat)
  /-- IMAGE_LOAD_GO (R261) -/
  | imageLoadGo
  /-- IMAGE_VERIFY_DONE (R261) -/
  | imageVerifyDone (verified : Bool) (loadid : Word)
  /-- IMAGE_REVOKE (R261) -/
  | imageRevoke
  /-- WORLD_WRITE (R266) -/
  | worldWrite (die : Nat) (v : Word)
  /-- WORLD_KEY_DESTROY (R266) -/
  | worldKeyDestroy (world : Nat)
  /-- BOUNCE_RESYNC (R310) -/
  | bounceResync (vf j : Nat) (v : W32)
  /-- BOUNCE_HSEQ_WRITE (R310) -/
  | bounceHseqWrite (vf j : Nat) (v : W32)
  /-- FLOW_VALID_CLEAR (R306) -/
  | flowValidClear (p flow : Nat)
  /-- WINDOW_WRITE (R258) -/
  | windowWrite (off : Nat) (v : Word) (path : WinPath)
  /-- PCIE_CXL_REQUEST (R268) -/
  | pcieCxlRequest (port : Nat) (write : Bool) (pa n : Nat) (v : Word)
  /-- SPDM_REQUEST (R268) -/
  | spdmRequest
  /-- POWER_LIMIT_WITHHOLDING (R12) -/
  | powerLimitWithholding (cycles : Nat)
  /-- LERRID_HART_MEMORY_ACCESS (R229) -/
  | lerridHartMemoryAccess (hart : Nat) (acc : HartAccess) (pa n : Nat) (v : Word)
  /-- CROSS_DIE_WRITE_APPLY (R225) -/
  | crossDieWriteApply (src dst : Nat) (clock : List Nat)
  /-- ICINV_COMPLETION (R173) -/
  | icinvCompletion (w : Nat) (x : SlotId)
deriving DecidableEq, Repr

end Sys2Proof.Machine
end

