-- ==== Sys2Proof/Config.lean ====
section
/-! DEFINITION. Config.lean: what an implementation fixes and the manual leaves open: free values,
constants with no body, so that nothing can be proved of which value they are. -/
namespace Sys2Proof

/-- Which of the results within the bound of R69 a bounded function gives, once reduced modulo their number:
`Config.sfn f fmt x` with the function's index (`Sfn.index`), the format's (`FFmt.index`) and the operand's bits. It
depends on the operand alone, because R69 makes the results identical on every core. Log 6. -/
opaque Config.sfn : Nat → Nat → W32 → Nat

/-- Which of the translations that a cluster holds for a page and a fresh walk would not give is used, once reduced modulo
one more than their number: their number is the fresh walk (R46: entries are invalidated only by TLBINV). Log 7. -/
opaque Config.tlbChoice : Nat → Nat

/-- Which of the copies of an instruction word that a core holds and that memory's word differs from is fetched, once
reduced modulo one more than their number: their number is memory's word (R44, R230: the instruction cache is not coherent
with stores). Log 8. -/
opaque Config.icacheChoice : Nat → Nat

/-- The first identifier that the front ends give to a launch (R20: LAUNCHID is unique among live launches). Log 10. -/
opaque Config.launchIdBase : Word

/-- Which of the 16 entries of a 64 KiB page translates a part of it (R45), as an index 0 to 15 once reduced modulo
16. Log 7. -/
opaque Config.alikeEntry : Nat → Nat

/-- The home die of a physical address (R44: the stack that owns the line, or a hash). Log 18. -/
opaque Config.homeDie : Nat → Nat

/-- The 64-bit hash of a 128-byte line's address and contents in an audit signature (R318). Log 16. -/
opaque Config.auditHash : Nat → List Byte → BitVec 64

/-- The digest that the root of trust takes of an image's bytes (R261, R268): SHA-512 is not computed here. Log 11. -/
opaque Config.digest : List Byte → BitVec 512

/-- The digests of the firmware image and of the configuration blob's items, as measured at boot (R268). Log 11. -/
opaque Config.firmwareDigest : BitVec 512
opaque Config.blobDigest : List Nat → BitVec 512

/-- The root of trust's signature, under a certificate chain, over measurements and WORLD registers (R268): no signature
is computed here. Log 11. -/
opaque Config.attest : List Byte → List (BitVec 512) → List Word → BitVec 512

/-- Byte `i` of the ciphertext of a line under a key: key number, line, plaintext, `i` (R266, R267): AES-256-XTS is not
computed here. Log 27. -/
opaque Config.cipher : Nat → Nat → List Byte → Nat → Byte

/-- A count of cache or translation misses, memory traffic or corrected errors, at a moment and by a key (R269): what the
caches hold is not modelled. Log 23. -/
opaque Config.counter : Nat → Nat → Word

/-- Whether a converting copy that reads poisoned bytes stops with POISON (R305) or passes the mark on to the destination
(R320): the manual says both. Log 24. -/
opaque Config.enginePoison : Nat → Bool

/-- What ERRADDR holds after a partition is torn down (R323): the manual names no address. Log 25. -/
opaque Config.teardownAddress : Nat → Word

/-- Whether a launch of a world has consumed a page below a failed node of the world's tree before its partition is torn down
(R323), at a moment and by the launch: the manual fixes no time. Log 25. -/
opaque Config.treeConsumer : Nat → Nat → Bool

/-- What a hart or a PCIe or CXL device reads from poisoned bytes (R320): the manual says nothing. Log 26. -/
opaque Config.poisonValue : Nat → Word

end Sys2Proof
end

