-- ==== Sys2Proof/Machine/Map.lean ====
section
/-! DEFINITION. Machine/Map.lean: sparse storage. Registers, lanes, stacks, buffers, tables and memory are lists of key
and value pairs in one canonical form: keys strictly rising, and no entry equal to what an unlisted key reads as. The
reset contents are a function of the key, given at each use. Bit and byte helpers stand here too. -/
namespace Sys2Proof.Machine

/-- A sparse map from keys to values. -/
abbrev SMap (α : Type) := List (Nat × α)

/-- The entry of a key, if one is listed. -/
def SMap.find? {α : Type} : SMap α → Nat → Option α
  | [], _ => none
  | (k', v) :: m, k => if k = k' then some v else SMap.find? m k

/-- What a key reads as: its entry, or its reset contents `d k`. -/
def SMap.get {α : Type} (d : Nat → α) (m : SMap α) (k : Nat) : α := (m.find? k).getD (d k)

/-- Put an entry where its key belongs. -/
def SMap.insert {α : Type} : SMap α → Nat → α → SMap α
  | [], k, v => [(k, v)]
  | (k', v') :: m, k, v =>
    if k < k' then (k, v) :: (k', v') :: m else if k = k' then (k, v) :: m else (k', v') :: SMap.insert m k v

/-- Remove a key. -/
def SMap.erase {α : Type} : SMap α → Nat → SMap α
  | [], _ => []
  | (k', v') :: m, k => if k = k' then SMap.erase m k else (k', v') :: SMap.erase m k

/-- Write a key. Writing its reset contents removes the entry. -/
def SMap.set {α : Type} [DecidableEq α] (d : Nat → α) (m : SMap α) (k : Nat) (v : α) : SMap α :=
  if v = d k then SMap.erase m k else SMap.insert m k v

/-- Remove the keys from `lo` to `lo + n − 1`: storage zeroed as a range. -/
def SMap.clear {α : Type} (m : SMap α) (lo n : Nat) : SMap α :=
  m.filter fun e => !(decide (lo ≤ e.1) && decide (e.1 < lo + n))

/-- The entries from `lo` to `lo + n − 1`, with keys counted from `lo`. -/
def SMap.slice {α : Type} (m : SMap α) (lo n : Nat) : SMap α :=
  (m.filter fun e => decide (lo ≤ e.1) && decide (e.1 < lo + n)).map fun e => (e.1 - lo, e.2)

/-- Every key of the list is above `k`, and keys rise strictly from it. -/
def SMap.sortedFrom {α : Type} : Nat → SMap α → Bool
  | _, [] => true
  | k, (k', _) :: m => decide (k < k') && SMap.sortedFrom k' m

/-- Keys rise strictly. -/
def SMap.sorted {α : Type} : SMap α → Bool
  | [] => true
  | (k, _) :: m => SMap.sortedFrom k m

/-- The canonical form. -/
def SMap.wf {α : Type} [DecidableEq α] (d : Nat → α) (m : SMap α) : Bool :=
  SMap.sorted m && m.all fun e => !(decide (e.2 = d e.1))

/-- Zero at every key. -/
def zeros {n : Nat} : Nat → BitVec n := fun _ => 0

/-- The canonical form of memory: addresses rise strictly, and no byte is listed that reads as an unlisted one does. -/
def Memory.wf (m : SMap Byte) : Bool := SMap.wf zeros m

/-- Put back a slice of bytes at `lo`, in place of the `n` bytes there; of two entries for a key the first counts. -/
def SMap.unslice (m : SMap Byte) (lo n : Nat) (part : SMap Byte) : SMap Byte :=
  part.reverse.foldl (fun m e => SMap.set zeros m (lo + e.1) e.2) (SMap.clear m lo n)

/-- The lanes of a wave (R16). -/
def laneList : List Nat := List.range 128

/-- Write `f i` at key `base + i` for every lane `i` of the mask. -/
def SMap.setLanes (m : SMap W32) (base : Nat) (mask : Mask) (f : Nat → W32) : SMap W32 :=
  laneList.foldl (fun m i => if mask.getLsbD i then SMap.set zeros m (base + i) (f i) else m) m

/-- The lowest lane of a mask, 128 if there is none. -/
def lowestLane (m : Mask) : Nat := (laneList.find? fun i => m.getLsbD i).getD 128

/-- The mask of the lanes that `p` holds for. -/
def laneMask (p : Nat → Bool) : Mask :=
  laneList.foldl (fun m i => if p i then m ||| ((1 : Mask) <<< i) else m) 0

/-- The number of ones in a word of any width. -/
def popcount {n : Nat} (x : BitVec n) : Nat := ((List.range n).filter fun i => x.getLsbD i).length

/-- The value of little-endian bytes (R3). -/
def leValue : List Byte → Nat
  | [] => 0
  | b :: bs => b.toNat + 256 * leValue bs

/-- The `n` little-endian bytes of a value (R3). -/
def leBytes : Nat → Nat → List Byte
  | 0, _ => []
  | n + 1, v => BitVec.ofNat 8 v :: leBytes n (v / 256)

/-- Bits `lo` to `lo + n − 1` of a natural number. -/
def bitsOf (v lo n : Nat) : Nat := v / 2 ^ lo % 2 ^ n

/-- Sign extension of the low `n` bits of a natural number to 64 bits. -/
def sext (n v : Nat) : Word := (BitVec.ofNat n v).signExtend 64

end Sys2Proof.Machine
end

