-- ==== Sys2Proof/Machine/State.lean ====
section
/-! DEFINITION. Machine/State.lean: what the VX9 holds, as plain data: the waves with their registers and slots, the
banks, the cores, the partitions, the system configuration window, memory, the front ends, the engines, and the model's
own schedule of choices. A hardware wave is named by its WAVEID (R20), a bank by 2 × core + bank, a core by its package
index 64d + 8c + n (R8). -/
namespace Sys2Proof.Machine

/-- Trap causes (R284). -/
inductive Cause where
  | ill | priv | miss | fmask | latch | xvop | xvpriv | xvund | xvovf | malign | spbound | bufbound | prot | xlate
  | poison | caplim | capill | caprec | ovftrap | divstk | timing | quar | swtrap | machine
deriving DecidableEq, Repr

/-- The vector pipes (R7). -/
inductive Pipe where
  | vp0 | vp1
deriving DecidableEq, Repr

/-- What an instruction issues on (R31). -/
inductive IssueUnit where
  | vector (p : Pipe)
  /-- An XV: the pipe, and the XV unit (R151). -/
  | xv (p : Pipe)
  | scalar | memory | engine
deriving DecidableEq, Repr

/-- The open latch chain of a slot (R29): the head's address, the pipe that it issued on (R345), how many members have
issued, which vector registers they read (bit n is vn), and whether the head wrote a register it read (R295). -/
structure Chain where
  head : Word
  pipe : Pipe
  count : Nat
  reads : BitVec 64
  headBad : Bool
deriving DecidableEq, Repr

/-- An operation of major 0x33, 0x34 or ICINV whose slot is parked until it completes (R303, R244, R173); the operands
are those read at issue. -/
inductive SlotOp where
  | tlbinv (va n : Nat)
  | xlreplay (vf : Nat)
  | banksw (a : Word)
  | spill (a b : Word)
  | fill (a b : Word)
  | migr (a b : Word)
  /-- ICINV counts its scope from the core that issued it (R333). -/
  | icinv (scope : Scope) (core va n : Nat)
deriving DecidableEq, Repr

/-- Why a live slot issues nothing (R32, R47). -/
inductive Park where
  | none
  /-- MWAIT (R172): its register, its length, the address and width, and the cycle of its timeout if it has one. -/
  | mwait (t : SReg) (len : Nat) (addr : Word) (wide : Bool) (deadline : Option Nat)
  /-- BARWAIT and BARSYNC (R176). -/
  | barwait (rv : Nat) (gen : BitVec 32)
  /-- AWWAIT (R177): the word, the generation it waits to leave, the destination register, and the later generation that a
  write had brought by the time the wave's context was saved. -/
  | awwait (addr : Word) (gen : BitVec 32) (d : SReg) (found : Option (BitVec 32))
  /-- An access parked on granules, by base address and size code (R47, R48). -/
  | granule (gs : List (Nat × Nat))
  /-- The issuing slot of an S-level operation. -/
  | op (o : SlotOp)
deriving DecidableEq, Repr

/-- A PC slot (R22). `xvres` is the mask of an XV to re-issue in resumption form (R283) with the lanes that resume at
step 1. -/
structure Slot where
  live : Bool
  pc : Word
  mask : Mask
  depth : BitVec 8
  waiting : Bool
  park : Park
  chain : Option Chain
  latches : SMap W32
  xvres : Option (Mask × Mask)
deriving DecidableEq, Repr

/-- A free slot. -/
def Slot.free : Slot :=
  { live := false, pc := 0, mask := 0, depth := 0, waiting := false, park := .none, chain := none, latches := []
    xvres := none }

/-- A per-lane trap record (R280, R287). -/
structure LaneRec where
  cause : BitVec 8
  step : BitVec 8
  addr : Word
deriving DecidableEq, Repr

/-- The trap registers of R278. -/
structure TrapRegs where
  tpc : Word
  tcause : BitVec 8
  taddr : Word
  tinfo : BitVec 12
  tmask : Mask
  tlane : BitVec 8
  tchain : Word
  tslot : BitVec 32
  thndl : Word
  tpc2 : Word
  tnext : Word
  lanes : SMap LaneRec
deriving DecidableEq, Repr

/-- No record. -/
def LaneRec.zero : LaneRec := { cause := 0, step := 0, addr := 0 }

/-- The trap registers at wave start (R278). -/
def TrapRegs.zero : TrapRegs :=
  { tpc := 0, tcause := 0, taddr := 0, tinfo := 0, tmask := 0, tlane := 0, tchain := 0, tslot := 0, thndl := 0
    tpc2 := 0, tnext := 0, lanes := [] }

/-- An engine fault that waits for the wave to resume (R286). -/
structure EngFault where
  x : SlotId
  cause : Cause
  addr : Word
deriving DecidableEq, Repr

/-- Service parking (R287): whether it is a nested trap, whether it is a TIMING park (R314), and the cause. -/
structure Service where
  nested : Bool
  timing : Bool
deriving DecidableEq, Repr

/-- Where a byte is held once its address has been resolved: physical memory, a bank's scratchpad share, the typed
buffers of a core, the system configuration window. -/
inductive Loc where
  | phys (a : Nat)
  /-- Physical memory as a copy engine sees it through a CONF page: what is behind the ciphertext (R267). -/
  | conf (a : Nat)
  | share (bank off : Nat)
  | wbuf (core off : Nat)
  | abuf (core off : Nat)
  | cbuf (core off : Nat)
  | win (off : Nat)
deriving DecidableEq, Repr

/-- The key of a byte among the poison marks: its physical address, or a number above every physical address. -/
def Loc.markKey : Loc → Nat
  | .phys a => a
  | .conf a => a
  | .share b o => 2 ^ 60 + b * 2 ^ 20 + o
  | .wbuf c o => 2 ^ 60 + (1024 + c) * 2 ^ 20 + o
  | .abuf c o => 2 ^ 60 + (1536 + c) * 2 ^ 20 + o
  | .cbuf c o => 2 ^ 60 + (2048 + c) * 2 ^ 20 + o
  | .win o => 2 ^ 61 + o

/-- One element of a store: its address and where that lies, its size in bytes, its value, and whether its page has
NOREPLAY (R322). -/
structure StoreElem where
  addr : Word
  loc : Loc
  size : Nat
  value : Word
  norep : Bool
deriving DecidableEq, Repr

/-- Capsule context (R207). -/
structure Capsule where
  adopter : Bool
  /-- The slot that executed CAPENTER. -/
  x : SlotId
  record : Word
  enterPc : Word
  sd : SReg
  displaced : Word
  holder : BitVec 40
  seq : BitVec 16
  saved : List Word
  instrs : Nat
  ssts : Nat
  /-- The step's buffered stores, oldest first. -/
  buffer : List StoreElem
  /-- Whether it has committed since its acquisition or adoption (R215). -/
  committed : Bool
deriving DecidableEq, Repr

/-- A BARSYNC that has arrived and not returned (R176): where its flow is, which is slot A (0), slot B (1) or entry `n` of the
divergence stack (2 + n), the flow's mask, the instruction, the point, the generation. -/
structure SyncRec where
  place : Nat
  mask : Mask
  pc : Word
  rv : Nat
  gen : BitVec 32
deriving DecidableEq, Repr

/-- Where a read value goes: a lane of a vector register or register pair, a scalar register. -/
inductive Dest where
  | lane (r : VReg) (wide : Bool) (i : Nat)
  | scalar (r : SReg)
deriving DecidableEq, Repr

/-- A load's data on its way (R163). -/
structure LoadRet where
  dest : Dest
  value : Word
  addr : Word
  poisoned : Bool
deriving DecidableEq, Repr

/-- One element of an atomic or reduction in the commit gate: location, size in bytes, operand, CAS's expected value,
its lane if it is one of a vector access, and where the old value goes. -/
structure AtomElem where
  loc : Loc
  size : Nat
  operand : Word
  expected : Word
  lane : Option Nat
  dest : Option Dest
  addr : Word
  norep : Bool
deriving DecidableEq, Repr

/-- One element of a load that reads the system configuration window (R249): where it lies, its size, whether it is
sign-extended, where the value goes, its address. -/
structure ReadElem where
  loc : Loc
  size : Nat
  sx : Bool
  dest : Dest
  addr : Word
deriving DecidableEq, Repr

/-- An effect in the commit gate (R249). -/
inductive Effect where
  | read (elems : List ReadElem)
  | store (elems : List StoreElem)
  | atomic (op : AtomOp) (elems : List AtomElem)
deriving DecidableEq, Repr

/-- An XV as it issued: its pips' and operands' registers, and its lanes with the steps that each runs (R147, R283). -/
structure XvIns where
  p : VReg
  x : VReg
  y : VReg
  lanes : List (Nat × List Nat)
deriving DecidableEq, Repr

/-- What an XV has computed and not yet written (R147, R151): stack entries (8 × lane + entry) and depths by lane, table
words (table, 1024 × generation + word, value), the failing lanes with their causes, steps and elected order, the
generation of each table that it latched, the cycle at which it retires, and whether a failed check holds it. -/
structure XvPend where
  ins : XvIns
  ostacks : List (Nat × W32)
  depths : List (Nat × Nat)
  tblw : List (Nat × Nat × W32)
  fails : List (Nat × Cause × Nat)
  gens : List Nat
  due : Nat
  held : Bool
deriving DecidableEq, Repr

/-- An effect of a slot that the commit gate holds (R249), with the slot's lanes as it issued, whether the handler issued it,
and the checked stages that the instruction has entered (R352). -/
structure Gated where
  x : SlotId
  mask : Mask
  pc : Word
  hand : Bool
  stages : List Nat
  effect : Effect
deriving DecidableEq, Repr

/-- What a wave has issued that is to write its registers, stacks or tables; while it is not `none`, the scoreboard holds
the wave (R31). A load names the checked stages that it has entered (R352); what has passed the commit gate names none, since
no check of it can fail any more (R249). -/
inductive Pend where
  | none
  | load (x : SlotId) (pc : Word) (stages : List Nat) (rets : List LoadRet)
  | xv (x : SlotId) (pc : Word) (p : XvPend)
  | mmad (x : SlotId)
deriving DecidableEq, Repr

/-- A hardware wave and the context it holds. -/
structure Wave where
  resident : Bool
  sregs : SMap Word
  kregs : SMap Mask
  vregs : SMap W32
  ostacks : SMap W32
  depths : SMap Nat
  gens : SMap W32
  rndseed : W32
  slotA : Slot
  slotB : Slot
  /-- The slot that issued last (R32). -/
  last : SlotId
  liveLanes : Mask
  dsp : Word
  dslim : Word
  entries : Nat
  system : Bool
  handler : Bool
  trap : TrapRegs
  /-- The two slots as a trap left them (R275, R281). -/
  frozen : Option (Slot × Slot)
  service : Option Service
  heldFault : Option EngFault
  adopts : W32
  mwtimeo : W32
  capsule : Option Capsule
  /-- BARSYNCs that have arrived and not returned (R176). -/
  syncs : List SyncRec
  pend : Pend
  /-- Effects in the commit gate, at most one of each slot (R249). -/
  gates : List Gated
deriving DecidableEq, Repr

/-- The context of a hardware wave that no launch has used, with the register values that log 1 names. -/
def Wave.idle : Wave :=
  { resident := false, sregs := [], kregs := [], vregs := [], ostacks := [], depths := [], gens := [], rndseed := 0
    slotA := Slot.free, slotB := Slot.free, last := .b, liveLanes := 0, dsp := 0, dslim := 0, entries := 0
    system := false, handler := false, trap := TrapRegs.zero, frozen := none, service := none, heldFault := none
    adopts := 0, mwtimeo := 0, capsule := none, syncs := [], pend := .none, gates := [] }

/-- A rendezvous point (R50), with who has arrived in the current generation. -/
structure Rv where
  init : Bool
  n : Nat
  exp : Nat
  arr : Nat
  memb : BitVec 8
  gen : BitVec 32
  who : BitVec 8
deriving DecidableEq, Repr

def Rv.zero : Rv := { init := false, n := 0, exp := 0, arr := 0, memb := 0, gen := 0, who := 0 }

/-- The team resident in a bank (R16–R19): the launch's key, its place, the banks of its set in SETIX order, the
log of SPAN, its waves, and whether it is an audit re-run or sampled (R317, R318). -/
structure Team where
  launch : Nat
  vf : Nat
  teamId : Nat
  setIx : Nat
  setBanks : List Nat
  waves : Nat
  spSize : Nat
  clPart : Nat
  retired : BitVec 8
  sampled : Bool
  rerun : Bool
  span : Nat
deriving DecidableEq, Repr

/-- An activation table (R154, R158): which generation is current, whether the other one is loaded, and both
generations' words (key 1024 × generation + word). -/
structure Table where
  cur : Nat
  loaded : Bool
  words : SMap W32
deriving DecidableEq, Repr

/-- A table load that has issued and not completed (R156): the wave, the table, the words. -/
structure TableLoad where
  wave : Nat
  launch : Nat
  table : Nat
  words : List W32
deriving DecidableEq, Repr

def Table.zero : Table := { cur := 0, loaded := false, words := [] }

/-- A weight set (R180): its format and the bytes of the tile it was latched from (R188). -/
structure Weights where
  fmt : ArrayFmt
  bytes : SMap Byte
deriving DecidableEq, Repr

/-- A wave that YIELD has put last (R116): since which cycle, and which waves of its team have issued since. -/
structure Yield where
  wave : Nat
  since : Nat
  after : BitVec 8
deriving DecidableEq, Repr

/-- A bank of a core. -/
structure Bank where
  owner : Option Nat
  team : Option Team
  share : SMap Byte
  rvs : SMap Rv
  deque : List Word
  tables : SMap Table
  loads : List TableLoad
  weights : Weights
  gated : Bool
  /-- Waves of the bank in round-robin order, next first (R240). -/
  order : List Nat
  yields : List Yield
  /-- CPY and NET instructions that wait for one of 32 transfers to complete, in the order in which they reached issue:
  wave, slot, address (R197). -/
  waitQ : List (Nat × SlotId × Word)
deriving DecidableEq, Repr

def Bank.zero : Bank :=
  { owner := none, team := none, share := [], rvs := [], deque := [], tables := [], loads := []
    weights := { fmt := .f16, bytes := [] }, gated := false, order := List.range 8, yields := [], waitQ := [] }

/-- An MMA or MMAD that has entered the matrix order and not retired (R181, R186): the issuing wave, its launch and its bank; the wave
and first register of an MMAD, or the tile of an MMA; the activation bytes and the weight set as the entry found them (R184, R185);
how many rows have left the draining edge; its address and level; and whether it has failed its check at step 0 and waits
for another core (R313). -/
structure MatrixOp where
  wave : Nat
  launch : Nat
  bank : Nat
  target : (Nat × VReg) ⊕ Tile
  fmt : ArrayFmt
  acc : Bool
  rows : Nat
  done : Nat
  weights : Weights
  acts : SMap Byte
  pc : Word
  sys : Bool
  failed : Bool
deriving DecidableEq, Repr

/-- Margin control of a core (R250–R253, R311–R316). `errs` has the cycles of the rerolls that the governor has counted
since its last raise, `raise` falls due with `raiseDue`, in cycle `raiseAt`; `escAt` is the cycle of the last escalation, and the ends of event
windows up to cycle `seen` have been noted; `logAt` is the cycle of the last reroll, `ctlAt` that of the last write to
MGN_CTL; `qdue` is the quarantine that falls due, 0 none, 1 for a failure at step 0, 2 for the run; `handled` lists the banks
that a quarantine has moved or parked. -/
structure Margin where
  step : Nat
  gov : Bool
  win : Nat
  rerolls : W32
  escal : BitVec 16
  cur : Nat
  state : Nat
  limit : Nat
  events : BitVec 16
  raise : Nat
  qcount : Nat
  inj : Word
  log : Word
  errs : List Nat
  raiseDue : Bool
  raiseAt : Option Nat
  escAt : Option Nat
  seen : Nat
  logAt : Option Nat
  ctlAt : Option Nat
  qinfo : Word
  qdue : Nat
  handled : List Nat
deriving DecidableEq, Repr

/-- One stage entry of an instruction: its stage and address (R247). -/
structure StageEntry where
  core : Nat
  stage : Nat
  pc : Word
deriving DecidableEq, Repr

/-- How an instance under check stands: its check fails, it has passed and is to complete, it waits for the supply to
reach step 0, it has failed there, or it has passed there and is to complete. -/
inductive Phase where
  | failing | passed | step0 | failed0 | passed0
deriving DecidableEq, Repr

/-- An instance under check in a core (R247, R248, R311): its wave and slot, whether its effects have been discarded so
that the slot is to issue it again, its stage and address, how many of its stage entries have been made (R352), its rerolls
so far, whether an injection fails its checks, is persistent, and has failed one, whether that is the injection that MGN_INJ
still holds, the words of an instruction that is to issue again, and how it stands. One that is not issued again stays, passed,
until what it has issued is delivered, so that its rerolls are counted together (R248). -/
structure Check where
  wave : Nat
  x : SlotId
  again : Bool
  stage : Nat
  pc : Word
  entered : Nat
  rerolls : Nat
  inj : Bool
  pers : Bool
  fired : Bool
  armed : Bool
  words : List W32
  phase : Phase
deriving DecidableEq, Repr

/-- A core. `icache` lists cached instruction words by physical address, each with
the VF × 2^56 + virtual address that it was fetched at (R44). `active` is 2 between the gating and the ungating of a
swap (R243); `swapTo` is the bank that a swap in progress makes active, `swapAt` the cycle at
which it began; `since` is the issue cycle at which the quantum of the
active bank began; `issued` has what has issued in its cycle, with the waves (R31); `checks` has the instances under check,
at most one of a slot and one row of the array. -/
structure Core where
  active : Nat
  swapTo : Option Nat
  swapAt : Nat
  since : Nat
  wbuf : SMap Byte
  abuf : SMap Byte
  cbuf : SMap Byte
  queue : List MatrixOp
  margin : Margin
  checks : List Check
  issued : Nat × List (IssueUnit × Nat)
  evsel : SMap Word
  evcnt : SMap Word
  icache : SMap (List (W32 × Nat))
deriving DecidableEq, Repr

/-- Margin control at reset, before boot writes the blob's values (R250). -/
def Margin.zero : Margin :=
  { step := 0, gov := false, win := 6, rerolls := 0, escal := 0, cur := 0, state := 0, limit := 3, events := 0x40
    raise := 1, qcount := 4, inj := 0, log := 0, errs := [], raiseDue := false, raiseAt := none, escAt := none, seen := 0, logAt := none
    ctlAt := none, qinfo := 0, qdue := 0, handled := [] }

def Core.zero : Core :=
  { active := 0, swapTo := none, swapAt := 0, since := 0, wbuf := [], abuf := [], cbuf := [], queue := [], margin := Margin.zero
    checks := [], issued := (0, []), evsel := [], evcnt := [], icache := [] }

/-- A service-ring record that waits for a free slot of the ring (R287). `ticket` names the image of its wave's team while
that is spilled, else it is 0. -/
structure RingRec where
  wave : Nat
  ticket : Nat
  cause : BitVec 8
  nested : Bool
  eng : Bool
deriving DecidableEq, Repr

/-- A buffer record as CPY or NET read it at issue (R194). -/
structure BufRec where
  base : Word
  extent : Nat
  stride1 : Nat
  stride2 : Nat
  count0 : Nat
  count1 : Nat
  count2 : Nat
  fmt : Nat
  bounds : Nat
  reserved : Nat
deriving DecidableEq, Repr

/-- What a transfer is: a CPY of KIND 00 or 01, an NSEND, or a message that fills a posted buffer (R204). -/
inductive XferKind where
  | copy | convert | nsend | recv
deriving DecidableEq, Repr

/-- A transfer in flight (R197–R204): who issued it, its records, the bytes of each *unit* read so far, with poison marks (a unit is a block
of 32 elements if a record is q4, else one element), how many units have landed at each receiver and the bytes of them
that are not yet counted, the receivers whose chained command has not entered (R199), the operations of the matrix order
that a CBUF source waits for (R183), the fault it has met, the granule it waits for, the bounce channels it consumes and
fills (R310), and the tenant pages of its records that were not resident at issue. `team` is the issuing team, by which its
windows are found, `x` and `mask` the issuing slot and its lanes. `early` keeps, by 64 × unit + piece, source bytes not yet read that the slot has since been about to overwrite
(R200). For an NSEND, `landed` is not empty once its message has left. -/
structure Xfer where
  key : Nat
  kind : XferKind
  team : Team
  wave : Nat
  x : SlotId
  mask : Mask
  pc : Word
  sys : Bool
  launch : Nat
  vf : Nat
  strm : BitVec 4
  src : BufRec
  dst : BufRec
  units : Nat
  data : List (List (Byte × Bool))
  early : SMap (List (Byte × Bool))
  landed : List Nat
  got : List Nat
  aw : Option Word
  chain : Option (BitVec 64)
  receivers : List Nat
  chainDue : List Nat
  cbufWait : Nat
  fault : Option (Cause × Word)
  granule : Option (Nat × Nat)
  bounce : List (Nat × Nat)
  unmapped : List Nat
  flow : Nat
deriving DecidableEq, Repr

/-- A posted receive buffer (R204): the team, wave of the team and slot that posted it, the slot's lanes and the stream,
its record, its arrival word. -/
structure Posted where
  team : Team
  waveIx : Nat
  x : SlotId
  mask : Mask
  strm : BitVec 4
  dst : BufRec
  aw : Option Word
deriving DecidableEq, Repr

/-- A page's prior contents (R322): its bytes, the offsets of its poison marks, and by line of the page what lay behind
ciphertext. -/
structure Snap where
  page : Nat
  bytes : SMap Byte
  marks : List Nat
  plain : SMap (Nat × List Byte)
deriving DecidableEq, Repr

/-- A launch known to a CFE (R17, R233–R241): its packet as read, the descriptor's fields, how far it is placed and
retired, its rollbacks and the prior contents of the 4 KiB parts it has written under SNAP, with the parts that it first wrote
when the pool was full (R322). -/
structure Launch where
  key : Nat
  part : Nat
  vf : Nat
  q : Nat
  packetAddr : Word
  packet : List Word
  entry : Word
  loadid : Word
  /-- Whether its waves run at level S (R260), and whether the signals of its wait list have been read (R235). -/
  system : Bool
  waited : Bool
  placed : Nat
  retired : Nat
  rollbacks : Nat
  snapLost : Bool
  sentNet : Bool
  killed : Bool
  snaps : List Snap
  unsnapped : List Nat
deriving DecidableEq, Repr

/-- The audit of a sampled team (R318): the core it ran on, whether the team has retired, the lines it wrote with their
previous contents, the lines as it last wrote them, and what a re-run has written. -/
structure Audit where
  launch : Nat
  team : Nat
  core : Nat
  retired : Bool
  before : List (Nat × List Byte)
  wrote : List (Nat × List Byte)
  rerun : Option Nat
  finished : Bool
  again : List (Nat × List Byte)
deriving DecidableEq, Repr

/-- A fault-buffer record (R48). -/
structure FaultRec where
  vaddr : Word
  vf : Nat
  rd : Bool
  wr : Bool
  at_ : Bool
  eng : Bool
  gsz : Nat
  wave : Nat
  seq : W32
deriving DecidableEq, Repr

/-- A VF's fault buffer (R302). -/
structure FaultBuffer where
  recs : List FaultRec
  dropped : Bool
  nextSeq : W32
deriving DecidableEq, Repr

def FaultBuffer.zero : FaultBuffer := { recs := [], dropped := false, nextSeq := 0 }

/-- A translation: the page's physical base, its size in bits, and the attributes W, X, SYSATOM, CONF, NOREPLAY (R45). -/
structure Leaf where
  base : Nat
  bits : Nat
  w : Bool
  x : Bool
  sysatom : Bool
  conf : Bool
  noreplay : Bool
deriving DecidableEq, Repr

/-- A team taken out of its bank (R245): its bank's state, its waves, and the parts of the typed buffers that it saw, from
offset 0, with its matrix operations that a failed check has left unfinished (R313), and how often its launch had been
rolled back. Of a team whose image stands in memory, the machine itself keeps the name and those operations alone. -/
structure SavedTeam where
  team : Team
  bank : Bank
  waves : List Wave
  wbuf : SMap Byte
  abuf : SMap Byte
  cbuf : SMap Byte
  view : Nat
  rollbacks : Nat
  ops : List MatrixOp
  /-- Offsets of poisoned bytes in the image. -/
  marks : List Nat
deriving DecidableEq, Repr

/-- A bank's image during a partition swap (R246): the bank it came from, its name among the images, and its place in
memory if it did not fit the shadow storage. -/
structure Shadow where
  bank : Nat
  ticket : Nat
  area : Option Nat
deriving DecidableEq, Repr

/-- The special registers and counts of a partition. Of its CFE: `turns` counts, by VF, the choices that have gone to
other VFs while the VF had a candidate (R237); `lastQ` is the queue last served, by 4 × VF + level. -/
structure Part where
  adoptage : BitVec 48
  featmask : BitVec 5
  audrate : BitVec 16
  audacc : BitVec 16
  hacq : BitVec 21
  ringWait : List RingRec
  shadows : List Shadow
  haltDue : Bool
  resumeDue : Bool
  tornDown : Bool
  turns : SMap Nat
  lastQ : SMap Nat
deriving DecidableEq, Repr

def Part.zero : Part :=
  { adoptage := 0x100000, featmask := 0, audrate := 0, audacc := 0, hacq := 0, ringWait := [], shadows := []
    haltDue := false, resumeDue := false, tornDown := false, turns := [], lastQ := [] }

/-- One copy of the configuration blob in flash (R257), and whether its signature verifies (R256). -/
structure Blob where
  sigOk : Bool
  /-- IDCERT: the module's identity and its certificate chain. -/
  idcert : List Byte
  version : W32
  power : Nat
  mgnctl : Word
  mgnlimit : Word
  mgnesc : Word
  coreoff : BitVec 512
  auddef : BitVec 16
deriving DecidableEq, Repr

/-- Where boot stands (R256). -/
inductive Boot where
  | inReset
  /-- Held in reset: the failing step is reported on the management interface. -/
  | failed (step : Nat)
  | up
deriving DecidableEq, Repr

/-- What the machine shows to the outside. -/
inductive Output where
  | hartValue (hart : Nat) (v : Word)
  | hartError (hart : Nat)
  | windowError (off : Nat)
  | interrupt (n : Nat)
  | nack (code : Nat)
  /-- A message on a flow, through an Ethernet port: its bytes, and which of them are poisoned (R203, R265, R320). -/
  | message (flow port : Nat) (bytes : List (Byte × Bool))
  | pcieValue (port : Nat) (v : Word)
  | pcieAbort (port : Nat)
  /-- Measurements, WORLD registers, and the signature over them under IDCERT (R268). -/
  | measurements (ms : List (BitVec 512)) (worlds : List Word) (signature : BitVec 512)
deriving DecidableEq, Repr

/-- A parked MWAIT's or AWWAIT's line, as a space and a line number in it, and whether the line has been written since
(R172). Of an AWWAIT, the offset of its word in the bank's share and the generation it waits to leave, and the first
later generation that a write has brought (R177, R327). -/
structure Waiter where
  wave : Nat
  x : SlotId
  line : Nat × Nat
  woken : Bool
  aw : Option (Nat × BitVec 32)
  found : Option (BitVec 32)
deriving DecidableEq, Repr

/-- A write of die `src` to a line of another die's memory (R225): the clock it left with, its line, and the dies at which
it is still to be applied. -/
structure Crossing where
  src : Nat
  clock : List Nat
  line : Nat
  todo : List Nat
deriving DecidableEq, Repr

/-- The machine. -/
structure State where
  /-- CYCLE (R108). -/
  cycle : Nat
  /-- How many of them the power manager has withheld (R12): the others are issue cycles. -/
  withheld : Nat
  /-- The cycle up to which it withholds (R12). -/
  withholdTo : Nat
  /-- How many steps have been taken: the argument of the free values. -/
  tick : Nat
  /-- Which of several due steps comes next; log 3. -/
  choices : List Nat
  /-- How many cycles each step takes, one where none is listed; log 4. -/
  delays : List Nat
  boot : Boot
  fwOk : Bool × Bool
  blobs : Blob × Blob
  /-- The copy that boot has accepted. -/
  blob : Option Blob
  versionFloor : W32
  power : Nat
  /-- Physical memory (R15). -/
  pmem : List Host.Cell
  /-- What lies behind ciphertext, by line: the number of the key it is sealed under, and its 128 bytes (R266, R267). -/
  plain : SMap (Nat × List Byte)
  /-- Poison marks of bytes, by `Loc.markKey` (R320). -/
  poison : SMap Bool
  /-- The lines that parked MWAITs and AWWAITs watch. -/
  waiters : List Waiter
  waves : SMap Wave
  banks : SMap Bank
  cores : SMap Core
  parts : SMap Part
  /-- The system configuration window's registers, by offset ÷ 8 (R258). -/
  win : SMap Word
  launches : List Launch
  nextKey : Nat
  /-- How many credit refills of the launch table have been made (R236). -/
  creditEpoch : Nat
  xfers : List Xfer
  posted : SMap (List Posted)
  /-- Messages that wait at the receiving interface for a posted buffer (R204). -/
  arrived : SMap (List (List Byte))
  audits : List Audit
  /-- Held translations by 192 × cluster + VF: the virtual page, of the leaf's size, and the leaf. -/
  tlb : SMap (List (Nat × Leaf))
  fbufs : SMap FaultBuffer
  images : SMap SavedTeam
  nextTicket : Nat
  /-- The worlds that have keys, with each key's number, and how many keys have been made (R266). -/
  worldKeys : List (Nat × Nat)
  keyCount : Nat
  measured : List (BitVec 512)
  imageReq : Bool
  /-- Physical pages the root of trust guards for verified images: partition, entry, base, length (R261). -/
  imagePages : List (Nat × Nat × Nat × Nat)
  clocks : List (List Nat)
  crossing : List Crossing
  /-- Steps of outside parties to come, in order; log 10. -/
  inputs : List Event
  /-- The issuing wave and slot of the present step. -/
  cur : Nat × SlotId
  /-- Stage entries of the instruction just issued (R352). -/
  stages : List StageEntry
  outputs : List Output
deriving DecidableEq, Repr

/-- Who stops, and why: the model stops nowhere but in reset. -/
inductive Fault where
  /-- Raised by `step` when boot has failed: the module stays in reset (R256). Safe: nothing runs. -/
  | heldInReset
deriving DecidableEq, Repr

/-- A step without a meaning. -/
inductive Refusal where
  /-- Raised by an arm of `exec` whose instruction has no meaning yet. Safe: nothing is claimed of it. -/
  | notModelled (mnemonic : String)
deriving DecidableEq, Repr

/-- Reset contents of the system configuration window by offset ÷ 8 (R258, R259): SPLIT 4, QUANT 20 and HBMW 1 in
every partition entry, WEIGHT 1 in every VF entry, 0 elsewhere. -/
def winReset (k : Nat) : Word :=
  if k < 48 * 8 then (if k % 8 = 0 then 0x0001000001440000 else 0)
  else if 0x200 ≤ k ∧ k < 0x200 + 192 * 4 then (if k % 4 = 0 then 0x4 else 0)
  else 0

/-- The blob that flash holds at reset; log 11. -/
def Blob.initial : Blob :=
  { sigOk := true, idcert := [], version := 0, power := 3600, mgnctl := 0x6000, mgnlimit := 3, mgnesc := 0x04010040, coreoff := 0
    auddef := 0 }

/-- The machine right after reset (R256 step 1): every die held in reset, nothing resident. -/
def State.reset : State :=
  { cycle := 0, withheld := 0, withholdTo := 0, tick := 0, choices := [], delays := [], boot := .inReset, fwOk := (true, true)
    blobs := (Blob.initial, Blob.initial), blob := none, versionFloor := 0, power := 3600, pmem := [], plain := [], poison := [], waiters := [], waves := []
    banks := [], cores := [], parts := [], win := [], launches := [], nextKey := 0, creditEpoch := 0, xfers := [], posted := []
    arrived := [], audits := [], tlb := [], fbufs := [], images := [], nextTicket := 1, worldKeys := [], keyCount := 0, measured := []
    imageReq := false, imagePages := [], clocks := List.replicate 8 (List.replicate 8 0), crossing := [], inputs := [], cur := (0, .a)
    stages := [], outputs := [] }

end Sys2Proof.Machine
end

