-- ==== Sys2Proof/Machine/Operands.lean ====
section
/-! DEFINITION. Machine/Operands.lean: operand forms: which vector fields name latches, the two operand kinds of a
vector instruction, and the elements of a packed lane. -/
namespace Sys2Proof.Machine

/-- Source codes 60–63 read the latches b0–b3 (R28, R89). -/
def isLatch (v : VReg) : Bool := decide (60 ≤ v.toNat)
def lt2 (a b : VReg) : Bool := isLatch a || isLatch b

/-- Whether an instruction is a vector ALU instruction that reads a latch (R28): such an instruction goes on with the
chain of its slot. -/
def readsLatch : Instr → Bool
  | .vadd _ a b _ => lt2 a b
  | .vaddLit _ a _ _ => isLatch a
  | .vsub _ a b _ => lt2 a b
  | .vsubLit _ a _ _ => isLatch a
  | .vmul _ a b _ => lt2 a b
  | .vmulLit _ a _ _ => isLatch a
  | .vmulh _ a b _ => lt2 a b
  | .vmulhLit _ a _ _ => isLatch a
  | .vand _ a b _ => lt2 a b
  | .vandLit _ a _ _ => isLatch a
  | .vor _ a b _ => lt2 a b
  | .vorLit _ a _ _ => isLatch a
  | .vxor _ a b _ => lt2 a b
  | .vxorLit _ a _ _ => isLatch a
  | .vandn _ a b _ => lt2 a b
  | .vandnLit _ a _ _ => isLatch a
  | .vshl _ a b _ => lt2 a b
  | .vshlLit _ a _ _ => isLatch a
  | .vshr _ a b _ => lt2 a b
  | .vshrLit _ a _ _ => isLatch a
  | .vsha _ a b _ => lt2 a b
  | .vshaLit _ a _ _ => isLatch a
  | .vrol _ a b _ => lt2 a b
  | .vrolLit _ a _ _ => isLatch a
  | .vmin _ a b _ => lt2 a b
  | .vminLit _ a _ _ => isLatch a
  | .vminn _ a b _ => lt2 a b
  | .vminnLit _ a _ _ => isLatch a
  | .vmax _ a b _ => lt2 a b
  | .vmaxLit _ a _ _ => isLatch a
  | .vmaxn _ a b _ => lt2 a b
  | .vmaxnLit _ a _ _ => isLatch a
  | .vsel _ a b _ => lt2 a b
  | .vselLit _ a _ _ => isLatch a
  | .vmov _ b _ => isLatch b
  | .vmad _ a b c _ => lt2 a b || isLatch c
  | .vmadLit _ a c _ _ => lt2 a c
  | .vclz _ a _ => isLatch a
  | .vpopc _ a _ => isLatch a
  | .vabs _ a _ => isLatch a
  | .vneg _ a _ => isLatch a
  | .vfadd _ a b _ _ => lt2 a b
  | .vfaddLit _ a _ _ _ => isLatch a
  | .vfsub _ a b _ _ => lt2 a b
  | .vfsubLit _ a _ _ _ => isLatch a
  | .vfmul _ a b _ _ => lt2 a b
  | .vfmulLit _ a _ _ _ => isLatch a
  | .vfma _ a b c _ _ => lt2 a b || isLatch c
  | .vfmaLit _ a c _ _ _ => lt2 a c
  | .vfmin _ a b _ _ => lt2 a b
  | .vfminLit _ a _ _ _ => isLatch a
  | .vfmax _ a b _ _ => lt2 a b
  | .vfmaxLit _ a _ _ _ => isLatch a
  | .vfabs _ a _ _ => isLatch a
  | .vfneg _ a _ _ => isLatch a
  | .vfrnd _ a _ _ _ => isLatch a
  | .vrcp _ a _ _ _ => isLatch a
  | .vrsq _ a _ _ _ => isLatch a
  | .vsqrt _ a _ _ _ => isLatch a
  | .vexp2 _ a _ _ _ => isLatch a
  | .vlog2 _ a _ _ _ => isLatch a
  | .vsin _ a _ _ _ => isLatch a
  | .vcos _ a _ _ _ => isLatch a
  | .vtanh _ a _ _ _ => isLatch a
  | .vsigm _ a _ _ _ => isLatch a
  | .verf _ a _ _ _ => isLatch a
  | .vcvt _ _ _ a _ _ _ _ => isLatch a
  | _ => false

/-- A vector operand: a register or latch, or a literal, the same value in every lane (R88, R122). -/
inductive VSrc where
  | reg (v : VReg)
  | lit (l : W32)
deriving DecidableEq, Repr

/-- The vector registers an operand list reads, as a set: bit n is vn (R29). -/
def srcRegs (l : List VSrc) : BitVec 64 :=
  l.foldl (fun m x => match x with
    | .reg v => if isLatch v then m else m ||| (1#64 <<< v.toNat)
    | .lit _ => m) 0

/-- The highest latch an operand list reads plus one, 0 if it reads none (R295). -/
def latchNeed (l : List VSrc) : Nat :=
  l.foldl (fun n x => match x with
    | .reg v => if isLatch v then Nat.max n (v.toNat - 59) else n
    | .lit _ => n) 0

/-- The elements of a lane, element 0 in the low half (R88, R131). -/
def elems (p : Packing) (x : W32) : List (BitVec 16) :=
  match p with
  | .f32 => []
  | _ => [x.extractLsb' 0 16, x.extractLsb' 16 16]

/-- Two 16-bit elements as a lane. -/
def pack16 (lo hi : BitVec 16) : W32 := hi ++ lo

end Sys2Proof.Machine
end

