-- ==== Sys2Proof/Machine/Ops.lean ====
section
/-! DEFINITION. Machine/Ops.lean: the shared operations: names of units, registers, the window's registers, memory,
translation, the resolution of an address, instruction fetch, taking a trap and returning from one, the retirement of a
wave. -/
namespace Sys2Proof.Machine

/-! ### Units -/

/-- The bank of a hardware wave, its number in the bank, its core, its cluster, its die (R20). -/
def bankOf (w : Nat) : Nat := w / 8
def waveNo (w : Nat) : Nat := w % 8
def coreOf (w : Nat) : Nat := w / 16
def coreOfBank (b : Nat) : Nat := b / 2
def clusterOf (core : Nat) : Nat := core / 8
def dieOf (core : Nat) : Nat := core / 64

def State.wave (s : State) (w : Nat) : Wave := SMap.get (fun _ => Wave.idle) s.waves w
def State.setWave (s : State) (w : Nat) (x : Wave) : State :=
  { s with waves := SMap.set (fun _ => Wave.idle) s.waves w x }
def State.bank (s : State) (b : Nat) : Bank := SMap.get (fun _ => Bank.zero) s.banks b
def State.setBank (s : State) (b : Nat) (x : Bank) : State :=
  { s with banks := SMap.set (fun _ => Bank.zero) s.banks b x }
def State.core (s : State) (c : Nat) : Core := SMap.get (fun _ => Core.zero) s.cores c
def State.setCore (s : State) (c : Nat) (x : Core) : State :=
  { s with cores := SMap.set (fun _ => Core.zero) s.cores c x }
def State.part (s : State) (p : Nat) : Part := SMap.get (fun _ => Part.zero) s.parts p
def State.setPart (s : State) (p : Nat) (x : Part) : State :=
  { s with parts := SMap.set (fun _ => Part.zero) s.parts p x }
def State.fbuf (s : State) (vf : Nat) : FaultBuffer := SMap.get (fun _ => FaultBuffer.zero) s.fbufs vf
def State.setFbuf (s : State) (vf : Nat) (x : FaultBuffer) : State :=
  { s with fbufs := SMap.set (fun _ => FaultBuffer.zero) s.fbufs vf x }

/-- The other slot of a wave. -/
def otherSlot : SlotId → SlotId
  | .a => .b
  | .b => .a
def Wave.slot (W : Wave) : SlotId → Slot
  | .a => W.slotA
  | .b => W.slotB
def Wave.setSlot (W : Wave) (x : SlotId) (t : Slot) : Wave :=
  match x with
  | .a => { W with slotA := t }
  | .b => { W with slotB := t }

/-- The issuing wave, its slot, and updates of them. -/
def State.cw (s : State) : Wave := s.wave s.cur.1
def State.cs (s : State) : Slot := s.cw.slot s.cur.2
def State.setCw (s : State) (W : Wave) : State := s.setWave s.cur.1 W
def State.setCs (s : State) (t : Slot) : State := s.setCw (s.cw.setSlot s.cur.2 t)
def State.setSlotOf (s : State) (w : Nat) (x : SlotId) (t : Slot) : State := s.setWave w ((s.wave w).setSlot x t)

/-- The team of a wave, if its bank holds one. -/
def State.teamOf (s : State) (w : Nat) : Option Team := (s.bank (bankOf w)).team
/-- The launch of a wave; 0 while no team is resident. -/
def State.launchKey (s : State) (w : Nat) : Nat := match s.teamOf w with | some t => t.launch | none => 0
def State.launchOf (s : State) (key : Nat) : Option Launch := s.launches.find? fun l => l.key == key
def State.setLaunch (s : State) (l : Launch) : State :=
  { s with launches := s.launches.map fun m => if m.key = l.key then l else m }

/-! ### The window's registers (R258) -/

/-- An 8-byte register of the window by its offset. -/
def State.reg (s : State) (off : Nat) : Word := SMap.get winReset s.win (off / 8)
def State.setReg (s : State) (off : Nat) (v : Word) : State := { s with win := SMap.set winReset s.win (off / 8) v }
/-- Bits `lo` to `lo + n − 1` of the register at `off`. -/
def State.regBits (s : State) (off lo n : Nat) : Nat := bitsOf (s.reg off).toNat lo n
/-- Replace bits `lo` to `lo + n − 1` of a word. -/
def putBits (w : Word) (lo n v : Nat) : Word :=
  BitVec.ofNat 64 (w.toNat - bitsOf w.toNat lo n * 2 ^ lo + v % 2 ^ n * 2 ^ lo)
def State.setRegBits (s : State) (off lo n v : Nat) : State := s.setReg off (putBits (s.reg off) lo n v)

/-- Entry offsets of the tables (R258). -/
def partOff (p : Nat) : Nat := 0x40 * p
def vfOff (v : Nat) : Nat := 0x1000 + 0x20 * v
def ctlOff (p : Nat) : Nat := 0x4000 + 8 * p
def imageOff (p i : Nat) : Nat := 0x6000 + 0x80 * p + 8 * i
def loadReqOff : Nat := 0x7800
def ringOff (p : Nat) : Nat := 0x8000 + 0x40 * p
def hworldOff (h : Nat) : Nat := 0xA000 + 8 * h
def launchTblOff (i : Nat) : Nat := 0x10000 + 0x20 * i
def flowOff (p f : Nat) : Nat := 0x100000 + 0x20000 * p + 0x20 * f
def dieOff (d : Nat) : Nat := 0x1000000 + 0x1000 * d
def clusterOff (c : Nat) : Nat := 0x1100000 + 0x100 * c
def ctxOff (w : Nat) : Nat := 0x10000000 + 0x10000 * w
def vfPage (v : Nat) : Nat := 0x40000000 + 0x1000 * v
def queueOff (v q : Nat) : Nat := vfPage v + 0x40 * q
def bounceOff (v j : Nat) : Nat := vfPage v + 0x200 + 0x20 * j
def snapOff (v : Nat) : Nat := vfPage v + 0x300

def State.partEn (s : State) (p : Nat) : Bool := s.regBits (partOff p) 12 1 == 1
def State.partBase (s : State) (p : Nat) : Nat := s.regBits (partOff p) 0 6
def State.partLim (s : State) (p : Nat) : Nat := s.regBits (partOff p) 6 6
def State.partWorld (s : State) (p : Nat) : Nat := s.regBits (partOff p + 16) 0 8
/-- Whether a package core lies in the range of an enabled partition (R259). -/
def State.coreIn (s : State) (core p : Nat) : Bool :=
  s.partEn p && decide (s.partBase p ≤ clusterOf core) && decide (clusterOf core ≤ s.partLim p)
/-- The enabled partition that holds a core. -/
def State.partOfCore (s : State) (core : Nat) : Option Nat := (List.range 48).find? fun p => s.coreIn core p
def State.vfEn (s : State) (v : Nat) : Bool := s.regBits (vfOff v) 0 1 == 1
def State.vfReplay (s : State) (v : Nat) : Bool := s.regBits (vfOff v) 1 1 == 1
def State.vfPart (s : State) (v : Nat) : Nat := s.regBits (vfOff v) 6 6
def State.vfSvc (s : State) (v : Nat) : Bool := s.regBits (vfOff v) 12 1 == 1
def State.vfRoot (s : State) (v : Nat) : Nat := (s.reg (vfOff v + 8)).toNat
/-- The partition of a wave: its VF's, or its core's while no team is resident. -/
def State.partOf (s : State) (w : Nat) : Nat :=
  match s.teamOf w with
  | some t => s.vfPart t.vf
  | none => (s.partOfCore (coreOf w)).getD 0
/-- The VF a wave runs for; 0 while no team is resident. -/
def State.vfOf (s : State) (w : Nat) : Nat :=
  match s.teamOf w with
  | some t => t.vf
  | none => 0
/-- WID of a die (R266). -/
def State.wid (s : State) (d : Nat) : Nat := s.regBits (dieOff d) 0 8

/-- Log a refusal at a die (R290). -/
def State.logSys (s : State) (d : Nat) (addr : Word) : State :=
  (s.setReg (dieOff d + 16) addr).setReg (dieOff d + 24) (s.reg (dieOff d + 24) + 1)
/-- Whether a selector counts an event (R269): `sys` is the level of the instruction that caused it, none for an event that
no instruction causes. -/
def selCounts (sel ev : Nat) (sys : Option Bool) : Bool :=
  let mode := bitsOf sel 8 2
  bitsOf sel 0 8 == ev && mode != 0 && (match sys with | none => true | some b => mode == 3 || mode == (if b then 2 else 1))
/-- An event of a die in its selected counters (R269). -/
def State.countDie (s : State) (d ev : Nat) (sys : Option Bool) : State :=
  (List.range 16).foldl (fun (t : State) j =>
    if selCounts (t.reg (dieOff d + 0x100 + 8 * j)).toNat ev sys then
      t.setReg (dieOff d + 0x180 + 8 * j) (t.reg (dieOff d + 0x180 + 8 * j) + 1)
    else t) s
/-- A request of another world refused at a die's port: WERR, and event 0x84 (R266, R269, R290). -/
def State.refuseWorld (s : State) (d pa : Nat) (sys : Option Bool) : State :=
  (s.setReg (dieOff d + 8) (BitVec.ofNat 64 pa)).countDie d 0x84 sys
/-- The die that logs for an I/O die (R290). -/
def ioDie (io : Nat) : Nat := if io = 0 then 0 else 4
def State.out (s : State) (o : Output) : State := { s with outputs := s.outputs ++ [o] }
/-- A refused write to the window: error response, and SYSERR at a die: IO0's, but for a die's own WORLD register
(R290). -/
def State.refuseWinAt (s : State) (die off : Nat) : State :=
  (s.logSys die (BitVec.ofNat 64 (0xFFF0000000000000 + off))).out (.windowError off)
def State.refuseWin (s : State) (off : Nat) : State := s.refuseWinAt (ioDie 0) off

/-! ### Registers -/

/-- S[r]: s0 reads zero (R101). -/
def Wave.s (W : Wave) (r : SReg) : Word := if r = 0 then 0 else SMap.get zeros W.sregs r.toNat
/-- Writes to s0 are discarded (R101). -/
def Wave.setS (W : Wave) (r : SReg) (v : Word) : Wave :=
  if r = 0 then W else { W with sregs := SMap.set zeros W.sregs r.toNat v }
/-- K[k]; field 0 means no extra mask (R89). -/
def Wave.k (W : Wave) (k : KReg) : Mask := if k = 0 then BitVec.allOnes 128 else SMap.get zeros W.kregs k.toNat
def Wave.setK (W : Wave) (k : KReg) (v : Mask) : Wave :=
  if k = 0 then W else { W with kregs := SMap.set zeros W.kregs k.toNat v }
/-- V[r][i]. -/
def Wave.v (W : Wave) (r : Nat) (i : Nat) : W32 := SMap.get zeros W.vregs (128 * r + i)
def Wave.setV (W : Wave) (r : Nat) (i : Nat) (v : W32) : Wave :=
  { W with vregs := SMap.set zeros W.vregs (128 * r + i) v }
/-- V[r][i] := f i for every lane of a mask. -/
def Wave.setVs (W : Wave) (r : Nat) (mask : Mask) (f : Nat → W32) : Wave :=
  { W with vregs := SMap.setLanes W.vregs (128 * r) mask f }
/-- b_j of a slot, lane i (R28). -/
def Slot.latch (t : Slot) (j i : Nat) : W32 := SMap.get zeros t.latches (128 * j + i)
/-- Depth of lane i's operand stack and its entry e, 0 at the bottom (R145). -/
def Wave.depth (W : Wave) (i : Nat) : Nat := SMap.get (fun _ => 0) W.depths i
def Wave.entry (W : Wave) (i e : Nat) : W32 := SMap.get zeros W.ostacks (8 * i + e)
def Wave.setDepth (W : Wave) (i n : Nat) : Wave := { W with depths := SMap.set (fun _ => 0) W.depths i n }
def Wave.setEntry (W : Wave) (i e : Nat) (v : W32) : Wave := { W with ostacks := SMap.set zeros W.ostacks (8 * i + e) v }

/-- Registers of the issuing wave. -/
def State.S (s : State) (r : SReg) : Word := s.cw.s r
def State.setS (s : State) (r : SReg) (v : Word) : State := s.setCw (s.cw.setS r v)
def State.K (s : State) (k : KReg) : Mask := s.cw.k k
def State.setK (s : State) (k : KReg) (v : Mask) : State := s.setCw (s.cw.setK k v)
/-- The active lanes of the issuing slot under a mask field (R22). -/
def State.active (s : State) (k : KReg) : Mask := s.cs.mask &&& s.K k

/-- A literal as a 64-bit operand (R88, R102). -/
def lit64 (l : W32) : Word := l.signExtend 64
/-- The target of a branch by a word offset or a literal byte offset (R110). -/
def State.target (s : State) {n : Nat} (off : BitVec n) : Word := s.cs.pc + 4 * off.signExtend 64
def State.targetLit (s : State) (l : W32) : Word := s.cs.pc + l.signExtend 64

/-- The slot goes on `bytes` further; an instruction that is no vector ALU instruction ends the chain (R29). -/
def Slot.advance (t : Slot) (bytes : Nat) : Slot := { t with pc := t.pc + BitVec.ofNat 64 bytes, chain := none, xvres := none }
def State.advance (s : State) (bytes : Nat) : State := s.setCs (s.cs.advance bytes)
/-- The slot goes on at an address. -/
def State.jump (s : State) (pc : Word) : State := s.setCs { s.cs with pc := pc, chain := none, xvres := none }

/-! ### Physical memory -/

/-- A byte of physical memory; one that nothing has written reads 0 (log 2). -/
def State.byte (s : State) (a : Nat) : Byte := SMap.get zeros s.pmem a
/-- `n` bytes from `a`, little-endian (R3). -/
def State.readPhys (s : State) (a n : Nat) : Nat := leValue ((List.range n).map fun i => s.byte (a + i))
def State.bytesAt (s : State) (a n : Nat) : List Byte := (List.range n).map fun i => s.byte (a + i)
/-- Whether one of `n` bytes is poisoned (R320). -/
def State.poisoned (s : State) (a n : Nat) : Bool := (List.range n).any fun i => SMap.get (fun _ => false) s.poison (a + i)
/-- The line of a byte of physical memory, of a bank's share, of the window, as a waiter names it. -/
def physLine (a : Nat) : Nat × Nat := (0, a / 128)
def shareLine (bank off : Nat) : Nat × Nat := (1 + bank, off / 128)
def winLine (off : Nat) : Nat × Nat := (2000, off / 128)
/-- Writes to lines `lo` to `hi` of a space wake those that watch them (R172). -/
def wakeLines (ws : List Waiter) (space lo hi : Nat) : List Waiter :=
  ws.map fun e => if e.line.1 = space ∧ lo ≤ e.line.2 ∧ e.line.2 ≤ hi then { e with woken := true } else e

/-- Write bytes: a store over poisoned bytes clears the mark (R300), and what lay behind ciphertext in their lines is lost
(R267). -/
def State.pokeBytes (s : State) (a : Nat) (bs : List Byte) : State :=
  { s with
    plain := SMap.clear s.plain (a / 128) ((a + bs.length + 127) / 128 - a / 128)
    waiters := wakeLines s.waiters 0 (a / 128) ((a + bs.length - 1) / 128)
    pmem := (bs.zipIdx).foldl (fun m e => SMap.set zeros m (a + e.2) e.1) s.pmem
    poison := (bs.zipIdx).foldl (fun m e => SMap.set (fun _ => false) m (a + e.2) false) s.poison }
def State.poke (s : State) (a n : Nat) (v : Nat) : State := s.pokeBytes a (leBytes n v)
/-- Clear the marks of `n` bytes from a key. -/
def State.clearMarks (s : State) (key n : Nat) : State := { s with poison := SMap.clear s.poison key n }
/-- The marked bytes among `n` from a key, counted from it. -/
def State.marksIn (s : State) (key n : Nat) : List Nat :=
  (s.poison.filter fun e => e.2 && decide (key ≤ e.1) && decide (e.1 < key + n)).map fun e => e.1 - key
/-- Mark bytes poisoned. -/
def State.markPoison (s : State) (a n : Nat) : State :=
  { s with poison := (List.range n).foldl (fun m i => SMap.set (fun _ => false) m (a + i) true) s.poison }

/-- The page of 4 KiB that holds a byte, and the line of 128 bytes. -/
def pageOf (a : Nat) : Nat := a / 4096 * 4096
def lineOf (a : Nat) : Nat := a / 128 * 128

/-- Keep a page's prior contents before a launch's first write to it (R322). One whose first write found the pool full has
none. -/
def State.snapshot (s : State) (key : Nat) (a : Nat) : State :=
  match s.launchOf key with
  | none => s
  | some l =>
    let flags := bitsOf ((l.packet.headD 0).toNat) 8 3
    if flags / 4 % 2 = 0 then s
    else if l.unsnapped.contains (pageOf a) || l.snaps.any fun e => e.page == pageOf a then s
    else
      let used := s.regBits (snapOff l.vf + 8) 32 32
      let cap := s.regBits (snapOff l.vf + 8) 0 32
      if used < cap then
        (s.setRegBits (snapOff l.vf + 8) 32 32 (used + 1)).setLaunch
          { l with snaps := {
              page := pageOf a, bytes := SMap.slice s.pmem (pageOf a) 4096, marks := s.marksIn (pageOf a) 4096
              plain := SMap.slice s.plain (pageOf a / 128) 32 } :: l.snaps }
      else (s.setRegBits (snapOff l.vf + 16) 0 1 1).setLaunch
        { l with snapLost := true, unsnapped := pageOf a :: l.unsnapped }

/-! ### Lines behind ciphertext (R266, R267) -/

/-- The number of the key of a VF's world; 0 where it has none. -/
def State.keyOf (s : State) (vf : Nat) : Nat :=
  match s.worldKeys.find? fun e => e.1 == s.partWorld (s.vfPart vf) with
  | some e => e.2
  | none => 0

/-- Whether a line is sealed under a key. -/
def State.sealed (s : State) (key line : Nat) : Bool :=
  match SMap.find? s.plain line with
  | some e => e.1 == key
  | none => false

/-- A line's 128 bytes: as memory holds them, or for a key's holder what lies behind them. -/
def State.lineView (s : State) (key : Option Nat) (a : Nat) : List Byte :=
  match key, SMap.find? s.plain (a / 128) with
  | some k, some e => if e.1 = k then e.2 else s.bytesAt (lineOf a) 128
  | _, _ => s.bytesAt (lineOf a) 128

/-- A byte list with some bytes replaced from position `i`. -/
def overlay (old : List Byte) (i : Nat) (new : List Byte) : List Byte :=
  old.take i ++ new ++ old.drop (i + new.length)

/-- Encrypted writing of bytes of one line (R267): the other bytes keep what lay behind them, or read as integrity
failures where the line was not sealed under the key (log 27). -/
def State.seal (s : State) (key a : Nat) (bs : List Byte) : State :=
  let line := a / 128
  let fresh := !s.sealed key line
  let new := overlay (if fresh then List.replicate 128 0 else s.lineView (some key) a) (a % 128) bs
  let bad := (List.range 128).filter fun i =>
    !(decide (a % 128 ≤ i) && decide (i < a % 128 + bs.length)) && (fresh || s.poisoned (128 * line + i) 1)
  let s1 := s.pokeBytes (128 * line) ((List.range 128).map (Config.cipher key line new))
  let s2 := bad.foldl (fun (t : State) i => t.markPoison (128 * line + i) 1) s1
  { s2 with plain := SMap.insert s2.plain line (key, new) }

/-- Write bytes of one line, for a key's holder or as they are. -/
def State.putBytes (s : State) (key : Option Nat) (a : Nat) (bs : List Byte) : State :=
  match key with
  | some k => s.seal k a bs
  | none => s.pokeBytes a bs

/-! ### Audited writes (R318), writes between dies (R225) -/

/-- The audit that a team's writes go to (R318): its first run's, or its re-run's. -/
def Audit.of (key team : Nat) (a : Audit) : Bool := a.launch == key && a.team == team && !a.finished

/-- A line's contents as a re-run sees and leaves them (R318). -/
def auditLine (a : Audit) (s : State) (key : Option Nat) (line : Nat) : List Byte :=
  match a.again.find? fun e => e.1 == line with
  | some e => e.2
  | none =>
    match a.before.find? fun e => e.1 == line with
    | some e => e.2
    | none => s.lineView key line

/-- Put a line's contents into a list of lines. -/
def putLine (ls : List (Nat × List Byte)) (line : Nat) (bs : List Byte) : List (Nat × List Byte) :=
  (line, bs) :: ls.filter fun e => !(e.1 == line)

/-- The open audit of a team, if it is sampled or a re-run. -/
def State.auditOf (s : State) (t : Option Team) : Option (Team × Audit) :=
  match t with
  | none => none
  | some t =>
    if t.sampled || t.rerun then
      match s.audits.find? (Audit.of t.launch t.teamId) with
      | some a => some (t, a)
      | none => none
    else none

def State.setAudit (s : State) (a : Audit) : State :=
  { s with audits := s.audits.map fun b => if b.launch = a.launch ∧ b.team = a.team then a else b }

/-- The bytes that one team of a set has written at a line for itself alone wake its own watchers (R172). -/
def State.wakeOwn (s : State) (t : Team) (a : Nat) : State :=
  { s with waiters := s.waiters.map fun e =>
      if e.line = physLine a ∧ s.teamOf e.wave = some t then { e with woken := true } else e }

/-- What a team reads at a physical address: memory, or under an audit re-run the logged lines and its own writes
(R318). A key's holder reads what lies behind ciphertext. -/
def State.readTeam (s : State) (t : Option Team) (key : Option Nat) (a n : Nat) : Nat :=
  let view (ls : List Byte) : Nat := leValue ((ls.drop (a - lineOf a)).take n)
  match s.auditOf t with
  | some (t, au) =>
    if t.rerun then view (auditLine au s key (lineOf a))
    else if key.isSome then view (s.lineView key (lineOf a)) else s.readPhys a n
  | none => if key.isSome then view (s.lineView key (lineOf a)) else s.readPhys a n
/-- What a wave reads there. -/
def State.readFor (s : State) (w : Nat) (a n : Nat) : Nat := s.readTeam (s.teamOf w) none a n

/-- The bank of a team. -/
def Team.bank (t : Team) : Nat := t.setBanks.getD (if t.rerun then 0 else t.setIx) 0

/-- A count of a die's clock. -/
def clockAt (c : List Nat) (k : Nat) : Nat := c.getD k 0

/-- A clock that counts all that two clocks count. -/
def joinClocks (a b : List Nat) : List Nat := (List.range 8).map fun k => Nat.max (clockAt a k) (clockAt b k)
/-- What a write counts: all that its clock counts, and itself. -/
def Crossing.counts (e : Crossing) : List Nat := e.clock.set e.src (clockAt e.clock e.src + 1)

/-- A die that sees writes of other dies has applied them, and before them every write that their clocks count (R225): those
of the lines that `p` holds for. -/
def State.observeIf (s : State) (d : Nat) (p : Crossing → Bool) : State :=
  let seen := s.crossing.filter fun e => e.todo.contains d && p e
  let c := seen.foldl (fun c e => joinClocks c e.counts) (s.clocks.getD d [])
  let go (e : Crossing) : Crossing :=
    if clockAt e.clock e.src < clockAt c e.src then { e with todo := e.todo.filter fun k => k != d } else e
  { s with
    clocks := if seen.isEmpty then s.clocks else s.clocks.set d c
    crossing := if seen.isEmpty then s.crossing else (s.crossing.map go).filter fun e => e.todo != [] }
/-- An access of a die to a line sees what has been written there (R220). -/
def State.observe (s : State) (d a : Nat) : State := s.observeIf d fun e => e.line == lineOf a

/-- A write of a die that leaves it carries the die's clock, counts in it, and is to be applied at the others (R225): event
0x83 (R269). -/
def State.crossFrom (s0 : State) (src a : Nat) (sys : Option Bool) : State :=
  let s := s0.observe src a
  let stays : Bool := Config.homeDie a % 8 == src
  let c := s.clocks.getD src []
  { s with
    clocks := if stays then s.clocks else s.clocks.set src (c.set src (clockAt c src + 1))
    crossing := if stays then s.crossing else s.crossing ++ [
      { src := src, clock := c, line := lineOf a, todo := (List.range 8).filter fun d => d != src }]
    win := if stays then s.win else (s.countDie src 0x83 sys).win }
/-- A team's write, from its bank's die. -/
def State.cross (s : State) (t : Team) (a : Nat) : State :=
  s.crossFrom (dieOf (coreOfBank t.bank)) a (some (s.vfSvc t.vf))

/-- A write by a team to tenant memory, of bytes within one line: the snapshot first (R322), then the audit's records
(R318), then memory. `norep` says the page has NOREPLAY. -/
def State.writeTeam (s : State) (t : Option Team) (key : Option Nat) (a : Nat) (bs : List Byte) (norep : Bool) : State :=
  match s.auditOf t with
  | some (t, au) =>
    if t.rerun then
      (s.setAudit { au with
        again := putLine au.again (lineOf a) (overlay (auditLine au s key (lineOf a)) (a - lineOf a) bs) }).wakeOwn t a
    else
      let s1 := if norep then s else s.snapshot t.launch a
      let before := if au.before.any fun e => e.1 == lineOf a then au.before
        else (lineOf a, s.lineView key (lineOf a)) :: au.before
      let s2 := (s1.cross t a).putBytes key a bs
      s2.setAudit { au with before := before, wrote := putLine au.wrote (lineOf a) (s2.lineView key (lineOf a)) }
  | none =>
    match t with
    | some t => ((if norep then s else s.snapshot t.launch a).cross t a).putBytes key a bs
    | none => s.putBytes key a bs
/-- A write by a wave. -/
def State.writeFor (s : State) (w : Nat) (a : Nat) (bs : List Byte) (norep : Bool) : State :=
  s.writeTeam (s.teamOf w) none a bs norep

/-! ### Translation and the resolution of an address (R45–R48, R296) -/

/-- What a walk finds (R45, R47). -/
inductive Walk where
  | leaf (l : Leaf)
  /-- V = 0: the granule's base, its size in bits, and its code GSZ. -/
  | absent (base bits gsz : Nat)
  | malformed
deriving DecidableEq, Repr

/-- The levels of the walk: level, lowest index bit, index bits (R45). -/
def walkLevels : List (Nat × Nat × Nat) := [(5, 48, 8), (4, 39, 9), (3, 30, 9), (2, 21, 9), (1, 12, 9)]

/-- Bit `n` of a table entry. -/
def pteBit (e n : Nat) : Bool := e / 2 ^ n % 2 == 1
/-- FRAME of an entry, as an address. -/
def pteFrame (e : Nat) : Nat := bitsOf e 12 44 * 4096
/-- Reserved bits of an entry (R45). -/
def pteReserved (e : Nat) : Bool := bitsOf e 8 4 != 0 || bitsOf e 56 8 != 0
/-- A leaf entry as a page of `bits` address bits: the base is FRAME with the lower bits cleared. -/
def pteLeaf (e bits : Nat) : Leaf :=
  { base := pteFrame e / 2 ^ bits * 2 ^ bits, bits := bits, w := pteBit e 2, x := pteBit e 3, sysatom := pteBit e 4
    conf := pteBit e 5, noreplay := pteBit e 6 }

/-- The granule of an entry with V = 0 (R47). -/
def granuleOf (level shift va e : Nat) : Walk :=
  let bits := if level = 1 then (if pteBit e 7 then 16 else 12) else shift
  let gsz := match level with | 1 => (if pteBit e 7 then 1 else 0) | 2 => 2 | 3 => 3 | 4 => 4 | _ => 5
  .absent (va / 2 ^ bits * 2 ^ bits) bits gsz

/-- A level-1 leaf with C = 1: any of the 16 entries may serve, if it is itself a leaf of a 64 KiB page (R45). -/
def wideLeaf (s : State) (table va e : Nat) : Leaf :=
  let j := bitsOf va 16 5 * 16 + Config.alikeEntry (s.tick + va / 4096) % 16
  let e' := s.readPhys (table + 8 * j) 8
  if pteBit e' 0 && pteBit e' 1 && pteBit e' 7 && !pteReserved e' then pteLeaf e' 16 else pteLeaf e 16

/-- Walk the tables from one at physical address `table`. -/
def walkFrom (s : State) (va : Nat) : List (Nat × Nat × Nat) → Nat → Walk
  | [], _ => .malformed
  | (level, shift, bits) :: rest, table =>
    let e := s.readPhys (table + 8 * bitsOf va shift bits) 8
    if !pteBit e 0 then granuleOf level shift va e
    else if pteReserved e then .malformed
    else if pteBit e 1 then
      if level ≥ 4 then .malformed
      else if level = 1 then (if pteBit e 7 then .leaf (wideLeaf s table va e) else .leaf (pteLeaf e 12))
      else if pteBit e 7 then .malformed
      else .leaf (pteLeaf e shift)
    else if level = 1 then .malformed
    else if bitsOf e 2 6 ≠ 0 then .malformed
    else walkFrom s va rest (pteFrame e)

/-- The walk of a VF's table for a tenant virtual address. -/
def walk (s : State) (vf va : Nat) : Walk := walkFrom s va walkLevels (s.vfRoot vf)

/-- The key of held translations: cluster and VF. -/
def tlbKey (cluster vf : Nat) : Nat := cluster * 192 + vf

/-- The translations that a cluster holds for an address: of whatever size, each serves the whole of its page (R46,
R303). -/
def State.heldFor (s : State) (cluster vf va : Nat) : List Leaf :=
  ((SMap.get (fun _ => []) s.tlb (tlbKey cluster vf)).filter fun e => e.1 == va / 2 ^ e.2.bits).map (·.2)

/-- Translate: one of the translations held for the address, or a fresh walk, where these differ (R46; log 7). -/
def translate (s : State) (cluster vf va : Nat) : Walk :=
  let fresh := walk s vf va
  let held := (s.heldFor cluster vf va).filter fun l => Walk.leaf l != fresh
  if held.isEmpty then fresh
  else ((held.map Walk.leaf)[Config.tlbChoice (s.tick + va / 4096) % (held.length + 1)]?).getD fresh

/-- Hold a translation (R46). -/
def State.hold (s : State) (cluster vf va : Nat) (l : Leaf) : State :=
  let key := tlbKey cluster vf
  let held := SMap.get (fun _ => []) s.tlb key
  let e := (va / 2 ^ l.bits, l)
  if held.contains e then s else { s with tlb := SMap.set (fun _ => []) s.tlb key (e :: held) }

/-- The physical address of a byte of a page. -/
def Leaf.pa (l : Leaf) (va : Nat) : Nat := l.base + va % 2 ^ l.bits

/-- Whether one of `n` bytes, at least one, lies on a physical page that the root of trust guards (R261). -/
def State.guardedIn (s : State) (pa n : Nat) : Bool :=
  s.imagePages.any fun e =>
    decide (e.2.2.1 / 4096 ≤ (pa + n - 1) / 4096) && decide (pa / 4096 ≤ (e.2.2.1 + e.2.2.2 - 1) / 4096)
/-- A physical page guarded by the root of trust (R261). -/
def State.guarded (s : State) (pa : Nat) : Bool := s.guardedIn pa 1

/-- Whether the home die of an address refuses a request of a world that comes from another die (R266; log 19). -/
def State.portRefuses (s : State) (die world pa : Nat) : Bool :=
  (List.range 8).any (fun d => s.wid d != world) &&
    (Config.homeDie pa % 8 != die && s.wid (Config.homeDie pa % 8) != world)

/-- What an access does at an element. -/
inductive Acc where
  | load | store | vstore | atomic
  /-- A push or a pop of the divergence stack (R301). -/
  | push | pop
deriving DecidableEq, Repr

def Acc.writes : Acc → Bool
  | .load | .pop => false
  | _ => true
def Acc.isStack : Acc → Bool
  | .push | .pop => true
  | _ => false

/-- The fate of one element before its data is read. -/
inductive Res where
  | ok (loc : Loc) (leaf : Option Leaf)
  | fault (c : Cause)
  /-- A granule that is not resident, in a replayable VF. -/
  | park (base gsz : Nat)
deriving DecidableEq, Repr

/-- The buffers of a core are split while its banks have different owners (R42). -/
def State.splitView (s : State) (core : Nat) : Bool :=
  match (s.bank (2 * core)).owner, (s.bank (2 * core + 1)).owner with
  | some a, some b => a != b
  | _, _ => false
/-- Bytes of each typed buffer that a bank sees, and where its part starts in the core's buffer (R42). -/
def State.bufSize (s : State) (b : Nat) : Nat := if s.splitView (coreOfBank b) then 0x20000 else 0x40000
def State.bufBase (s : State) (b : Nat) : Nat := if s.splitView (coreOfBank b) && b % 2 == 1 then 0x20000 else 0

/-- Where the cluster part of a team's footprint starts (R39). -/
def Team.clBase (t : Team) : Nat := t.spSize + 1024 * t.waves
/-- CLSIZE of the set. -/
def Team.clSize (t : Team) : Nat := t.clPart * t.setBanks.length
/-- The byte behind a cluster-window offset (R40). -/
def Team.clLoc (t : Team) (o : Nat) : Loc :=
  let j := o / 128 % t.setBanks.length
  .share (t.setBanks.getD j 0) (t.clBase + o / 128 / t.setBanks.length * 128 + o % 128)
/-- Whether a cluster-window offset may be accessed: it lies within CLSIZE, and its bank is the set's VF's. The spec says
nothing of a stripe whose member has retired, which frees its share (R35); in the model it stays what the bank holds while the
bank has the same owner, so that a later team of the VF there shares it, and behind another owner it is outside (R51; log
53). -/
def State.clOpen (s : State) (t : Team) (o : Nat) : Bool :=
  decide (o < t.clSize) && (match (s.bank (t.setBanks.getD (o / 128 % t.setBanks.length) 0)).owner with
    | some v => v == t.vf
    | none => true)

/-- Translation and permission of a tenant address, the last two checks of R296. -/
def resolveTenant (s : State) (w : Nat) (acc : Acc) (va : Nat) : Res :=
  let vf := s.vfOf w
  match translate s (clusterOf (coreOf w)) vf va with
  | .malformed => .fault .xlate
  | .absent base _ gsz => if s.vfReplay vf then .park base gsz else .fault .xlate
  | .leaf l =>
    if l.conf then .fault .prot
    else if acc.writes && !l.w then .fault .prot
    else if acc.writes && s.guarded (l.pa va) then .fault .prot
    else if s.portRefuses (dieOf (coreOf w)) (s.partWorld (s.partOf w)) (l.pa va) then .fault .prot
    else .ok (.phys (l.pa va)) (some l)

/-- The checks of R296 but POISON, in order, for an element of `n` bytes. -/
def resolve (s : State) (w : Nat) (acc : Acc) (addr : Word) (n : Nat) : Res :=
  let a := addr.toNat
  if a % n ≠ 0 then .fault .malign
  else if a < 2 ^ 56 then resolveTenant s w acc a
  else if a < 0xFE00000000000000 then .fault .xlate
  else if a < 0xFE30000000000000 then
    if acc = .vstore ∧ 0xFE10000000000000 ≤ a ∧ a < 0xFE20000000000000 then
      let o := a - 0xFE10000000000000
      if o < s.bufSize (bankOf w) then .ok (.abuf (coreOf w) (s.bufBase (bankOf w) + o)) none else .fault .bufbound
    else .fault .prot
  else if a < 0xFF00000000000000 then .fault .xlate
  else if a < 0xFF10000000000000 then
    match s.teamOf w with
    | none => .fault .spbound
    | some t =>
      let o := a - 0xFF00000000000000
      if o < t.spSize ∨ (acc.isStack ∧ o < t.clBase) then .ok (.share (bankOf w) o) none else .fault .spbound
  else if a < 0xFF20000000000000 then
    match s.teamOf w with
    | none => .fault .spbound
    | some t =>
      let o := a - 0xFF10000000000000
      if s.clOpen t o then .ok (t.clLoc o) none else .fault .spbound
  else if a < 0xFFF0000000000000 then .fault .xlate
  else if !(s.wave w).system ∨ n ≠ 8 ∨ acc = .atomic then .fault .prot
  else .ok (.win (a - 0xFFF0000000000000)) none

/-- An arrival word's location: its checks in the order of R327. -/
def awResolve (s : State) (w : Nat) (addr : Word) : Res :=
  let a := addr.toNat
  if a % 16 ≠ 0 then .fault .malign
  else if a < 0xFF00000000000000 ∨ 0xFF20000000000000 ≤ a then .fault .prot
  else
    match s.teamOf w with
    | none => .fault .spbound
    | some t =>
      if a < 0xFF10000000000000 then
        let o := a - 0xFF00000000000000
        if o < t.spSize then .ok (.share (bankOf w) o) none else .fault .spbound
      else
        let o := a - 0xFF10000000000000
        if s.clOpen t o then .ok (t.clLoc o) none else .fault .spbound

/-- A generation later than g has been reached (R176, R177). -/
def genPassed (gen g : BitVec 32) : Bool :=
  let d := (gen - g).toNat
  decide (1 ≤ d) && decide (d < 2 ^ 31)

/-! ### Watched lines (R172, R177) -/

/-- The line that a location lies in. -/
def Loc.line : Loc → Nat × Nat
  | .phys a | .conf a => physLine a
  | .share b o => shareLine b o
  | .abuf c o | .wbuf c o | .cbuf c o => (3000 + c, o / 128)
  | .win o => winLine o

/-- No line is watched for a slot. -/
def State.unwatch (s : State) (w : Nat) (x : SlotId) : State :=
  { s with waiters := s.waiters.filter fun e => !(e.wave == w && e.x == x) }
/-- Watch a line for a slot. -/
def State.watch (s : State) (e : Waiter) : State :=
  { s with waiters := e :: (s.unwatch e.wave e.x).waiters }
/-- Watch the word of an AWWAIT for a generation later than `g`; `f` is one that has come. -/
def State.watchFor (s : State) (w : Nat) (x : SlotId) (l : Loc) (g : BitVec 32) (f : Option (BitVec 32)) : State :=
  s.watch { wave := w, x := x, line := l.line, woken := false, found := f
            aw := match l with | .share _ o => some (o, g) | _ => none }
def State.watchWord (s : State) (w : Nat) (x : SlotId) (l : Loc) (g : BitVec 32) : State := s.watchFor w x l g none

/-- The generation that a write has brought to the word that a slot watches (R177, R327). -/
def State.foundGen (s : State) (w : Nat) (x : SlotId) : Option (BitVec 32) :=
  (s.waiters.find? fun e => e.wave == w && e.x == x).bind (·.found)
/-- A slot whose AWWAIT keeps the generation that has been found for it. -/
def Slot.keepFound (t : Slot) (found : Option (BitVec 32)) : Slot :=
  match t.park with
  | .awwait a g d f => { t with park := .awwait a g d (f.orElse fun _ => found) }
  | _ => t

/-- What a slot's park watches from here on, as a wave's context is restored or a handler returns: a parked MWAIT reads
again (R172), a parked AWWAIT watches its word, and one whose word a write has brought to a later generation keeps that. -/
def State.rearmSlot (s : State) (w : Nat) (x : SlotId) : State :=
  match ((s.wave w).slot x).live, ((s.wave w).slot x).park with
  | true, .mwait .. => s.watch { wave := w, x := x, line := (5000, 0), woken := true, aw := none, found := none }
  | true, .awwait a g _ f =>
    match awResolve s w a with
    | .ok l _ => s.watchFor w x l g (f.orElse fun _ => s.foundGen w x)
    | _ => s.unwatch w x
  | _, _ => s.unwatch w x
def State.rearm (s : State) (w : Nat) : State := (s.rearmSlot w .a).rearmSlot w .b

/-- Hold the translation that an access has used; its die sees what has been written to the line (R225). -/
def State.holdRes (s : State) (w : Nat) (addr : Word) : Res → State
  | .ok (.phys a) (some l) => (s.hold (clusterOf (coreOf w)) (s.vfOf w) addr.toNat l).observe (dieOf (coreOf w)) a
  | _ => s

/-! ### Instruction fetch (R86, R291) -/

/-- The physical address of an instruction word, or `none` for MISS. -/
def fetchPa (s : State) (w : Nat) (pc : Word) : Option (Nat × Leaf) :=
  if 2 ^ 56 ≤ pc.toNat then none
  else
    match translate s (clusterOf (coreOf w)) (s.vfOf w) pc.toNat with
    | .leaf l =>
      if !l.x || l.conf || s.portRefuses (dieOf (coreOf w)) (s.partWorld (s.partOf w)) (l.pa pc.toNat) then none
      else some (l.pa pc.toNat, l)
    | _ => none

/-- The word at a physical address: memory's, or one that the core's instruction cache holds (R44; log 8). A fetch at an
address that is no multiple of 4 reads the four bytes there, and its word is held with those of the aligned word (log 41). -/
def cachedWord (s : State) (core pa : Nat) : W32 :=
  let fresh := BitVec.ofNat 32 (s.readPhys pa 4)
  let held := (SMap.get (fun _ => []) (s.core core).icache (pa / 4)).filter fun e => e.1 != fresh
  if held.isEmpty then fresh else (held.getD (Config.icacheChoice (s.tick + pa / 4) % (held.length + 1)) (fresh, 0)).1

/-- One instruction word, or `none` for MISS. -/
def fetchWord (s : State) (w : Nat) (pc : Word) : Option W32 :=
  match fetchPa s w pc with
  | some (pa, _) => some (cachedWord s (coreOf w) pa)
  | none => none

/-- What a fetch at an address gives. -/
inductive Fetched where
  | miss (addr : Word)
  | bad (w0 : W32)
  | instr (i : Instr)
deriving DecidableEq, Repr

def fetchedOf (w0 : W32) : Decoded → Fetched
  | .ok i => .instr i
  | .error _ => .bad w0

/-- Fetch and decode (R291, R292): the words that LEN calls for, the lowest failing one named. -/
noncomputable def fetch (s : State) (w : Nat) (pc : Word) : Fetched :=
  match fetchWord s w pc with
  | none => .miss pc
  | some w0 =>
    match fetchWords w0 with
    | 1 => fetchedOf w0 (decodeWords w0 0 0)
    | n =>
      match fetchWord s w (pc + 4) with
      | none => .miss (pc + 4)
      | some w1 =>
        if n = 2 then fetchedOf w0 (decodeWords w0 w1 0)
        else
          match fetchWord s w (pc + 8) with
          | none => .miss (pc + 8)
          | some w2 => fetchedOf w0 (decodeWords w0 w1 w2)

/-- Hold the translation and the word of one fetched instruction word. -/
def State.holdWord (s : State) (w : Nat) (pc : Word) : State :=
  match fetchPa s w pc with
  | none => s
  | some (pa, l) =>
    let v := cachedWord s (coreOf w) pa
    let s1 := s.hold (clusterOf (coreOf w)) (s.vfOf w) pc.toNat l
    let c := s1.core (coreOf w)
    let held := SMap.get (fun _ => []) c.icache (pa / 4)
    let e := (v, s.vfOf w * 2 ^ 56 + pc.toNat)
    if held.contains e then s1
    else s1.setCore (coreOf w) { c with icache := SMap.set (fun _ => []) c.icache (pa / 4) (e :: held) }

/-- Hold what a fetch of `n` words has used. -/
def State.holdFetch (s : State) (w : Nat) (pc : Word) (n : Nat) : State :=
  (List.range n).foldl (fun t i => t.holdWord w (pc + BitVec.ofNat 64 (4 * i))) s

/-! ### Stopping a slot (R30, R36, R275) -/

/-- The vector ALU instruction that words hold, if they hold one: the decoder on its majors alone (R28, R94). -/
def aluWords (w0 w1 w2 : W32) : Option Instr :=
  let maj := (fld w0 2 6).toNat
  let len := (fld w0 0 2).toNat
  let r : Decoded :=
    if 0x12 ≤ maj ∧ maj ≤ 0x16 then
      (if len = 0 then decodeVa maj w0 none else if len = 1 then decodeVa maj w0 (some w1) else .error .lengthMismatch)
    else if 0x18 ≤ maj ∧ maj ≤ 0x1B then
      (if len = 1 then decodeF64v maj w0 w1 none else if len = 2 then decodeF64v maj w0 w1 (some w2)
       else .error .lengthMismatch)
    else .error .majorUnassigned
  match r with
  | .ok i => some i
  | .error _ => none

/-- A slot with this open chain may go on from the chain's head: the members that completed wrote no register that any of
them read (R30). -/
def Chain.restarts (c : Chain) : Bool := !c.headBad && decide (c.count < 8)

/-- Whether a slot stands inside a latch chain: it has had fewer than eight members, and its next instruction reads a latch
(R29), or its words that name its operands cannot be fetched and it may do so (log 14). -/
def State.inChain (s : State) (w : Nat) (x : SlotId) : Bool :=
  let t := (s.wave w).slot x
  match t.chain with
  | none => false
  | some c =>
    match fetchWord s w t.pc with
    | none => c.restarts
    | some w0 =>
      let wide := decide (0x18 ≤ (fld w0 2 6).toNat) && decide ((fld w0 2 6).toNat ≤ 0x1B)
      if wide && (fetchWord s w (t.pc + 4)).isNone then c.restarts
      else
        match aluWords w0 ((fetchWord s w (t.pc + 4)).getD 0) ((fetchWord s w (t.pc + 8)).getD 0) with
        | some i => decide (c.count < 8) && readsLatch i
        | none => false

/-- A slot as it stops: at its chain's head if it stands inside a chain, its latches invalid, an access that is parked
on a granule cancelled (R48, R276). -/
def State.stopped (s : State) (w : Nat) (x : SlotId) : Slot :=
  let t := (s.wave w).slot x
  let pc := if s.inChain w x then (match t.chain with | some c => c.head | none => t.pc) else t.pc
  let park := match t.park with | .granule _ => .none | p => p
  { t with pc := pc, park := park, chain := none, latches := [] }

/-! ### Capsule records at a stop and a resumption (R214) -/

/-- Physical address of a wave's capsule record, and whether its page has NOREPLAY; none where its page no longer
translates or may no longer be written: then a stop or a resumption leaves the record as it is, and the wave goes on as it
was (log 49). -/
def State.capPa (s : State) (w : Nat) (record : Word) : Option (Nat × Bool) :=
  match resolve s w .atomic record 8 with
  | .ok (.phys pa) (some l) => some (pa, l.noreplay)
  | _ => none

/-- LOCK's fields (R205). -/
def lockSeq (l : Nat) : Nat := bitsOf l 0 16
def lockState (l : Nat) : Nat := bitsOf l 16 8
def lockHolder (l : Nat) : Nat := bitsOf l 24 40
def mkLock (seq st holder : Nat) : Nat := seq % 2 ^ 16 + st * 2 ^ 16 + holder * 2 ^ 24

/-- Whether a record still names the wave and the SEQ it expects. -/
def State.capMatches (s : State) (pa : Nat) (c : Capsule) : Bool :=
  lockHolder (s.readPhys pa 8) == c.holder.toNat && lockSeq (s.readPhys pa 8) == c.seq.toNat

/-- A stopped wave's record becomes ADOPTABLE (R214). -/
def State.markAdoptable (s : State) (w : Nat) : State :=
  match (s.wave w).capsule with
  | none => s
  | some c =>
    match s.capPa w c.record with
    | none => s
    | some (pa, norep) =>
      if s.capMatches pa c then
        s.writeFor w pa (leBytes 8 (mkLock c.seq.toNat 2 c.holder.toNat)) norep
      else s

/-- s48–s55 put back from their saved copy. -/
def Wave.restoreCap (W : Wave) (saved : List Word) : Wave :=
  saved.zipIdx.foldl (fun W e => W.setS (BitVec.ofNat 6 (48 + e.2)) e.1) W

/-- A displaced wave: the buffer discarded, s48–s55 restored, capsule mode ended, and the slot at the displaced path
with status 3 or at the adopter's own CAPENTER (R214). -/
def Wave.displace (W : Wave) (c : Capsule) : Wave :=
  let W1 := { W.restoreCap c.saved with capsule := none }
  if c.adopter then W1.setSlot c.x { W1.slot c.x with pc := c.enterPc, chain := none }
  else (W1.setS c.sd 3).setSlot c.x { W1.slot c.x with pc := c.displaced, chain := none }

/-- The reverse transaction at a resumption: HELD again, or displacement (R214). -/
def State.resumeCapsule (s : State) (w : Nat) : State :=
  match (s.wave w).capsule with
  | none => s
  | some c =>
    match s.capPa w c.record with
    | none => s
    | some (pa, norep) =>
      if s.capMatches pa c then s.writeFor w pa (leBytes 8 (mkLock c.seq.toNat 1 c.holder.toNat)) norep
      else s.setWave w ((s.wave w).displace c)

/-! ### Taking a trap (R275–R288) and returning from one -/

/-- Cause codes (R284). -/
def Cause.code : Cause → BitVec 8
  | .ill => 0x01 | .priv => 0x02 | .miss => 0x03 | .fmask => 0x04 | .latch => 0x05
  | .xvop => 0x10 | .xvpriv => 0x11 | .xvund => 0x12 | .xvovf => 0x13
  | .malign => 0x20 | .spbound => 0x21 | .bufbound => 0x22 | .prot => 0x23 | .xlate => 0x24 | .poison => 0x25
  | .caplim => 0x30 | .capill => 0x31 | .caprec => 0x32 | .ovftrap => 0x41 | .divstk => 0x50
  | .timing => 0x60 | .quar => 0x61 | .swtrap => 0x70 | .machine => 0x7F

/-- Causes that always go to the S-level service (R284). -/
def Cause.service : Cause → Bool
  | .fmask | .poison | .timing | .quar | .machine => true
  | _ => false

/-- The tenant causes by code, for DELIVER (R284, R288). -/
def tenantCode (c : Nat) : Bool :=
  [0x01, 0x02, 0x03, 0x05, 0x10, 0x11, 0x12, 0x13, 0x20, 0x21, 0x22, 0x23, 0x24, 0x30, 0x31, 0x32, 0x41, 0x50,
    0x70].contains c

/-- What a trap records. -/
structure TrapArgs where
  cause : Cause
  addr : Word
  n : BitVec 6
  eng : Bool
  xvres : Bool
  mask : Mask
  recs : SMap LaneRec
  pc : Word
  chain : Word
  next : Word
deriving DecidableEq, Repr

/-- An instruction cause at an address of its own (R279). -/
def instrTrap (c : Cause) (addr pc : Word) : TrapArgs :=
  { cause := c, addr := addr, n := 0, eng := false, xvres := false, mask := 0, recs := [], pc := pc, chain := pc
    next := pc }

/-- TSLOT (R278). -/
def tslotOf (x : SlotId) (t y : Slot) (entries : Nat) : BitVec 32 :=
  let opark := match y.park with | .mwait .. | .barwait .. | .awwait .. => y.live | _ => false
  BitVec.ofNat 32 ((if x = .b then 1 else 0) + (if y.live then 2 else 0) + (if y.live && y.waiting then 4 else 0)
    + (if opark then 8 else 0) + t.depth.toNat * 2 ^ 8 + (if y.live then y.depth.toNat else 0) * 2 ^ 16
    + Nat.min entries 255 * 2 ^ 24)

/-- TINFO (R278). -/
def tinfoOf (n : BitVec 6) (eng xvres fwd ochain : Bool) : BitVec 12 :=
  BitVec.ofNat 12 (n.toNat + (if eng then 0x100 else 0) + (if xvres then 0x200 else 0) + (if fwd then 0x400 else 0)
    + (if ochain then 0x800 else 0))

def Park.isOp : Park → Bool
  | .op _ => true
  | _ => false
/-- Where a slot that a trap stops goes on: behind an operation that it has issued and waits for, since that completes
meanwhile (R275; log 12). -/
def Slot.resumePc (t : Slot) : Word := if t.park.isOp then t.pc + 4 else t.pc

/-- The trap registers after a trap of slot x; a nested trap keeps TNEXT, TPC2 and TSLOT (R281). -/
def TrapRegs.take (r : TrapRegs) (nested : Bool) (x : SlotId) (t y : Slot) (ochain : Bool) (entries : Nat)
    (a : TrapArgs) : TrapRegs :=
  let r1 := { r with
    tpc := a.pc, tcause := a.cause.code, taddr := a.addr, tinfo := tinfoOf a.n a.eng a.xvres false ochain
    tmask := a.mask, tlane := BitVec.ofNat 8 (lowestLane a.mask), tchain := a.chain, lanes := a.recs }
  if nested then r1
  else { r1 with tslot := tslotOf x t y entries, tpc2 := if y.live then y.resumePc else 0, tnext := a.next }

/-- The handler's flow (R281): at THNDL, depth 0, lane TLANE alone. -/
def handlerSlot (r : TrapRegs) : Slot :=
  { Slot.free with
    live := true, pc := r.thndl
    mask := if r.tlane = 128 then 0 else (1 : Mask) <<< r.tlane.toNat }

/-- Both slots of a wave as the flow of slot x alone. -/
def Wave.flow (W : Wave) (x : SlotId) (t : Slot) : Wave := (W.setSlot x t).setSlot (otherSlot x) Slot.free

/-- Append a record for the service (R287). -/
def State.ringAdd (s : State) (w : Nat) (cause : BitVec 8) (nested eng : Bool) : State :=
  let p := s.partOf w
  s.setPart p { s.part p with ringWait := (s.part p).ringWait ++ [{ wave := w, ticket := 0, cause := cause, nested := nested, eng := eng }] }

/-- TAKING A TRAP in slot x of wave w (R275, R276, R278–R281, R287): the other slot stops, the trap registers are
written, a capsule's record becomes adoptable, and the wave enters handler mode or is service-parked. A TIMING park keeps
what the slot waits for (R314). -/
def takeTrap (s : State) (w : Nat) (x : SlotId) (a : TrapArgs) : State :=
  let W := s.wave w
  let keep := decide (a.cause = .timing)
  let t := { W.slot x with
    pc := a.pc, waiting := keep && (W.slot x).waiting, park := if keep then (s.stopped w x).park else .none
    chain := none, latches := [] }
  let y := s.stopped w (otherSlot x)
  let nested := W.handler
  let r := W.trap.take nested x t y (s.inChain w (otherSlot x)) W.entries a
  let frozen := if nested then W.frozen else (match x with | .a => some (t, y) | .b => some (y, t))
  let service := a.cause.service || nested || r.thndl = 0
  let W1 := { W with trap := r, frozen := frozen }
  let W2 := if service then
      { (W1.setSlot x t).setSlot (otherSlot x) y with service := some { nested := nested, timing := decide (a.cause = .timing) } }
    else { W1.flow x (handlerSlot r) with handler := true }
  let s1 := (s.setWave w W2).markAdoptable w
  if service then s1.ringAdd w a.cause.code nested a.eng else s1

/-- An engine fault of slot x (R286): TINFO.ENG, TPC and TNEXT the next instruction; in handler mode a nested trap. -/
def State.takeEngine (s : State) (w : Nat) (f : EngFault) : State :=
  let W := s.wave w
  let x := if W.handler then (if W.trap.tslot.getLsbD 0 then .b else .a) else f.x
  takeTrap s w x { instrTrap f.cause f.addr (W.slot x).pc with eng := true }

/-- A held engine fault is taken as the wave resumes (R286). -/
def State.takeHeld (s : State) (w : Nat) : State :=
  match (s.wave w).heldFault with
  | none => s
  | some f => (s.setWave w { s.wave w with heldFault := none }).takeEngine w f

/-- The trapping slot of the trap registers (R278). -/
def TrapRegs.slot (r : TrapRegs) : SlotId := if r.tslot.getLsbD 0 then .b else .a

/-- The lanes of the recorded trap that failed at step 1 of an XV (R283). -/
def TrapRegs.step1 (r : TrapRegs) : Mask :=
  laneMask fun i => r.tmask.getLsbD i && (SMap.get (fun _ => LaneRec.zero) r.lanes i).step == 1

/-- A quarantined core (R313). -/
def State.quarantined (s : State) (core : Nat) : Bool := (s.core core).margin.state == 2

/-- Whether a bank holds a team of the same cluster set as a team. -/
def State.holdsSet (s : State) (t : Team) (b : Nat) : Bool :=
  match (s.bank b).team with
  | some u => u.launch == t.launch && u.setBanks == t.setBanks
  | none => false
/-- The banks that hold the set of the team in a bank, in SETIX order. -/
def State.setOf (s : State) (b : Nat) : List Nat :=
  match (s.bank b).team with
  | some t => t.setBanks.filter (s.holdsSet t)
  | none => []

/-- A bank designator (R244): the package core index in [8:0], the bank in [9]. -/
def desCore (v : Word) : Nat := bitsOf v.toNat 0 9
def desBank (v : Word) : Nat := 2 * desCore v + bitsOf v.toNat 9 1

/-- Slot x as a trap has left it, while the wave is in handler mode or parked for the service. -/
def Wave.frozenSlot (W : Wave) (x : SlotId) : Option Slot :=
  W.frozen.map fun p => match x with | .a => p.1 | .b => p.2
/-- Whether the operation of slot x is one that a trap has frozen: a handler's own operation is not. -/
def Wave.opFrozen (W : Wave) (x : SlotId) : Bool := W.frozen.isSome && !(W.handler && (W.slot x).park.isOp)
/-- The slot whose operation is to complete. -/
def Wave.opSlot (W : Wave) (x : SlotId) : Slot :=
  if W.opFrozen x then (W.frozenSlot x).getD (W.slot x) else W.slot x

/-- The banks that a slot's operation takes out of issue. -/
def State.opBanks (s : State) (p : Park) : List Nat :=
  match p with
  | .op (.spill v _) => s.setOf (desBank v)
  | .op (.migr v _) => [desBank v]
  | _ => []

/-- A bank whose team is being spilled or moved issues nothing. -/
def State.moving (s : State) (b : Nat) : Bool :=
  s.waves.any fun e => e.2.resident &&
    [SlotId.a, SlotId.b].any fun x => (e.2.opSlot x).live && (s.opBanks (e.2.opSlot x).park).contains b

/-- A capsule is taken up again unless its wave stays stopped (R214): in a bank that is swapped out, being spilled or moved, or
on a quarantined core. It is then taken up as the bank is swapped in, filled or moved. -/
def State.resumeActive (s : State) (w : Nat) : State :=
  if (s.core (coreOf w)).active = bankOf w % 2 ∧ s.moving (bankOf w) = false ∧ s.quarantined (coreOf w) = false then
    s.resumeCapsule w
  else s

/-- The waves of a bank. -/
def bankWaves (b : Nat) : List Nat := (List.range 8).map fun i => 8 * b + i
/-- The capsules of a bank's waves are taken up again, but for waves in handler mode or parked for the service. -/
def State.resumeCapsules (s : State) (b : Nat) : State :=
  (bankWaves b).foldl (fun t w =>
    let W := t.wave w
    if W.resident && !W.handler && W.service.isNone then t.resumeActive w else t) s

/-- A BARSYNC that a flow has left behind without returning from it is forgotten (R176): what stands at a place has another
instruction or other lanes. -/
def Wave.dropSyncs (W : Wave) (place : Nat) (t : Slot) : Wave :=
  { W with syncs := W.syncs.filter fun e => !(e.place == place && !(t.live && e.mask == t.mask && e.pc == t.pc)) }
/-- The place of a slot among those of `SyncRec`. -/
def placeOf : SlotId → Nat
  | .a => 0
  | .b => 1

/-- TNEXT written: a slot that a TIMING park has stopped while it waited at TPC, and that is to go on elsewhere, has left what
it waited for (R314). -/
def Wave.setTnext (W : Wave) (v : Word) : Wave :=
  let go (t : Slot) : Slot := if v = W.trap.tpc ∨ W.trap.tcause ≠ Cause.timing.code then t else { t with waiting := false, park := .none }
  { W with
    trap := { W.trap with tnext := v }
    frozen := W.frozen.map fun p => match W.trap.slot with | .a => (go p.1, p.2) | .b => (p.1, go p.2) }

/-- RETURNING FROM A TRAP (R282, R283): LEVEL[1] := 0, the trapping slot at TNEXT, the other where it stopped, which is TPC2
but for what the service has written into its record (R242), parked waits watched again (R172), and a capsule taken up again or
displaced (R214). -/
def returnFromTrap (s : State) (w : Nat) : State :=
  let W := s.wave w
  match W.frozen with
  | none => s
  | some (a, b) =>
    let r := W.trap
    let W0 := { W with slotA := a, slotB := b, frozen := none, handler := false, service := none }
    let x := r.slot
    let res := if r.tnext ≠ r.tpc then none
      else if r.tinfo.getLsbD 9 then some (r.tmask, r.step1)
      else (W0.slot x).xvres
    let t := { W0.slot x with pc := r.tnext, chain := none, xvres := res }
    let y := { W0.slot (otherSlot x) with chain := none }
    let W1 := ((W0.setSlot x t).setSlot (otherSlot x) y).dropSyncs (placeOf x) t
    ((s.setWave w W1).rearm w).resumeActive w

/-! ### Operations that a slot waits for (R173, R244, R303): a trap of the wave leaves one to complete (R275) -/

/-- That slot changed: a frozen one shows in the window while the wave is parked for the service, and TNEXT goes with the slot
that trapped. -/
def Wave.setOpSlot (W : Wave) (x : SlotId) (t : Slot) : Wave :=
  if W.opFrozen x then
    let W1 := if W.handler then W else W.setSlot x t
    { W1 with
      frozen := W.frozen.map fun p => match x with | .a => (t, p.2) | .b => (p.1, t)
      trap := if W.trap.slot = x then { W.trap with tnext := t.pc } else W.trap }
  else W.setSlot x t
/-- The operation is complete, and its slot goes on behind it. -/
def State.finishOp (s : State) (w : Nat) (x : SlotId) : State :=
  let W := s.wave w
  s.setWave w (W.setOpSlot x { (W.opSlot x).advance 4 with park := .none })
/-- The operation has not happened: its slot is to issue it again, and the capsules of the banks that it was to take are
taken up again (R214). -/
def State.undoOp (s : State) (w : Nat) (x : SlotId) : State :=
  let W := s.wave w
  let bs := s.opBanks (W.opSlot x).park
  bs.foldl State.resumeCapsules (s.setWave w (W.setOpSlot x { W.opSlot x with park := .none }))

/-- A trap of the issuing slot with an instruction cause outside a chain. -/
def State.trapCur (s : State) (c : Cause) (addr : Word) : State :=
  takeTrap s s.cur.1 s.cur.2 (instrTrap c addr s.cs.pc)

/-- The records of the failing lanes, from each lane's cause, step and address (R277, R279). -/
def laneRecs (mask : Mask) (f : Nat → LaneRec) : SMap LaneRec :=
  laneList.foldl (fun m i => if mask.getLsbD i then SMap.set (fun _ => LaneRec.zero) m i (f i) else m) []

/-- A trap with per-lane causes: the elected lane is the lowest (R277, R279). -/
def State.trapLanes (s : State) (w : Nat) (x : SlotId) (cause : Nat → Cause) (mask : Mask)
    (step : Nat → Nat) (addr : Nat → Word) (pc chain : Word) (xvres : Bool) : State :=
  let e := lowestLane mask
  takeTrap s w x
    { cause := cause e, addr := addr e, n := 0, eng := false, xvres := xvres, mask := mask
      recs := laneRecs mask fun i => { cause := (cause i).code, step := BitVec.ofNat 8 (step i), addr := addr i }
      pc := pc, chain := chain, next := chain }

/-- Whether an access of a VF is parked on a granule: a slot's, or a transfer's (R48). -/
def State.parkedOn (s : State) (vf : Nat) (g : Nat × Nat) : Bool :=
  let on (t : Slot) : Bool := match t.park with | .granule gs => t.live && gs.contains g | _ => false
  (s.waves.any fun e => e.2.resident && s.vfOf e.1 == vf && (on e.2.slotA || on e.2.slotB)) ||
    s.xfers.any fun x => x.vf == vf && x.granule == some g

/-- A record for a granule on which no access of the VF is parked yet (R48, R302). `wave` is none for an engine. -/
def State.parkRecord (s : State) (vf : Nat) (g : Nat × Nat) (rd wr at_ : Bool) (wave : Option Nat) : State :=
  if s.parkedOn vf g then s
  else
    let f := s.fbuf vf
    let cap := 8 * 2 ^ s.regBits (partOff (s.vfPart vf)) 25 3
    if f.recs.length < cap then
      s.setFbuf vf { f with
        recs := f.recs ++ [{ vaddr := BitVec.ofNat 64 g.1, vf := vf, rd := rd, wr := wr, at_ := at_, eng := wave.isNone
                             gsz := g.2, wave := wave.getD 0, seq := f.nextSeq }]
        nextSeq := f.nextSeq + 1 }
    else s.setFbuf vf { f with dropped := true }

/-- Count an event of a core in its selected counters (R269). -/
def State.countEvent (s : State) (core ev : Nat) (sys : Option Bool) : State :=
  let c := s.core core
  if c.evsel = [] then s
  else
    let cnt := (List.range 8).foldl (fun m j =>
      if selCounts (SMap.get zeros c.evsel j).toNat ev sys then SMap.set zeros m j (SMap.get zeros m j + 1) else m) c.evcnt
    s.setCore core { c with evcnt := cnt }

/-- The issuing slot parks on granules and issues its instruction again whole (R47). -/
def State.parkAll (s : State) (gs : List (Nat × Nat)) (rd wr at_ : Bool) : State :=
  let gs := gs.eraseDups
  let s1 := gs.foldl (fun t g => t.parkRecord (t.vfOf t.cur.1) g rd wr at_ (some t.cur.1)) s
  let s2 := s1.setCs { s1.cs with park := .granule gs }
  s2.countEvent (coreOf s2.cur.1) 0x0C (some s2.cw.system)
def State.parkCur (s : State) (base gsz : Nat) (rd wr at_ : Bool) : State := s.parkAll [(base, gsz)] rd wr at_

/-! ### Retirement, kills, rollback (R34, R35, R321, R326) -/

def Bank.rv (b : Bank) (n : Nat) : Rv := SMap.get (fun _ => Rv.zero) b.rvs n
def Bank.setRv (b : Bank) (n : Nat) (r : Rv) : Bank := { b with rvs := SMap.set (fun _ => Rv.zero) b.rvs n r }

/-- The generation completes when ARR reaches EXP; the next one expects the members that remain (R34, R176). -/
def Rv.settle (r : Rv) : Rv :=
  if r.arr = r.exp ∧ r.arr ≠ 0 then { r with gen := r.gen + 1, arr := 0, who := 0, exp := popcount r.memb } else r

/-- A wave leaves a point in which it is counted (R34). -/
def Rv.leave (r : Rv) (i : Nat) : Rv :=
  if r.init && r.memb.getLsbD i then
    let r1 := { r with memb := r.memb &&& ~~~(1#8 <<< i) }
    if r.who.getLsbD i then r1 else { r1 with exp := r.exp - 1 }.settle
  else r

def Bank.leave (b : Bank) (i : Nat) : Bank := (List.range 24).foldl (fun b n => b.setRv n ((b.rv n).leave i)) b

/-- The last wave of a team has retired: the share is free, the deque emptied, the launch's count rises, an audited
team's run has ended (R35, R318, R328). A re-run counts for its audit alone. -/
def State.retireTeam (s : State) (b : Nat) (t : Team) : State :=
  let s1 := s.setBank b { s.bank b with team := none, deque := [] }
  let s2 := { s1 with audits := s1.audits.map fun a =>
    if a.launch = t.launch ∧ a.team = t.teamId then
      (if t.rerun then { a with finished := true } else { a with retired := true }) else a }
  if t.rerun then s2
  else match s2.launchOf t.launch with
    | some l => s2.setLaunch { l with retired := l.retired + 1 }
    | none => s2

/-- A wave whose flows are over. -/
def Wave.over (W : Wave) : Wave :=
  { W with
    slotA := Slot.free, slotB := Slot.free, handler := false, service := none, frozen := none, heldFault := none
    capsule := none, syncs := [] }

/-- A wave retires (R25, R34): it leaves its points, and its team retires with its last wave. -/
def State.retireNow (s : State) (w : Nat) : State :=
  let W := s.wave w
  let s1 := ((s.setWave w { W.over with resident := false, pend := .none, gates := [] }).unwatch w .a).unwatch w .b
  let b := (s1.bank (bankOf w)).leave (waveNo w)
  match b.team with
  | none => s1.setBank (bankOf w) b
  | some t =>
    let t1 := { t with retired := t.retired ||| (1#8 <<< waveNo w) }
    let s2 := s1.setBank (bankOf w) { b with team := some t1 }
    if popcount t1.retired = t.waves then s2.retireTeam (bankOf w) t1 else s2

/-- What a wave has issued and that outlives its flows (R275): effects in the commit gate, an XV, an MMAD. A load writes
registers that nothing will read. -/
def Wave.unfinished (W : Wave) : Bool :=
  W.gates != [] || (match W.pend with | .xv .. | .mmad _ => true | _ => false)

/-- A wave's flows are over, and it retires as what it has issued is complete. -/
def State.retireWave (s : State) (w : Nat) : State :=
  let W := s.wave w
  if W.unfinished then
    ((s.setWave w { W.over with pend := match W.pend with | .load .. => .none | p => p }).unwatch w .a).unwatch w .b
  else s.retireNow w

/-- The flows of a wave are over. -/
def Wave.noFlow (W : Wave) : Bool := !W.slotA.live && !W.slotB.live && W.service.isNone
/-- A wave whose flows are over retires with the last of what it has issued. -/
def State.endDying (s : State) (w : Nat) : State :=
  let W := s.wave w
  if W.resident && W.noFlow && !W.unfinished then s.retireNow w else s

/-- The bounce channels of a copy halt (R310). -/
def State.abortBounce (s : State) (cs : List (Nat × Nat)) : State :=
  cs.foldl (fun s c =>
    let dseq := s.regBits (bounceOff c.1 c.2 + 16) 32 32
    (s.setRegBits (bounceOff c.1 c.2 + 8) 18 1 1).setRegBits (bounceOff c.1 c.2 + 24) 0 32 (dseq + 2 ^ 32 - 1)) s

/-- Cancel the transfers that `p` holds for; landed bytes stay (R321). -/
def State.cancelXfers (s : State) (p : Xfer → Bool) : State :=
  let s1 := (s.xfers.filter p).foldl (fun t x => t.abortBounce x.bounce) s
  { s1 with xfers := s1.xfers.filter fun x => !p x }

/-- The banks that the operations of a wave's slots take out of issue. -/
def State.opBanksOf (s : State) (w : Nat) : List Nat :=
  s.opBanks ((s.wave w).opSlot .a).park ++ s.opBanks ((s.wave w).opSlot .b).park

/-- A kill (R34, R288, R332): the record of a capsule stays ADOPTABLE, the wave's transfers are cancelled, and the capsules of
the banks that its operations were to take are taken up again (R214). -/
def State.killWave (s : State) (w : Nat) : State :=
  let key := match s.teamOf w with | some t => t.launch | none => 0
  (s.opBanksOf w).foldl State.resumeCapsules
    (((s.markAdoptable w).cancelXfers fun x => x.wave == w && x.launch == key).retireWave w)

/-- The banks of the package. -/
def bankList : List Nat := List.range 1024

/-- The banks that hold a team of a launch. -/
def State.banksOf (s : State) (key : Nat) : List Nat :=
  (s.banks.filter fun e => match e.2.team with | some t => t.launch == key | none => false).map (·.1)

/-- A launch's operations leave the matrix orders; a write-out of another launch waits for those that remain (R183). -/
def State.dropOpsOf (s : State) (key : Nat) : State :=
  { s with
    cores := s.cores.map fun e => (e.1, { e.2 with queue := e.2.queue.filter fun o => !(o.launch == key) })
    xfers := s.xfers.map fun x =>
      let q := (s.core (coreOf x.wave)).queue
      { x with cbufWait := x.cbufWait - ((q.take x.cbufWait).filter fun o => o.launch == key).length } }

/-- A new target: SETTLE until CUR has taken it, unless the core is quarantined (R251, R315). -/
def Margin.moveTo (m : Margin) (step : Nat) : Margin :=
  let m1 := { m with step := step }
  if m.state = 2 then m1 else if step ≠ m.cur ∨ m.state = 1 then { m1 with state := 1 } else m1

/-- A core without the checks that `p` holds for: its supply moves back where one of them kept it at step 0, unless a
quarantine falls due (R311, R313). -/
def Core.dropChecks (c : Core) (p : Check → Bool) : Core :=
  let low := (c.checks.filter p).any fun k => k.phase == .step0 || k.phase == .passed0
  { c with
    checks := c.checks.filter fun k => !p k
    margin := if low && c.margin.qdue == 0 then c.margin.moveTo c.margin.step else c.margin }

/-- The checks of a launch's instances go with them. -/
def State.dropChecksOf (s : State) (key : Nat) : State :=
  { s with cores := s.cores.map fun e => (e.1, e.2.dropChecks fun k =>
      if k.stage = 6 then e.2.queue.head?.any fun o => o.launch == key else s.launchKey k.wave == key) }

/-- Every wave of a launch stops and is removed, a spilled team's too, and its transfers are cancelled (R321 step 1);
its matrix operations, its table loads, the buffers that it has posted and its instances under check go with it. -/
def State.removeWaves (s : State) (key : Nat) : State :=
  let ws := (s.banksOf key).flatMap bankWaves
  let held := ws.flatMap s.opBanksOf
  let s1 := ws.foldl (fun t w => if (t.wave w).resident then (t.markAdoptable w).retireNow w else t) (s.dropChecksOf key)
  let s2 := ((held.foldl State.resumeCapsules s1).cancelXfers fun x => x.launch == key).dropOpsOf key
  { s2 with
    banks := s2.banks.map fun e => (e.1, { e.2 with loads := e.2.loads.filter fun l => !(l.launch == key) })
    images := s2.images.filter fun e => e.2.team.launch ≠ key
    posted := (s2.posted.map fun e => (e.1, e.2.filter fun p => p.team.launch ≠ key)).filter fun e => e.2 ≠ [] }

/-- A page put back as its snapshot has it, poison marks and what lies behind ciphertext too; watchers of its lines wake. One that
has come to hold an image keeps it, and the refusal is logged (R261, R290). -/
def State.restorePage (s : State) (e : Snap) : State :=
  if s.guarded e.page then s.logSys (ioDie 0) (BitVec.ofNat 64 e.page) else
  let s1 := { s with
    pmem := SMap.unslice s.pmem e.page 4096 e.bytes, poison := SMap.clear s.poison e.page 4096
    plain := e.plain.foldl (fun m p => SMap.insert m (e.page / 128 + p.1) p.2) (SMap.clear s.plain (e.page / 128) 32)
    waiters := wakeLines s.waiters 0 (e.page / 128) (e.page / 128 + 31) }
  e.marks.foldl (fun (t : State) o => t.markPoison (e.page + o) 1) s1

/-- Queue `q` of a VF enters ERROR (R308). -/
def State.queueError (s : State) (vf q : Nat) (addr : Word) : State :=
  (s.setRegBits (queueOff vf q + 32) 0 2 2).setReg (queueOff vf q + 40) addr

/-- Give back a launch's snapshots (R322). -/
def State.freeSnaps (s : State) (l : Launch) : State :=
  s.setRegBits (snapOff l.vf + 8) 32 32 (s.regBits (snapOff l.vf + 8) 32 32 - l.snaps.length)

/-- Whether a launch is replayable (R321). -/
def Launch.replayable (l : Launch) : Bool :=
  bitsOf ((l.packet.headD 0).toNat) 10 1 == 1 && !l.snapLost && !l.sentNet && decide (l.rollbacks < 2)

/-- ROLLBACK of a launch (R321): removed, then its pages restored and the launch placed again ahead of its queue, or
the queue in ERROR. `lost` says that a snapshot lies below a failed tree node (R323). -/
def State.rollback (s : State) (key : Nat) (lost : Bool) : State :=
  match s.launchOf key with
  | none => s
  | some l =>
    let s1 := s.removeWaves key
    let l := (s1.launchOf key).getD l
    let s2 := { s1 with audits := s1.audits.filter fun a => !(a.launch == key) }
    if l.replayable && !lost then
      let s3 := l.snaps.foldl State.restorePage s2
      let s4 := s3.freeSnaps l
      let l1 := { l with placed := 0, retired := 0, rollbacks := l.rollbacks + 1, killed := false, snaps := [], unsnapped := [] }
      { s4 with launches := l1 :: s4.launches.filter fun m => m.key ≠ key }
    else
      let s3 := (s2.freeSnaps l).queueError l.vf l.q l.packetAddr
      { s3 with launches := s3.launches.filter fun m => m.key ≠ key }

/-- The launch of a wave is rolled back. -/
def State.rollbackOf (s : State) (w : Nat) : State :=
  match s.teamOf w with
  | some t => s.rollback t.launch false
  | none => s

/-- POISON or MACHINE in slot x (R320): the wave is service-parked with a record, and the launch is rolled back. -/
def State.consume (s : State) (w : Nat) (x : SlotId) (a : TrapArgs) : State :=
  (takeTrap s w x a).rollbackOf w

end Sys2Proof.Machine
end

