-- ==== Sys2Proof/Machine/Issue.lean ====
section
/-! DEFINITION. Machine/Issue.lean: what every instruction does before its own effect: the classes of checks in the
order of R285 (level, feature, chain, capsule), the stage entries (R352) and the event counts (R269). -/
namespace Sys2Proof.Machine

/-- What an answer of the model is. -/
abbrev Out := Host.Outcome State Fault Refusal

/-- What the checks need to know of an instruction: its bytes, whether it is level S only, its feature's bit of
FEATMASK, the scalar registers it names if a capsule body allows it, its stages, and the kind it counts under. -/
structure Info where
  len : Nat
  sLevel : Bool
  feat : Option Nat
  cap : Option (List SReg)
  stages : List Nat
  /-- Whether its own effect counts it toward the step, once it completes. -/
  selfCount : Bool
  vector : Bool
  memory : Bool
deriving DecidableEq, Repr

/-- An instruction of the scalar unit that no capsule body allows. -/
def Info.scalar (len : Nat) : Info :=
  { len := len, sLevel := false, feat := none, cap := none, stages := [1], selfCount := false, vector := false, memory := false }
/-- A vector instruction; stage 2 stands for that of the pipe on which it issues (R352). -/
def Info.vec (len : Nat) : Info :=
  { len := len, sLevel := false, feat := none, cap := none, stages := [2], selfCount := false, vector := true, memory := false }
/-- A memory instruction. -/
def Info.mem (len : Nat) : Info :=
  { len := len, sLevel := false, feat := none, cap := none, stages := [5], selfCount := false, vector := false, memory := true }

/-! ### Vector pipes (R29, R31, R345) -/

/-- What has issued on a core in the present cycle. -/
def State.issuedNow (s : State) (core : Nat) : List (IssueUnit × Nat) :=
  let i := (s.core core).issued
  if i.1 = s.cycle then i.2 else []

/-- The pipe that an issued instruction has taken. -/
def IssueUnit.pipe : IssueUnit → Option Pipe
  | .vector p | .xv p => some p
  | _ => none

/-- A wave has issued on a pipe in this cycle, and another than wave `w` has. -/
def State.pipeUsed (s : State) (w : Nat) (p : Pipe) : Bool :=
  (s.issuedNow (coreOf w)).any fun e => e.1.pipe == some p && e.2 != w

/-- The open chain of a slot holds a pipe. -/
def State.chainOn (s : State) (w : Nat) (x : SlotId) (p : Pipe) : Bool :=
  match ((s.wave w).slot x).chain with
  | some c => c.pipe == p && s.inChain w x
  | none => false

/-- A chain of another slot of the bank holds a pipe (R29). -/
def State.pipeHeld (s : State) (w : Nat) (x : SlotId) (p : Pipe) : Bool :=
  (bankWaves (bankOf w)).any fun v => (s.wave v).resident &&
    [SlotId.a, SlotId.b].any fun y => !(v == w && y == x) && s.chainOn v y p

/-- The pipe whose stage the instance under check of a slot is to enter again (R247). -/
def Core.checkedPipe (c : Core) (w : Nat) (x : SlotId) : Option Pipe :=
  (c.checks.find? fun k => k.again && k.wave == w && k.x == x && (k.stage == 2 || k.stage == 3)).map fun k =>
    if k.stage = 2 then .vp0 else .vp1

/-- The pipe of the issuing slot's vector instruction (R345): a chain member's is its head's, that of an instance under check
the one whose stage it is in, another's VP0 but in a cycle in which another wave has issued there. -/
def State.pipe (s : State) (member : Bool) : Pipe :=
  match member, s.cs.chain with
  | true, some c => c.pipe
  | _, _ =>
    match (s.core (coreOf s.cur.1)).checkedPipe s.cur.1 s.cur.2 with
    | some p => p
    | none => if s.pipeUsed s.cur.1 .vp0 then .vp1 else .vp0

/-- The stage of a pipe (R247). -/
def Pipe.stage : Pipe → Nat
  | .vp0 => 2
  | .vp1 => 3

/-- The instruction enters its checked stages and is counted. -/
def State.enter (s : State) (f : Info) (p : Pipe) : State :=
  let core := coreOf s.cur.1
  let sys := some s.cw.system
  let s1 := { s with stages := f.stages.map fun n => { core := core, stage := if n = 2 then p.stage else n, pc := s.cs.pc } }
  let s2 := s1.countEvent core 2 sys
  let s3 := if f.vector then s2.countEvent core 3 sys else s2
  if f.memory then s3.countEvent core 6 sys else s3

/-- The issuing instruction's effect passes the commit gate (R249): event 9 of R269. -/
def State.gated (s : State) : State := s.countEvent (coreOf s.cur.1) 9 (some s.cw.system)

/-- Registers a capsule body may name (R209). -/
def capRegs (l : List SReg) : Bool := l.all fun r => r == 0 || (decide (48 ≤ r.toNat) && decide (r.toNat ≤ 55))

/-- Whether the wave executes under the capsule limits: in capsule mode and not in handler mode (R211, R218). -/
def Wave.limited (W : Wave) : Bool := W.capsule.isSome && !W.handler

/-- FEATMASK masks the feature in the issuing wave's partition (R294). -/
def State.masked (s : State) (feat : Option Nat) : Bool :=
  match feat with
  | none => false
  | some n => (s.part (s.partOf s.cur.1)).featmask.getLsbD n

/-- The instruction counts toward the step (R211). -/
def State.countStep (s : State) : State :=
  match s.cw.capsule with
  | some c => s.setCw { s.cw with capsule := some { c with instrs := c.instrs + 1 } }
  | none => s

/-- The capsule limits on an instruction: CAPILL for one that no body allows or that names another register, CAPLIM for
the 65th of a step (R211, R329), else the instruction's own effect. R329 gives the two no order (log 51). -/
def underCapsule (s : State) (f : Info) (k : State → State) : State :=
  if s.cw.limited then
    match f.cap with
    | none => s.trapCur .capill 0
    | some regs =>
      if !capRegs regs then s.trapCur .capill 0
      else
        match s.cw.capsule with
        | some c => if 64 ≤ c.instrs then s.trapCur .caplim 0 else k (if f.selfCount then s else s.countStep)
        | none => k s
  else k s

/-- The checks of an instruction that is no vector ALU instruction, then its own effect. -/
def issueS (s : State) (f : Info) (k : State → State) : State :=
  if f.sLevel && !s.cw.system then s.trapCur .priv 0
  else if s.masked f.feat then s.trapCur .fmask 0
  else underCapsule (s.enter f (s.pipe false)) f k

/-- An instruction that is no vector ALU instruction. -/
def issue (s : State) (f : Info) (k : State → State) : Out := .next (issueS s f k)

/-- What the chain check needs to know of a vector ALU instruction (R28, R29): its destination, its operands, and
whether it rounds stochastically. -/
structure Alu where
  d : VReg
  srcs : List VSrc
  stoch : Bool
deriving DecidableEq, Repr

/-- An operand's value in a lane. -/
def State.src (s : State) (x : VSrc) (i : Nat) : W32 :=
  match x with
  | .lit l => l
  | .reg v => if isLatch v then s.cs.latch (v.toNat - 60) i else s.cw.v v.toNat i

/-- The destination writes a register that the member itself, or an earlier member, has read (R29). -/
def Alu.clash (a : Alu) (reads : BitVec 64) : Bool := decide (a.d.toNat < 60) && reads.getLsbD a.d.toNat

/-- The LATCH cases of R295: whether the instruction traps, and whether as a member of the open chain. A stochastic VCVT
that reads a latch belongs to no chain (R29), so it traps as in case 1 (log 14). -/
def chainFault (t : Slot) (a : Alu) : Option Bool :=
  if latchNeed a.srcs = 0 then none
  else if a.stoch then some false
  else
    match t.chain with
    | none => some false
    | some c =>
      if 8 ≤ c.count then some false
      else if c.count < latchNeed a.srcs then some true
      else if c.headBad then some true
      else if a.clash (c.reads ||| srcRegs a.srcs) then some true
      else none

/-- The instruction goes on with the open chain. -/
def chainMember (a : Alu) : Bool := latchNeed a.srcs != 0 && !a.stoch

/-- The chain after the instruction (R29): a member, a new head, or no chain after a stochastic VCVT. -/
def chainNext (t : Slot) (a : Alu) (p : Pipe) : Option Chain :=
  if a.stoch then none
  else
    match t.chain with
    | some c =>
      if latchNeed a.srcs = 0 then
        some { head := t.pc, pipe := p, count := 1, reads := srcRegs a.srcs, headBad := a.clash (srcRegs a.srcs) }
      else some { c with count := c.count + 1, reads := c.reads ||| srcRegs a.srcs }
    | none => some { head := t.pc, pipe := p, count := 1, reads := srcRegs a.srcs, headBad := a.clash (srcRegs a.srcs) }

/-- TCHAIN of an instruction at this point: the head of the chain that it goes on with, else its own address (R278). -/
def chainHead (t : Slot) (a : Alu) : Word :=
  match t.chain with
  | some c => if latchNeed a.srcs = 0 || a.stoch then t.pc else c.head
  | none => t.pc

/-- The results of a vector ALU instruction: the active lanes of the destination, unless it is 60, and the latches,
b0 with the destination's new contents, or with the results and zeros elsewhere (R121). -/
def State.writeAlu (s : State) (a : Alu) (mask : Mask) (f : Nat → W32) (len : Nat) (p : Pipe) : State :=
  let t := s.cs
  let W := s.cw
  let W1 := if a.d.toNat < 60 then W.setVs a.d.toNat mask f else W
  let b0 : Nat → W32 := fun i => if a.d.toNat < 60 then W1.v a.d.toNat i else if mask.getLsbD i then f i else 0
  let old := (t.latches.filter fun e => decide (e.1 < 384)).map fun e => (e.1 + 128, e.2)
  let t1 := { t with
    pc := t.pc + BitVec.ofNat 64 len, chain := chainNext t a p, xvres := none
    latches := SMap.setLanes old 0 (BitVec.allOnes 128) b0 }
  s.setCw (W1.setSlot s.cur.2 t1)

/-- A vector ALU instruction (R28): the checks, LATCH among them, then the results in its active lanes, or OVFTRAP for
the lanes that `ovf` holds for (R299). `post` is what else it does when it completes. -/
def aluS (s : State) (f : Info) (a : Alu) (mask : Mask) (val : Nat → W32) (ovf : Nat → Bool)
    (post : State → State) : State :=
  match chainFault s.cs a with
  | some member =>
    let head := if member then (match s.cs.chain with | some c => c.head | none => s.cs.pc) else s.cs.pc
    takeTrap s s.cur.1 s.cur.2 { instrTrap .latch 0 s.cs.pc with chain := head, next := head }
  | none =>
    let p := s.pipe (chainMember a)
    underCapsule (s.enter f p) f fun s =>
      let bad := laneMask fun i => mask.getLsbD i && ovf i
      if bad = 0 then post (s.writeAlu a mask val f.len p)
      else s.trapLanes s.cur.1 s.cur.2 (fun _ => .ovftrap) bad (fun _ => 0) (fun _ => 0) s.cs.pc (chainHead s.cs a) false

/-- A vector ALU instruction without an overflow policy. -/
def alu (s : State) (len : Nat) (a : Alu) (mask : Mask) (val : Nat → W32) : Out :=
  .next (aluS s (Info.vec len) a mask val (fun _ => false) id)

/-- A vector ALU instruction whose overflow policy may trap. -/
def aluOvf (s : State) (len : Nat) (a : Alu) (mask : Mask) (val : Nat → W32) (ovf : Nat → Bool) : Out :=
  .next (aluS s (Info.vec len) a mask val ovf id)

end Sys2Proof.Machine
end

