-- ==== Sys2Proof/Machine/Access.lean ====
section
/-! DEFINITION. Machine/Access.lean: data behind a resolved location (R37–R43), outside the system configuration window. -/
namespace Sys2Proof.Machine

/-- Bytes of a sparse buffer. -/
def readBytes (m : SMap Byte) (a n : Nat) : Nat := leValue ((List.range n).map fun i => SMap.get zeros m (a + i))
/-- Write bytes into a sparse buffer. -/
def writeBytes (m : SMap Byte) (a : Nat) (bs : List Byte) : SMap Byte :=
  bs.zipIdx.foldl (fun m e => SMap.set zeros m (a + e.2) e.1) m

/-- What a wave reads at a location. -/
def State.readLoc (s : State) (w : Nat) (l : Loc) (n : Nat) : Nat :=
  match l with
  | .phys a => s.readFor w a n
  | .conf a => s.readTeam (s.teamOf w) (some (s.keyOf (s.vfOf w))) a n
  | .share b o => readBytes (s.bank b).share o n
  | .wbuf c o => readBytes (s.core c).wbuf o n
  | .abuf c o => readBytes (s.core c).abuf o n
  | .cbuf c o => readBytes (s.core c).cbuf o n
  | .win o => (s.reg o).toNat

/-- Bytes written over poisoned ones clear the marks (R300). -/
def State.writeClear (s : State) (l : Loc) (n : Nat) : State :=
  s.clearMarks l.markKey n

/-- A watched arrival word is tested as it is written: the first generation later than the awaited one is kept (R177,
R327). -/
def Waiter.test (e : Waiter) (share : SMap Byte) : Waiter :=
  match e.aw, e.found with
  | some (o, g), none =>
    let gen := BitVec.ofNat 32 (readBytes share (o + 8) 4)
    if genPassed gen g then { e with found := some gen } else e
  | _, _ => e

/-- Write bytes of a scratchpad or a typed buffer; those that watch the line wake (R172, R177). -/
def State.writeInner (s : State) (l : Loc) (bs : List Byte) : State :=
  match l with
  | .share b o =>
    let share := writeBytes (s.bank b).share o bs
    { (s.setBank b { s.bank b with share := share }) with
      waiters := (wakeLines s.waiters (1 + b) (o / 128) ((o + bs.length - 1) / 128)).map fun e =>
        if e.line.1 = 1 + b then e.test share else e }
  | .wbuf c o => s.setCore c { s.core c with wbuf := writeBytes (s.core c).wbuf o bs }
  | .abuf c o => s.setCore c { s.core c with abuf := writeBytes (s.core c).abuf o bs }
  | .cbuf c o => s.setCore c { s.core c with cbuf := writeBytes (s.core c).cbuf o bs }
  | _ => s

/-- A store writes its bytes (R163). -/
def State.writeLoc (s : State) (w : Nat) (l : Loc) (bs : List Byte) (norep : Bool) : State :=
  match l with
  | .phys a => s.writeFor w a bs norep
  | .conf a => s.writeTeam (s.teamOf w) (some (s.keyOf (s.vfOf w))) a bs norep
  | .win _ => s
  | l => (s.writeInner l bs).writeClear l bs.length

/-- Whether a location's data is poisoned (R320). -/
def State.poisonLoc (s : State) (l : Loc) (n : Nat) : Bool :=
  match l with
  | .win _ => false
  | l => s.poisoned l.markKey n

/-- A refusal of a translated access from a core is logged: by the die-to-die port that refuses it, or by the root of trust
for a write to an image's page (R261, R266, R290). -/
def State.logRefused (s : State) (core world : Nat) (sys : Option Bool) (write : Bool) (pa : Nat) : State :=
  if s.portRefuses (dieOf core) world pa then s.refuseWorld (Config.homeDie pa % 8) pa sys
  else if write && s.guarded pa then s.logSys (ioDie 0) (BitVec.ofNat 64 pa)
  else s

/-- A refused access of a VF from a core, to a page that its translation allows it, is logged; `open_` allows a CONF page. -/
def State.logPortAt (s : State) (vf core : Nat) (sys : Option Bool) (write open_ : Bool) (addr : Word) : State :=
  if 2 ^ 56 ≤ addr.toNat then s
  else match translate s (clusterOf core) vf addr.toNat with
    | .leaf l =>
      if (l.conf && !open_) || (write && !l.w) then s
      else s.logRefused core (s.partWorld (s.vfPart vf)) sys write (l.pa addr.toNat)
    | _ => s
/-- The same of a wave's access; `acc` is what it does. -/
def State.logPort (s : State) (w : Nat) (acc : Acc) (addr : Word) : State :=
  s.logPortAt (s.vfOf w) (coreOf w) (some (s.wave w).system) acc.writes false addr
/-- A resolved fault of a wave's access, logged where it is a refusal. -/
def State.logFault (s : State) (w : Nat) (acc : Acc) (c : Cause) (addr : Word) : State :=
  if c = .prot then s.logPort w acc addr else s

/-- A fetch that a die-to-die port refuses is logged (R266). -/
def State.logFetch (s : State) (w : Nat) (addr : Word) : State :=
  if 2 ^ 56 ≤ addr.toNat then s
  else match translate s (clusterOf (coreOf w)) (s.vfOf w) addr.toNat with
    | .leaf l =>
      if !l.x || l.conf then s
      else s.logRefused (coreOf w) (s.partWorld (s.partOf w)) (some (s.wave w).system) false (l.pa addr.toNat)
    | _ => s

/-- The bytes that an effect in the commit gate reads or writes. -/
def Effect.ranges : Effect → List (Loc × Nat)
  | .read es => es.map fun e => (e.loc, e.size)
  | .store es => es.map fun e => (e.loc, e.size)
  | .atomic _ es => es.map fun e => (e.loc, e.size)
/-- Whether one of them is among `n` bytes from a location. -/
def Effect.hits (e : Effect) (l : Loc) (n : Nat) : Bool :=
  e.ranges.any fun r => decide (r.1.markKey < l.markKey + n) && decide (l.markKey < r.1.markKey + r.2)
/-- An effect of the wave in the commit gate touches `n` bytes from a location. -/
def Wave.gateHits (W : Wave) (l : Loc) (n : Nat) : Bool := W.gates.any fun g => g.effect.hits l n

/-- Whether the page of a resolved location has NOREPLAY (R322). -/
def Res.norep : Res → Bool
  | .ok _ (some l) => l.noreplay
  | _ => false

end Sys2Proof.Machine
end

