-- ==== Sys2Proof/Machine/Engine.lean ====
section
/-! DEFINITION. Machine/Engine.lean: buffer records (R194, R195), the engine's view of the spaces (R37, R197), and how a
transfer reads its source (R200). -/
namespace Sys2Proof.Machine

/-! ### Records (R194, R195) -/

/-- The 32 bytes of a record, as a number. -/
def BufRec.ofNat (v : Nat) : BufRec :=
  { base := BitVec.ofNat 64 v, extent := bitsOf v 64 32, stride1 := bitsOf v 96 32, stride2 := bitsOf v 128 32
    count0 := bitsOf v 160 16, count1 := bitsOf v 176 16, count2 := bitsOf v 192 16, fmt := bitsOf v 208 8
    bounds := bitsOf v 216 2, reserved := bitsOf v 218 38 }

/-- A record of no element. -/
def BufRec.empty : BufRec := BufRec.ofNat 0

def BufRec.q4 (r : BufRec) : Bool := decide (0x0B ≤ r.fmt) && decide (r.fmt ≤ 0x0E)
/-- Bytes of an element; 0 for q4 and for the reserved codes. -/
def BufRec.size (r : BufRec) : Nat := [4, 2, 2, 1, 1, 4, 4, 2, 2, 1, 1, 0, 0, 0, 0, 1].getD r.fmt 0
/-- n. -/
def BufRec.count (r : BufRec) : Nat := r.count0 * r.count1 * r.count2
/-- Bytes of a dense q4 record: the codes, then the scales. -/
def BufRec.dense (r : BufRec) : Nat := r.count / 2 + r.count / 32
/-- Bytes of the elements. -/
def BufRec.bytes (r : BufRec) : Nat := if r.q4 then r.dense else r.count * r.size

/-- The offset of element e in traversal order, before BOUNDS. -/
def BufRec.offset (r : BufRec) (e : Nat) : Nat :=
  e % r.count0 * r.size + e / r.count0 % r.count1 * r.stride1 + e / r.count0 / r.count1 * r.stride2
def BufRec.inBounds (r : BufRec) (e : Nat) : Bool := decide (r.offset e + r.size ≤ r.extent)
/-- Where element e lies, none for one that BOUNDS clamps. -/
def BufRec.place (r : BufRec) (e : Nat) : Option Nat :=
  if r.inBounds e then some (r.offset e)
  else if r.bounds = 1 then none
  else if r.bounds = 2 then some (r.offset e % r.extent)
  else some (r.offset e)

/-- The pieces of a unit of a record, as offsets and bytes: a q4 block's codes and scale, else its elements, 32 of them
where the unit is a block (`blk`). -/
def BufRec.pieces (r : BufRec) (blk : Bool) (e : Nat) : List (Option Nat × Nat) :=
  if r.q4 then
    ((List.range 16).map fun i => (some (16 * e + i), 1)) ++ [(some (r.count / 2 + e), 1)]
  else if blk then (List.range 32).map fun i => (r.place (32 * e + i), r.size)
  else [(r.place e, r.size)]

/-! ### Spaces (R37) -/

inductive Space where
  | tenant | team | cluster | wbuf | abuf | cbuf | system | hole
deriving DecidableEq, Repr

def spaceOf (a : Word) : Space :=
  let n := a.toNat
  if n < 2 ^ 56 then .tenant
  else if n < 0xFE00000000000000 then .hole
  else if n < 0xFE10000000000000 then .wbuf
  else if n < 0xFE20000000000000 then .abuf
  else if n < 0xFE30000000000000 then .cbuf
  else if n < 0xFF00000000000000 then .hole
  else if n < 0xFF10000000000000 then .team
  else if n < 0xFF20000000000000 then .cluster
  else if n < 0xFFF0000000000000 then .hole
  else .system

/-- A scratchpad window or a typed buffer (R197). -/
def Space.inner : Space → Bool
  | .team | .cluster | .wbuf | .abuf | .cbuf => true
  | _ => false
def Space.typed : Space → Bool
  | .wbuf | .abuf | .cbuf => true
  | _ => false
/-- The offset of an address in its space of 2^52 bytes. -/
def spaceOff (a : Word) : Nat := a.toNat % 2 ^ 52

/-- The bytes of a typed buffer of a bank. -/
def Space.loc (sp : Space) (core off : Nat) : Loc :=
  match sp with
  | .wbuf => .wbuf core off
  | .abuf => .abuf core off
  | _ => .cbuf core off

/-- The translation and permission of an engine's element on tenant memory, for a bank; `open_` allows a CONF page, and in
a confidential world the engine is then behind its ciphertext (R267; log 27). -/
def engTenant (s : State) (vf b : Nat) (write open_ : Bool) (va : Nat) : Res :=
  let core := coreOfBank b
  match translate s (clusterOf core) vf va with
  | .malformed => .fault .xlate
  | .absent base _ gsz => if s.vfReplay vf then .park base gsz else .fault .xlate
  | .leaf l =>
    if l.conf && !open_ then .fault .prot
    else if write && (!l.w || s.guarded (l.pa va)) then .fault .prot
    else if s.portRefuses (dieOf core) (s.partWorld (s.vfPart vf)) (l.pa va) then .fault .prot
    else if l.conf && s.partWorld (s.vfPart vf) != 0 then .ok (.conf (l.pa va)) (some l)
    else .ok (.phys (l.pa va)) (some l)

/-- An element of `n` bytes at an offset from BASE, at bank `b` of a team. -/
def engLoc (s : State) (t : Team) (b : Nat) (write open_ : Bool) (base : Word) (o n : Nat) : Res :=
  let off := spaceOff base + o
  match spaceOf base with
  | .tenant => if 2 ^ 56 < base.toNat + o + n then .fault .xlate else engTenant s t.vf b write open_ (base.toNat + o)
  | .team => if off + n ≤ t.spSize then .ok (.share b off) none else .fault .spbound
  | .cluster => if off + n ≤ t.clSize && s.clOpen t off then .ok (t.clLoc off) none else .fault .spbound
  | .hole => .fault .xlate
  | .system => .fault .prot
  | sp => if off + n ≤ s.bufSize b then .ok (sp.loc (coreOfBank b) (s.bufBase b + off)) none else .fault .bufbound

/-- Hold the translations that pieces have used; the bank's die sees what has been written to their lines (R225). -/
def State.holdPieces (s : State) (t : Team) (b : Nat) (write open_ : Bool) (base : Word)
    (ps : List (Option Nat × Nat)) : State :=
  ps.foldl (fun u p => match p.1 with
    | none => u
    | some o => match engLoc u t b write open_ base o p.2 with
      | .ok loc (some l) =>
        let v := u.hold (clusterOf (coreOfBank b)) t.vf (base.toNat + o) l
        (match loc with | .phys a | .conf a => v.observe (dieOf (coreOfBank b)) a | _ => v)
      | _ => u) s

/-! ### Reading the source -/

/-- The offset of the first element among pieces. -/
def firstOff (ps : List (Option Nat × Nat)) : Nat := (ps.findSome? (·.1)).getD 0

/-- An engine at a bank parks on a granule (R48, R269). -/
def State.parkEngine (s : State) (x : Xfer) (b : Nat) (g : Nat × Nat) (rd : Bool) : State :=
  (s.parkRecord x.vf g rd (!rd) false none).countEvent (coreOfBank b) 0x0C (some x.sys)

/-- What reading a unit comes to. -/
inductive UnitRead where
  | ok (bs : List (Byte × Bool))
  | fault (c : Cause) (addr : Word)
  | park (base gsz : Nat)
deriving DecidableEq, Repr

/-- The data of an engine's element. -/
def State.engRead (s : State) (t : Team) (l : Loc) (n : Nat) : Nat :=
  match l with
  | .phys a => s.readTeam (some t) none a n
  | .conf a => s.readTeam (some t) (some (s.keyOf t.vf)) a n
  | l => s.readLoc 0 l n

/-- A byte that an engine reads as an integrity failure: it lies in a line that is not sealed under the world's key
(R266, R267). -/
def State.unsealed (s : State) (t : Team) (l : Loc) (i : Nat) : Bool :=
  match l with
  | .conf a => !t.rerun && !s.sealed (s.keyOf t.vf) ((a + i) / 128)
  | _ => false

/-- An engine's bytes with their poison marks. -/
def State.engBytes (s : State) (t : Team) (l : Loc) (n : Nat) : List (Byte × Bool) :=
  (leBytes n (s.engRead t l n)).zipIdx.map fun e => (e.1, s.poisoned (l.markKey + e.2) 1 || s.unsealed t l e.2)

/-- Units are blocks where a record is q4. -/
def Xfer.blk (x : Xfer) : Bool := x.src.q4 || x.dst.q4
/-- Whether a CONF page may be read, and written: the other side is inner (R197). -/
def Xfer.openSrc (x : Xfer) : Bool := x.kind != .nsend && (spaceOf x.dst.base).inner
def Xfer.openDst (x : Xfer) : Bool := x.kind != .recv && (spaceOf x.src.base).inner
/-- A transfer that has stopped on a fault counts as complete (R286). -/
def Xfer.stopped (x : Xfer) : Bool := x.fault.isSome && x.chainDue == []

/-- The pieces of a unit of a transfer's source, each with its key among the bytes kept early. -/
def Xfer.srcPieces (x : Xfer) (e : Nat) : List (Nat × (Option Nat × Nat)) :=
  (x.src.pieces x.blk e).zipIdx.map fun p => (64 * e + p.2, p.1)

/-- A piece of a transfer's source: a clamped one reads as zero, and one that the slot has since been about to overwrite
as it was (R200). Bytes that move unchanged take their poison marks with them (R320); a conversion of poisoned ones may end in
an engine fault instead (R305; log 24). -/
def readPiece (s : State) (x : Xfer) (p : Nat × (Option Nat × Nat)) : UnitRead :=
  match p.2 with
  | (none, n) => .ok (List.replicate n (0, false))
  | (some o, n) =>
    let addr := x.src.base + BitVec.ofNat 64 o
    let taken (bs : List (Byte × Bool)) : UnitRead :=
      if x.kind == .convert && bs.any (·.2) && Config.enginePoison s.tick then .fault .poison addr else .ok bs
    match SMap.find? x.early p.1 with
    | some bs => taken bs
    | none =>
      match engLoc s x.team (bankOf x.wave) false x.openSrc x.src.base o n with
      | .fault c => .fault c addr
      | .park g z => .park g z
      | .ok l _ => taken (s.engBytes x.team l n)

/-- The bytes of pieces, in order. -/
def readPieces (s : State) (x : Xfer) : List (Nat × (Option Nat × Nat)) → UnitRead
  | [] => .ok []
  | p :: ps =>
    match readPiece s x p with
    | .ok bs =>
      match readPieces s x ps with
      | .ok cs => .ok (bs ++ cs)
      | r => r
    | r => r

/-- Whether an operation of the matrix order is to write a tile that a location lies in. -/
def MatrixOp.writes (o : MatrixOp) (s : State) (l : Loc) : Bool :=
  match o.target, l with
  | .inr t, .cbuf _ off =>
    let base := s.bufBase o.bank + 0x10000 * t.toNat
    decide (base ≤ off) && decide (off < base + 0x10000)
  | _, _ => false

/-- Keep the source bytes that a transfer has not read yet, as they stand: but for those that cannot be reached yet, and
those that an earlier operation of the matrix order is still to write (R183). -/
def Xfer.capture (x : Xfer) (s : State) : Xfer :=
  let ops := (s.core (coreOf x.wave)).queue.take x.cbufWait
  let keep (m : SMap (List (Byte × Bool))) (p : Nat × (Option Nat × Nat)) : SMap (List (Byte × Bool)) :=
    match p.2 with
    | (none, _) => m
    | (some o, n) =>
      if (SMap.find? m p.1).isSome then m
      else
        match engLoc s x.team (bankOf x.wave) false x.openSrc x.src.base o n with
        | .ok l _ => if ops.any fun o => o.writes s l then m else SMap.insert m p.1 (s.engBytes x.team l n)
        | _ => m
  { x with early := (((List.range x.units).drop x.data.length).flatMap x.srcPieces).foldl keep x.early }

/-- Before a write by a wave: what its transfers have still to read is kept as it stands (R200). -/
def State.capture (s : State) (w : Nat) : State :=
  { s with xfers := s.xfers.map fun x =>
      if x.wave = w ∧ x.fault.isNone = true ∧ x.data.length < x.units then x.capture s else x }

/-! ### Bounce channels (R309, R310) -/

/-- The tenant addresses of a record's elements. -/
def BufRec.addrs (r : BufRec) : List Nat :=
  if r.q4 then (List.range r.dense).map fun i => r.base.toNat + i
  else (List.range r.count).filterMap fun e => (r.place e).map fun o => r.base.toNat + o

/-- Only a VF of a partition in world 0 has channel blocks (R309). -/
def State.hasBounce (s : State) (u : Nat) : Bool := s.partWorld (s.vfPart u) == 0
/-- Bounce channels that are enabled and of a direction, or halted. -/
def State.channels (s : State) (out : Bool) : List (Nat × Nat) :=
  ((List.range 192).filter s.hasBounce).flatMap fun v => ((List.range 4).filter fun j =>
    let r := bounceOff v j + 8
    s.regBits r 16 1 == 1 && (s.regBits r 18 1 == 1 || (s.regBits r 17 1 == 1) == out)).map fun j => (v, j)

/-- The physical page of slot `k` of a channel's ring. -/
def State.ringPage (s : State) (c : Nat × Nat) (k : Nat) : Option Nat :=
  let va := (s.reg (bounceOff c.1 c.2)).toNat + 4096 * k
  match walk s c.1 va with
  | .leaf l => some (pageOf (l.pa va))
  | _ => none
def State.ringSlots (s : State) (c : Nat × Nat) : Nat := 2 ^ s.regBits (bounceOff c.1 c.2 + 8) 0 4

/-- The physical page that a tenant address lies on; none where it is not resident. -/
def State.pageAt (s : State) (core vf a : Nat) : Option Nat :=
  match translate s (clusterOf core) vf a with
  | .leaf l => some (pageOf (l.pa a))
  | _ => none
/-- The physical page that each element of a record lies on. -/
def State.recPages (s : State) (core vf : Nat) (r : BufRec) : List (Option Nat) :=
  if spaceOf r.base ≠ .tenant then [] else r.addrs.map (s.pageAt core vf)
/-- The tenant pages of a record that are not resident. -/
def State.unmappedPages (s : State) (core vf : Nat) (r : BufRec) : List Nat :=
  if spaceOf r.base ≠ .tenant then []
  else ((r.addrs.filter fun a => (s.pageAt core vf a).isNone).map (· / 4096)).eraseDups

/-- HSEQ and DSEQ of a channel. -/
def State.hseq (s : State) (c : Nat × Nat) : Nat := s.regBits (bounceOff c.1 c.2 + 16) 0 32
def State.dseq (s : State) (c : Nat × Nat) : Nat := s.regBits (bounceOff c.1 c.2 + 16) 32 32

/-- Elements on these pages lie wholly within the channel's next slot, as far as they are resident. -/
def State.inNextSlot (s : State) (c : Nat × Nat) (pages : List (Option Nat)) : Bool :=
  pages.all fun p => p.isNone || s.ringPage c (s.dseq c % s.ringSlots c) == p

/-- Whether a copy of a VF on these pages consumes, or fills, the channel's next slot. -/
def State.consumes (s : State) (vf : Nat) (c : Nat × Nat) (out : Bool) (pages : List (Option Nat)) : Bool :=
  let n := s.ringSlots c
  let ahead := (s.hseq c + 2 ^ 32 - s.dseq c) % 2 ^ 32
  let behind := (s.dseq c + 2 ^ 32 - s.hseq c) % 2 ^ 32
  s.regBits (bounceOff c.1 c.2 + 8) 8 8 == vf && s.regBits (bounceOff c.1 c.2 + 8) 18 1 == 0
    && s.inNextSlot c pages
    && (if out then decide (behind < n) else decide (1 ≤ ahead) && decide (ahead ≤ n))
    && !s.xfers.any fun x => x.bounce.contains c

/-- The channels, of a direction or halted, whose rings these pages touch. -/
def State.touched (s : State) (out : Bool) (pages : List (Option Nat)) : List (Nat × Nat) :=
  (s.channels out).filter fun c => (List.range (s.ringSlots c)).any fun k =>
    match s.ringPage c k with
    | some p => pages.contains (some p)
    | none => false

/-- A copy touches a ring and does not consume its next slot. -/
def State.bounceBad (s : State) (vf : Nat) (out : Bool) (pages : List (Option Nat)) : Bool :=
  (s.touched out pages).any fun c => !s.consumes vf c out pages

/-- A transfer reaches elements on pages that were not resident at issue: it takes up a ring that they touch if it may
consume it now, and stops if it may not, or leaves the slot that it consumes (log 65). Answers the transfer, or none where it
stops. -/
def Xfer.reach (x : Xfer) (s : State) (out : Bool) (b : Nat) (ps : List (Option Nat × Nat)) : Option Xfer :=
  let r := if out then x.dst else x.src
  let late := ps.filterMap fun p => match p.1 with
    | some o => if x.unmapped.contains ((r.base.toNat + o) / 4096) then some (r.base.toNat + o) else none
    | none => none
  if late = [] ∨ spaceOf r.base ≠ .tenant then some x
  else
    let core := coreOfBank b
    let pages := s.recPages core x.vf r
    let held := x.bounce.filter fun c => (s.regBits (bounceOff c.1 c.2 + 8) 17 1 == 1) == out
    let new := (s.touched out (late.map (s.pageAt core x.vf))).filter fun c => !x.bounce.contains c
    if held.all (fun c => s.inNextSlot c pages) && new.all (fun c => s.consumes x.vf c out pages) then
      some { x with bounce := x.bounce ++ new }
    else none

/-- Read up to `fuel` more units: to the end, or up to a fault or a granule. -/
def readUnits : Nat → State → Xfer → State × Xfer
  | 0, s, x => (s, x)
  | fuel + 1, s, x =>
    let b := bankOf x.wave
    let ps := x.src.pieces x.blk x.data.length
    match readPieces s x (x.srcPieces x.data.length) with
    | .ok bs =>
      match x.reach s false b ps with
      | some y => readUnits fuel (s.holdPieces x.team b false x.openSrc x.src.base ps) { y with data := x.data ++ [bs] }
      | none =>
        (s.abortBounce x.bounce
        , { x with fault := some (.prot, x.src.base + BitVec.ofNat 64 (firstOff ps)), chainDue := [], bounce := [] })
    | .fault c a =>
      let s1 := if c = .prot then s.logPortAt x.vf (coreOfBank b) (some x.sys) false x.openSrc a else s
      (s1.abortBounce x.bounce, { x with fault := some (c, a), chainDue := [], bounce := [] })
    | .park g z => (s.parkEngine x b (g, z) true, { x with granule := some (g, z) })

/-- Read what is still to be read. -/
def readSource (s : State) (x : Xfer) : State × Xfer :=
  if x.cbufWait ≠ 0 then (s, x) else readUnits (x.units - x.data.length) s x

def State.setXfer (s : State) (x : Xfer) : State :=
  { s with xfers := s.xfers.map fun y => if y.key = x.key then x else y }

/-- Write-outs of a core that wait one operation less; those that wait no more read (R183). -/
def State.cbufReady (s : State) (core : Nat) : State :=
  s.xfers.foldl (fun t x =>
    if coreOfBank (bankOf x.wave) ≠ core ∨ x.cbufWait = 0 then t
    else
      let r := readSource t { x with cbufWait := x.cbufWait - 1 }
      r.1.setXfer r.2) s

end Sys2Proof.Machine
end

