-- ==== Sys2Proof/Machine/Fp.lean ====
section
/-! DEFINITION. Machine/Fp.lean: number formats and arithmetic (R52–R70). A finite value is exact: a sign, a natural
mantissa and a binary exponent. Every result is formed exactly and rounded once (R57). -/
namespace Sys2Proof.Machine

/-- The float formats (R52). -/
inductive FFmt where
  | f32 | f16 | bf16 | e4m3 | e5m2
deriving DecidableEq, Repr

def FFmt.index : FFmt → Nat | .f32 => 0 | .f16 => 1 | .bf16 => 2 | .e4m3 => 3 | .e5m2 => 4
def FFmt.ebits : FFmt → Nat | .f32 => 8 | .f16 => 5 | .bf16 => 8 | .e4m3 => 4 | .e5m2 => 5
def FFmt.mbits : FFmt → Nat | .f32 => 23 | .f16 => 10 | .bf16 => 7 | .e4m3 => 3 | .e5m2 => 2
def FFmt.bias : FFmt → Nat | .f32 => 127 | .f16 => 15 | .bf16 => 127 | .e4m3 => 7 | .e5m2 => 15
/-- Bits of the format. -/
def FFmt.width (f : FFmt) : Nat := 1 + f.ebits + f.mbits
/-- E4M3 alone has no infinities. -/
def FFmt.hasInf : FFmt → Bool | .e4m3 => false | _ => true
/-- The canonical NaN (R52). -/
def FFmt.nan : FFmt → Nat | .f32 => 0x7FC00000 | .f16 => 0x7E00 | .bf16 => 0x7FC0 | .e4m3 => 0x7F | .e5m2 => 0x7E
/-- The largest finite value's bits (R52). -/
def FFmt.maxBits : FFmt → Nat | .f32 => 0x7F7FFFFF | .f16 => 0x7BFF | .bf16 => 0x7F7F | .e4m3 => 0x7E | .e5m2 => 0x7B
/-- The exponent of the smallest subnormal. -/
def FFmt.emin (f : FFmt) : Int := 1 - (f.bias : Int) - (f.mbits : Int)
/-- The sign bit in place. -/
def FFmt.signBit (f : FFmt) (neg : Bool) : Nat := if neg then 2 ^ (f.width - 1) else 0
/-- Infinity's bits. -/
def FFmt.infBits (f : FFmt) (neg : Bool) : Nat := f.signBit neg + (2 ^ f.ebits - 1) * 2 ^ f.mbits

/-- A value: NaN, an infinity, or ±m × 2^e. -/
inductive Num where
  | nan
  | inf (neg : Bool)
  | fin (neg : Bool) (m : Nat) (e : Int)
deriving DecidableEq, Repr

/-- The value of a pattern (R52, R53). -/
def FFmt.value (f : FFmt) (bits : Nat) : Num :=
  let neg := bits / 2 ^ (f.width - 1) % 2 == 1
  let e := bits / 2 ^ f.mbits % 2 ^ f.ebits
  let m := bits % 2 ^ f.mbits
  if e = 2 ^ f.ebits - 1 ∧ f.hasInf then (if m = 0 then .inf neg else .nan)
  else if e = 15 ∧ m = 7 ∧ f = .e4m3 then .nan
  else if e = 0 then .fin neg m f.emin
  else .fin neg (m + 2 ^ f.mbits) (f.emin + ((e : Int) - 1))

/-- A signed integer times 2^e; zero takes the sign given. -/
def Num.ofInt (z : Bool) (i : Int) (e : Int) : Num :=
  if i = 0 then .fin z 0 0 else .fin (decide (i < 0)) i.natAbs e

/-- The signed mantissa of a finite value at an exponent no larger than its own. -/
def signedAt (neg : Bool) (m : Nat) (e at_ : Int) : Int :=
  let v : Int := (m * 2 ^ (e - at_).toNat : Nat)
  if neg then -v else v

/-- Exact addition. An exact zero of operands of opposite sign is +0, or −0 under RDN (R62). -/
def Num.add (rm : Rm) : Num → Num → Num
  | .nan, _ => .nan
  | _, .nan => .nan
  | .inf a, .inf b => if a = b then .inf a else .nan
  | .inf a, _ => .inf a
  | _, .inf b => .inf b
  | .fin na ma ea, .fin nb mb eb =>
    let e := if ma = 0 then eb else if mb = 0 then ea else min ea eb
    let i := (if ma = 0 then 0 else signedAt na ma ea e) + (if mb = 0 then 0 else signedAt nb mb eb e)
    Num.ofInt (if na = nb then na else decide (rm = .rdn)) i e

def Num.neg : Num → Num
  | .nan => .nan
  | .inf a => .inf (!a)
  | .fin a m e => .fin (!a) m e

/-- Exact multiplication; 0 × ∞ is NaN (R61). -/
def Num.mul : Num → Num → Num
  | .nan, _ => .nan
  | _, .nan => .nan
  | .inf a, .inf b => .inf (a != b)
  | .inf a, .fin b m _ => if m = 0 then .nan else .inf (a != b)
  | .fin a m _, .inf b => if m = 0 then .nan else .inf (a != b)
  | .fin a ma ea, .fin b mb eb => .fin (a != b) (ma * mb) (ea + eb)

/-- Ordering of finite magnitudes m × 2^e. -/
def magLt (ma : Nat) (ea : Int) (mb : Nat) (eb : Int) : Bool :=
  let e := min ea eb
  decide (ma * 2 ^ (ea - e).toNat < mb * 2 ^ (eb - e).toNat)

/-- a < b for values that are not NaN; zeros are equal. -/
def Num.lt : Num → Num → Bool
  | .nan, _ => false
  | _, .nan => false
  | .inf a, .inf b => a && !b
  | .inf a, .fin .. => a
  | .fin .., .inf b => !b
  | .fin na ma ea, .fin nb mb eb =>
    if ma = 0 ∧ mb = 0 then false
    else if ma = 0 then !nb
    else if mb = 0 then na
    else if na ≠ nb then na
    else if na then magLt mb eb ma ea else magLt ma ea mb eb

def Num.isNan : Num → Bool | .nan => true | _ => false
def Num.isZero : Num → Bool | .fin _ 0 _ => true | _ => false
def Num.isNeg : Num → Bool | .nan => false | .inf a => a | .fin a _ _ => a
/-- a = b; zeros of either sign are equal, NaN equals nothing. -/
def Num.eq (a b : Num) : Bool := !a.isNan && !b.isNan && !a.lt b && !b.lt a

/-! ### Rounding (R57, R58) -/

/-- floor(log2(num / den)) for positive num and den. -/
def log2Rat (num den : Nat) : Int :=
  let k : Int := (num.log2 : Int) - (den.log2 : Int)
  let ge := if 0 ≤ k then decide (den * 2 ^ k.toNat ≤ num) else decide (den ≤ num * 2 ^ (-k).toNat)
  if ge then k else k - 1

/-- num / den × 2^e as a whole number of 2^q, the remainder and the divisor. -/
def atGrid (num den : Nat) (e q : Int) : Nat × Nat × Nat :=
  let d := e - q
  let n := if 0 ≤ d then num * 2 ^ d.toNat else num
  let k := if 0 ≤ d then den else den * 2 ^ (-d).toNat
  (n / k, n % k, k)

/-- Whether a magnitude with remainder r of k, above n, rounds away from zero. -/
def roundsUp (rm : Rm) (neg : Bool) (n r k : Nat) : Bool :=
  match rm with
  | .rne => decide (k < 2 * r) || (decide (2 * r = k) && n % 2 == 1)
  | .rtz => false
  | .rdn => neg && r != 0
  | .rup => !neg && r != 0

/-- The grid exponent of a positive magnitude in a format: unbounded above, subnormals honoured (R57). -/
def FFmt.grid (f : FFmt) (num den : Nat) (e : Int) : Int := max (log2Rat num den + e - (f.mbits : Int)) f.emin

/-- A rounded result: a pattern, or an overflow of a sign (R57). -/
inductive Rounded where
  | bits (b : Nat)
  | over (neg : Bool)
deriving DecidableEq, Repr

/-- The pattern of ±n × 2^q, n at most 2^(mbits+1), on the format's grid. -/
def FFmt.encode (f : FFmt) (neg : Bool) (n : Nat) (q : Int) : Rounded :=
  if n < 2 ^ f.mbits then .bits (f.signBit neg + n)
  else
    let big := decide (2 ^ (f.mbits + 1) ≤ n)
    let m := if big then n / 2 else n
    let e := ((if big then q + 1 else q) - f.emin + 1).toNat
    let b := e * 2 ^ f.mbits + (m - 2 ^ f.mbits)
    if f.maxBits < b then .over neg else .bits (f.signBit neg + b)

/-- Round ±num/den × 2^e once (R57). -/
def FFmt.roundRat (f : FFmt) (rm : Rm) (neg : Bool) (num den : Nat) (e : Int) : Rounded :=
  if num = 0 then .bits (f.signBit neg)
  else
    let q := f.grid num den e
    let (n, r, k) := atGrid num den e q
    f.encode neg (if roundsUp rm neg n r k then n + 1 else n) q

/-- Round a value once into a format. An infinity into a format without one is an overflow (R60). -/
def FFmt.round (f : FFmt) (rm : Rm) : Num → Rounded
  | .nan => .bits f.nan
  | .inf neg => if f.hasInf then .bits (f.infBits neg) else .over neg
  | .fin neg m e => f.roundRat rm neg m 1 e

/-- The stochastic choice: away from zero when r[31:8] < floor(f × 2^24) (R58). -/
def stochUp (draw : W32) (r k : Nat) : Bool := decide (draw.toNat / 256 < r * 2 ^ 24 / k)

/-- Round a value stochastically (R58). -/
def FFmt.roundStoch (f : FFmt) (draw : W32) : Num → Rounded
  | .fin neg m e =>
    if m = 0 then .bits (f.signBit neg)
    else
      let q := f.grid m 1 e
      let (n, r, k) := atGrid m 1 e q
      f.encode neg (if stochUp draw r k then n + 1 else n) q
  | x => f.round .rne x

/-! ### Overflow policies (R60) -/

/-- An overflowed result under a policy; `none` for TRAP. -/
def FFmt.overflow (f : FFmt) (neg : Bool) : Ovf → Option Nat
  | .sat => some (f.signBit neg + f.maxBits)
  | .inf => some (if f.hasInf then f.infBits neg else f.nan)
  | .nan => some f.nan
  | .trap => none

def FFmt.finish (f : FFmt) (o : Ovf) : Rounded → Option Nat
  | .bits b => some b
  | .over neg => f.overflow neg o

/-- Rounding where an overflow becomes an infinity: the array, XV and atomics have no OVF field (R66, R167, R150). -/
def FFmt.roundInf (f : FFmt) (rm : Rm) (x : Num) : Nat := (f.finish .inf (f.round rm x)).getD 0

/-! ### Integers (R54, R64) -/

/-- An integer type: its width and whether it is signed. -/
structure IFmt where
  width : Nat
  signed : Bool
deriving DecidableEq, Repr

def IFmt.lo (t : IFmt) : Int := if t.signed then -(2 ^ (t.width - 1) : Nat) else 0
def IFmt.hi (t : IFmt) : Int := ((if t.signed then 2 ^ (t.width - 1) else 2 ^ t.width : Nat) : Int) - 1
/-- The value of a pattern. -/
def IFmt.value (t : IFmt) (bits : Nat) : Int :=
  let v := bits % 2 ^ t.width
  if t.signed && decide (2 ^ (t.width - 1) ≤ v) then (v : Int) - (2 ^ t.width : Nat) else v
/-- The pattern of an integer, in two's complement. -/
def IFmt.bits (t : IFmt) (i : Int) : Nat := (i % (2 ^ t.width : Nat)).toNat

/-- A value rounded to an integer, by mode or by a draw. -/
def roundInt (rm : Rm) (draw : Option W32) (neg : Bool) (m : Nat) (e : Int) : Int :=
  let (n, r, k) := atGrid m 1 e 0
  let up := match draw with
    | some d => stochUp d r k
    | none => roundsUp rm neg n r k
  let v : Int := (if up then n + 1 else n : Nat)
  if neg then -v else v

/-- An integer into a type: out of range is an overflow, and INF and NAN act as SAT (R60, R64). -/
def IFmt.fit (t : IFmt) (o : Ovf) (i : Int) : Option Nat :=
  if t.lo ≤ i ∧ i ≤ t.hi then some (t.bits i)
  else if o = .trap then none
  else some (t.bits (if i < 0 then t.lo else t.hi))

/-- A value into an integer type (R60, R62, R64). -/
def IFmt.ofNum (t : IFmt) (rm : Rm) (o : Ovf) (draw : Option W32) : Num → Option Nat
  | .nan => if o = .trap then none else some 0
  | .inf neg => if o = .trap then none else some (t.bits (if neg then t.lo else t.hi))
  | .fin neg m e => t.fit o (roundInt rm draw neg m e)

/-! ### Types of VCVT (R96, R134) -/

/-- A lane type as a float format or an integer type. -/
def LaneType.kind : LaneType → FFmt ⊕ IFmt
  | .f32 => .inl .f32
  | .f16 => .inl .f16
  | .bf16 => .inl .bf16
  | .e4m3 => .inl .e4m3
  | .e5m2 => .inl .e5m2
  | .i32 => .inr ⟨32, true⟩
  | .n32 => .inr ⟨32, false⟩
  | .i16 => .inr ⟨16, true⟩
  | .n16 => .inr ⟨16, false⟩
  | .i8 => .inr ⟨8, true⟩
  | .n8 => .inr ⟨8, false⟩

/-- The value of a lane in its type: the low bits (R52). -/
def laneValue (t : FFmt ⊕ IFmt) (bits : Nat) : Num :=
  match t with
  | .inl f => f.value (bits % 2 ^ f.width)
  | .inr i => Num.ofInt false (i.value bits) 0

/-- The exact source value into a destination type, by mode or by a draw; `none` where OVF TRAP traps (R64). -/
def convert (src dst : FFmt ⊕ IFmt) (rm : Rm) (o : Ovf) (draw : Option W32) (bits : Nat) : Option Nat :=
  match dst with
  | .inl f =>
    match draw with
    | some d => f.finish o (f.roundStoch d (laneValue src bits))
    | none => f.finish o (f.round rm (laneValue src bits))
  | .inr t =>
    match src with
    | .inr i => t.fit o (i.value bits)
    | .inl _ => t.ofNum rm o draw (laneValue src bits)

/-! ### Q4 blocks (R55, R56) -/

/-- Eight times the value of a code (R55). -/
def q4Times8 (t : BlockType) (c : Nat) : Int :=
  match t with
  | .int => [0, 8, 16, 24, 32, 40, 48, 56, -64, -56, -48, -40, -32, -24, -16, -8].getD c 0
  | .e2m1 => [0, 4, 8, 12, 16, 24, 32, 48, 0, -4, -8, -12, -16, -24, -32, -48].getD c 0
  | .pow2 => [0, 1, 2, 4, 8, 16, 32, 64, 0, -1, -2, -4, -8, -16, -32, -64].getD c 0
  | .hyb => [0, 8, 16, 24, 32, 48, 64, 96, 0, -8, -16, -24, -32, -48, -64, -96].getD c 0

/-- The type of a scale byte. -/
def scaleType (b : Nat) : BlockType :=
  match b / 64 % 4 with | 0 => .int | 1 => .e2m1 | 2 => .pow2 | _ => .hyb

/-- An element of a block (R55). -/
def q4Value (scale code : Nat) : Num :=
  if scale % 64 = 63 then .nan
  else Num.ofInt false (q4Times8 (scaleType scale) (code % 16)) ((scale % 64 : Nat) - 35)

/-- Eight times highT and lowT (R56). -/
def q4High (t : BlockType) : Int := match t with | .int => 56 | .e2m1 => 48 | .pow2 => 64 | .hyb => 96
def q4Low (t : BlockType) : Int := match t with | .int => -64 | .e2m1 => -48 | .pow2 => -64 | .hyb => -96

/-- a × 2^ea ≤ b × 2^eb. -/
def dyLe (a : Int) (ea : Int) (b : Int) (eb : Int) : Bool :=
  let e := min ea eb
  decide (a * (2 ^ (ea - e).toNat : Nat) ≤ b * (2 ^ (eb - e).toNat : Nat))

/-- A finite value as a signed mantissa and exponent. -/
def Num.dy : Num → Int × Int
  | .fin neg m e => (if neg then -(m : Int) else m, e)
  | _ => (0, 0)

/-- Every element lies in the type's range at scale 2^(E−32) (R56). -/
def q4Fits (t : BlockType) (xs : List Num) (e : Nat) : Bool :=
  xs.all fun x => dyLe (q4Low t) ((e : Int) - 35) x.dy.1 x.dy.2 && dyLe x.dy.1 x.dy.2 (q4High t) ((e : Int) - 35)

/-- |x − v| at a common scale: twice as many digits are never needed. -/
def q4Dist (t : BlockType) (x : Num) (e : Nat) (c : Nat) : Nat :=
  let low := min x.dy.2 ((e : Int) - 35)
  (x.dy.1 * (2 ^ (x.dy.2 - low).toNat : Nat) - q4Times8 t c * (2 ^ ((e : Int) - 35 - low).toNat : Nat)).natAbs

/-- The nearest code, ties to the code whose bit 0 is 0; a zero value is code 0 (R56). -/
def q4Code (t : BlockType) (x : Num) (e : Nat) : Nat :=
  (List.range 16).foldl (fun best c =>
    if c = 8 ∧ t ≠ .int then best
    else if q4Dist t x e c < q4Dist t x e best then c
    else if q4Dist t x e c = q4Dist t x e best ∧ c % 2 = 0 ∧ best % 2 = 1 then c
    else best) 0

/-- Quantise 32 values into one block: the scale byte and the codes (R56). -/
def quantise (t : BlockType) (xs : List Num) : Nat × List Nat :=
  if xs.any fun x => match x with | .fin .. => false | _ => true then
    (t.code.toNat * 64 + 63, xs.map fun _ => 0)
  else
    let e := ((List.range 63).find? (q4Fits t xs)).getD 62
    (t.code.toNat * 64 + e, xs.map fun x => q4Code t x e)

/-! ### Minimum, maximum, comparison (R63, R129) -/

/-- −0 orders below +0. -/
def Num.ltZ (a b : Num) : Bool := a.lt b || (a.isZero && b.isZero && a.isNeg && !b.isNeg)
/-- Minimum or maximum of patterns, with one NaN operand giving the other (R63). -/
def FFmt.minMax (f : FFmt) (isMax : Bool) (a b : Nat) : Nat :=
  let x := f.value a
  let y := f.value b
  if x.isNan && y.isNan then f.nan
  else if x.isNan then b
  else if y.isNan then a
  else if isMax then (if x.ltZ y then b else a) else (if y.ltZ x then b else a)

/-- The float comparisons of VCMP on FP32 lanes (R129). -/
def cmpFloat (c : VCond) (a b : Num) : Bool :=
  match c with
  | .feq => a.eq b
  | .fne => a.isNan || b.isNan || !a.eq b
  | .flt => a.lt b
  | .fle => a.lt b || a.eq b
  | .fgt => b.lt a
  | .fge => b.lt a || a.eq b
  | .funo => a.isNan || b.isNan
  | .ford => !(a.isNan || b.isNan)
  | _ => false

/-! ### Bounded functions (R69, R70) -/

/-- The bounded functions of VSFN and of the pips. -/
inductive Sfn where
  | rcp | rsq | sqrt | exp2 | log2 | sin | cos | tanh | sigm | erf | exp | log | gelu | gelut | silu | softp
deriving DecidableEq, Repr

def Sfn.index : Sfn → Nat
  | .rcp => 0 | .rsq => 1 | .sqrt => 2 | .exp2 => 3 | .log2 => 4 | .sin => 5 | .cos => 6 | .tanh => 7 | .sigm => 8
  | .erf => 9 | .exp => 10 | .log => 11 | .gelu => 12 | .gelut => 13 | .silu => 14 | .softp => 15

/-- The whole square root, by `fuel` bits from the top. -/
def isqrt : Nat → Nat → Nat → Nat
  | 0, _, r => r
  | k + 1, n, r => let c := r + 2 ^ k; if c * c ≤ n then isqrt k n c else isqrt k n r

/-! The functions are computed in fixed point, with 512 bits after the point: `fx` values below are whole numbers of
2^−512. Each is within 2^200 of them of the exact value. -/

def fxOne : Int := 2 ^ 512
def fxMul (a b : Int) : Int := a * b / 2 ^ 512
def fxDiv (a b : Int) : Int := a * 2 ^ 512 / b

/-- Σ z^i / i!, by `fuel` terms. -/
def expSeries : Nat → Int → Int → Int
  | 0, _, acc => acc
  | i + 1, z, acc => expSeries i z (fxOne + fxMul z acc / (i + 1 : Nat))
/-- Σ (±z²)^i / (2i + 1), where `sq` is ±z². -/
def atanSeries : Nat → Int → Int → Int
  | 0, _, acc => acc
  | i + 1, sq, acc => atanSeries i sq (fxOne / (2 * i + 1 : Nat) + fxMul sq acc)
/-- Σ (−z²)^i / (2i + d)!, d being 0 for the cosine and 1 for sin z ÷ z. -/
def trigSeries (d : Nat) : Nat → Int → Int → Int
  | 0, _, acc => acc
  | i + 1, sq, acc => trigSeries d i sq (fxOne - fxMul sq acc / ((2 * i + 1 + d) * (2 * i + 2 + d) : Nat))
/-- Σ (2z²)^i / (3 × 5 × … × (2i + 1)), where `w` is 2z². -/
def erfSeries : Nat → Int → Int → Int
  | 0, _, acc => acc
  | i + 1, w, acc => erfSeries i w (fxOne + fxMul w acc / (2 * i + 3 : Nat))

/-- ln((1 + z) / (1 − z)) for |z| up to 1/3. -/
def fxLog1 (z : Int) : Int := 2 * fxMul z (atanSeries 170 (fxMul z z) 0)
def fxLn2 : Int := fxLog1 (fxOne / 3)
/-- arctan(1/n). -/
def fxAtan (n : Nat) : Int := let z := fxOne / n; fxMul z (atanSeries 115 (-fxMul z z) 0)
def fxPi : Int := 16 * fxAtan 5 - 4 * fxAtan 239
/-- √a for a from 0. -/
def fxSqrt (a : Int) : Int := (isqrt 600 (a.natAbs * 2 ^ 512) 0 : Nat)

/-- e^z: 2^k × e^r with z = k × ln 2 + r; far out, a number beyond every format's range, or the smallest one. -/
def fxExp (z : Int) : Int :=
  if 1024 * fxOne ≤ z then 2 ^ 1024
  else if z ≤ -1024 * fxOne then 1
  else
    let k := z / fxLn2
    let y := expSeries 100 (z - k * fxLn2) fxOne
    if 0 ≤ k then y * 2 ^ k.toNat else y / 2 ^ (-k).toNat + 1
/-- ln of a positive number: the exponent and ln of the mantissa. -/
def fxLn (a : Int) : Int :=
  let k : Int := (a.natAbs.log2 : Int) - 512
  let w := if 0 ≤ k then a / 2 ^ k.toNat else a * 2 ^ (-k).toNat
  k * fxLn2 + fxLog1 (fxDiv (w - fxOne) (w + fxOne))
/-- sin(z + n × π/2). -/
def fxSin (z : Int) (n : Int) : Int :=
  let h := fxPi / 2
  let k := z / h
  let r := z - k * h
  let sq := fxMul r r
  let v := if (k + n) % 2 = 0 then fxMul r (trigSeries 1 65 sq fxOne) else trigSeries 0 65 sq fxOne
  if (k + n) % 4 < 2 then v else -v
/-- 1 / (1 + e^(−z)). -/
def fxSigm (z : Int) : Int :=
  if 0 ≤ z then min (fxDiv fxOne (fxOne + fxExp (-z))) (fxOne - 1) else let t := fxExp z; fxDiv t (fxOne + t)
/-- erf: 2/√π × z × e^(−z²) × the series; just below 1 in magnitude for large arguments. -/
def fxErf (z : Int) : Int :=
  if 15 * fxOne ≤ z then fxOne - 1
  else if z ≤ -15 * fxOne then 1 - fxOne
  else
    let sq := fxMul z z
    2 * fxDiv (fxDiv (fxMul z (erfSeries 900 (2 * sq) fxOne)) (fxExp sq)) (fxSqrt fxPi)

/-- A value that vanishes keeps the sign of its argument. -/
def fxLow (z v : Int) : Int := if z < 0 ∧ 0 ≤ v then -1 else v

/-- The functions of R69 and R150 at a finite number. -/
def Sfn.value (fn : Sfn) (z : Int) : Int :=
  match fn with
  | .rcp => fxDiv fxOne z
  | .rsq => fxSqrt (fxDiv fxOne z)
  | .sqrt => fxSqrt z
  | .exp2 => fxExp (fxMul (min (max z (-2048 * fxOne)) (2048 * fxOne)) fxLn2)
  | .exp => fxExp z
  | .log2 => fxDiv (fxLn z) fxLn2
  | .log => fxLn z
  | .sin => fxSin z 0
  | .cos => fxSin z 1
  | .tanh => if 0 ≤ z then 2 * fxSigm (2 * z) - fxOne else fxOne - 2 * fxSigm (-2 * z)
  | .sigm => fxSigm z
  | .erf => fxErf z
  | .gelu =>
    let r := fxDiv z (fxSqrt (2 * fxOne))
    fxLow z (fxMul z (fxOne + fxErf r) / 2)
  | .gelut =>
    let u := fxMul (fxSqrt (fxDiv (2 * fxOne) fxPi)) (z + fxMul (fxMul z z) z * 44715 / 1000000)
    fxLow z (fxMul z (fxSigm (2 * u)))
  | .silu => fxLow z (fxMul z (fxSigm z))
  | .softp =>
    if 0 ≤ z then let t := fxExp (-z); z + fxLog1 (fxDiv t (2 * fxOne + t))
    else let t := fxExp z; fxLog1 (fxDiv t (2 * fxOne + t))

/-- The bound in ulp (R69). -/
def Sfn.bound : Sfn → Nat
  | .rcp | .rsq | .sqrt | .exp2 | .log2 => 2
  | _ => 4

/-- How an exact value that lies within the error of its computation of a pattern's value compares with that in magnitude: it
is that value for the functions that have such results, it is below the pattern where the function stays below 1 or below its
argument, and above it where SOFTP stays above its argument; EXP and LOG have no value so near to one. -/
def Sfn.side : Sfn → Ordering
  | .rcp | .rsq | .sqrt | .exp2 | .log2 => .eq
  | .exp | .log | .softp => .gt
  | .sin | .cos | .tanh | .sigm | .erf | .gelu | .gelut | .silu => .lt

/-- Magnitudes between which an exact value lies, that of `a` × 2^−512 having been computed, with no pattern's value strictly
between them: the same one but where the value may be a pattern's. -/
def Sfn.between (fn : Sfn) (a : Nat) : Nat × Nat :=
  match fn.side with
  | .lt => (a - 2 ^ 200, a - 2 ^ 200)
  | .eq => (a - 2 ^ 200, a + 2 ^ 200)
  | .gt => (a + 2 ^ 200, a + 2 ^ 200)

/-- A result within the bound of an exact value, computed as a magnitude of a × 2^−512: the free value picks among the patterns
the bound admits (R69; log 6). An ulp is measured at the exact result; where the format's grid is finer below it, by one bit,
the patterns of that grid count too. -/
def FFmt.pick (f : FFmt) (fn : Sfn) (bits : Nat) (neg : Bool) (a : Nat) : Rounded :=
  let (lo, hi) := fn.between a
  let q0 := if hi = 0 then f.emin else f.grid hi 1 (-512)
  let fine := decide (f.emin < q0)
  let q := if fine then q0 - 1 else q0
  let w := if fine then 2 * fn.bound else fn.bound
  let n := (atGrid lo 1 (-512) q).1
  let h := (atGrid hi 1 (-512) q).1
  let low : Int := n + 1 - w
  let i := low + (Config.sfn fn.index f.index (BitVec.ofNat 32 bits) % (2 * w + (h - n)) : Nat)
  let sign := neg != decide (i < 0)
  let m := i.natAbs
  let top := 2 ^ (f.mbits + 1)
  if 2 * top ≤ m then f.encode sign (m / 4 * 2) (q + 1)
  else if top ≤ m ∧ m % 2 = 1 then f.encode sign (if i = low then m + 1 else m - 1) q
  else f.encode sign m q

/-- A bounded function at a finite input that R70 does not list: a result within the bound of R69. -/
def FFmt.bounded (f : FFmt) (fn : Sfn) (bits : Nat) (neg : Bool) (m : Nat) (e : Int) : Rounded :=
  let x : Int := (m * 2 ^ (e + 512).toNat : Nat)
  let v := fn.value (if neg then -x else x)
  f.pick fn bits (decide (v < 0)) v.natAbs

/-- The pattern of 1, and of 1/2. -/
def FFmt.one (f : FFmt) : Nat := f.bias * 2 ^ f.mbits
def FFmt.half (f : FFmt) : Nat := (f.bias - 1) * 2 ^ f.mbits

/-- A bounded function of a pattern (R69, R70). -/
def FFmt.sfn (f : FFmt) (fn : Sfn) (bits : Nat) : Rounded :=
  match fn, f.value bits with
  | _, .nan => .bits f.nan
  | .rcp, .inf neg => .bits (f.signBit neg)
  | .rcp, .fin neg m e => if m = 0 then .bits (f.infBits neg) else f.bounded .rcp bits neg m e
  | .rsq, .inf neg => .bits (if neg then f.nan else 0)
  | .rsq, .fin neg m e => if m = 0 then .bits (f.infBits neg) else if neg then .bits f.nan else f.bounded .rsq bits neg m e
  | .sqrt, .inf neg => .bits (if neg then f.nan else f.infBits false)
  | .sqrt, .fin neg m e => if m = 0 then .bits (f.signBit neg) else if neg then .bits f.nan else f.bounded .sqrt bits neg m e
  | .exp2, .inf neg => .bits (if neg then 0 else f.infBits false)
  | .exp2, .fin neg m e => if m = 0 then .bits f.one else f.bounded .exp2 bits neg m e
  | .exp, .inf neg => .bits (if neg then 0 else f.infBits false)
  | .exp, .fin neg m e => if m = 0 then .bits f.one else f.bounded .exp bits neg m e
  | .log2, .inf neg => .bits (if neg then f.nan else f.infBits false)
  | .log2, .fin neg m e =>
    if m = 0 then .bits (f.infBits true) else if neg then .bits f.nan else if bits = f.one then .bits 0 else f.bounded .log2 bits neg m e
  | .log, .inf neg => .bits (if neg then f.nan else f.infBits false)
  | .log, .fin neg m e =>
    if m = 0 then .bits (f.infBits true) else if neg then .bits f.nan else if bits = f.one then .bits 0 else f.bounded .log bits neg m e
  | .sin, .inf _ => .bits f.nan
  | .sin, .fin neg m e => if m = 0 then .bits (f.signBit neg) else f.bounded .sin bits neg m e
  | .cos, .inf _ => .bits f.nan
  | .cos, .fin neg m e => if m = 0 then .bits f.one else f.bounded .cos bits neg m e
  | .tanh, .inf neg => .bits (f.signBit neg + f.one)
  | .tanh, .fin neg m e => if m = 0 then .bits (f.signBit neg) else f.bounded .tanh bits neg m e
  | .erf, .inf neg => .bits (f.signBit neg + f.one)
  | .erf, .fin neg m e => if m = 0 then .bits (f.signBit neg) else f.bounded .erf bits neg m e
  | .sigm, .inf neg => .bits (if neg then 0 else f.one)
  | .sigm, .fin neg m e => if m = 0 then .bits f.half else f.bounded .sigm bits neg m e
  | .softp, .inf neg => .bits (if neg then 0 else f.infBits false)
  | .softp, .fin neg m e => f.bounded .softp bits neg m e
  | _, .inf neg => .bits (if neg then f.signBit true else f.infBits false)
  | fn, .fin neg m e => if m = 0 then .bits (f.signBit neg) else f.bounded fn bits neg m e

/-- The format of the elements of a packing (R131). -/
def Packing.fmt : Packing → FFmt
  | .f32 => .f32
  | .f16x2 => .f16
  | .bf16x2 => .bf16

/-- Each element of a lane through a function that may overflow; `none` if one traps (R64, R131, R299). -/
def perElem1 (p : Packing) (f : Nat → Option Nat) (a : W32) : Option W32 :=
  match p with
  | .f32 => (f a.toNat).map (BitVec.ofNat 32)
  | _ => do
    let lo ← f (a.toNat % 65536)
    let hi ← f (a.toNat / 65536)
    pure (pack16 (BitVec.ofNat 16 lo) (BitVec.ofNat 16 hi))
def perElem3 (p : Packing) (f : Nat → Nat → Nat → Option Nat) (a b c : W32) : Option W32 :=
  match p with
  | .f32 => (f a.toNat b.toNat c.toNat).map (BitVec.ofNat 32)
  | _ => do
    let lo ← f (a.toNat % 65536) (b.toNat % 65536) (c.toNat % 65536)
    let hi ← f (a.toNat / 65536) (b.toNat / 65536) (c.toNat / 65536)
    pure (pack16 (BitVec.ofNat 16 lo) (BitVec.ofNat 16 hi))

/-- FADD, FMUL, FMA in a format: exact, then rounded once (R57, R131). -/
def FFmt.fadd (f : FFmt) (rm : Rm) (a b : Nat) : Rounded := f.round rm (Num.add rm (f.value a) (f.value b))
def FFmt.fsub (f : FFmt) (rm : Rm) (a b : Nat) : Rounded := f.round rm (Num.add rm (f.value a) (f.value b).neg)
def FFmt.fmul (f : FFmt) (rm : Rm) (a b : Nat) : Rounded := f.round rm (Num.mul (f.value a) (f.value b))
def FFmt.fma (f : FFmt) (rm : Rm) (a b c : Nat) : Rounded :=
  f.round rm (Num.add rm (Num.mul (f.value a) (f.value b)) (f.value c))
/-- Division, correctly rounded; x/0 is an infinity (R60, R61). -/
def FFmt.fdiv (f : FFmt) (rm : Rm) (a b : Nat) : Rounded :=
  match f.value a, f.value b with
  | .nan, _ => .bits f.nan
  | _, .nan => .bits f.nan
  | .inf _, .inf _ => .bits f.nan
  | .inf x, .fin y _ _ => f.round rm (.inf (x != y))
  | .fin x _ _, .inf y => .bits (f.signBit (x != y))
  | .fin x mx ex, .fin y my ey =>
    if my = 0 then (if mx = 0 then .bits f.nan else f.round rm (.inf (x != y)))
    else f.roundRat rm (x != y) mx my (ex - ey)

/-- Rounded to an integral value in the same format, by mode (R132). -/
def FFmt.frnd (f : FFmt) (rm : Rm) (a : Nat) : Nat :=
  match f.value a with
  | .nan => f.nan
  | .inf _ => a
  | .fin neg m e =>
    if 0 ≤ e then a
    else
      let i := roundInt rm none neg m e
      match f.round rm (Num.ofInt neg i 0) with
      | .bits b => b
      | .over _ => a

end Sys2Proof.Machine
end

