-- ==== Sys2Proof/Machine/Flags.lean ====
section
/-! DEFINITION. Machine/Flags.lean: truth values and conditions. The VX9 has no flags register: a comparison writes a
scalar, a mask, or decides a branch (R103, R112, R115, R129). -/
namespace Sys2Proof.Machine

/-- 1 for true, 0 for false (R103). -/
def flag (b : Bool) : Word := if b then 1 else 0

/-- The conditions of BZ on S[sa] read as i64 (R112). -/
inductive BzCond where
  | eqz | nez | ltz | gez | lez | gtz
deriving DecidableEq, Repr

def BzCond.holds (c : BzCond) (a : Word) : Bool :=
  match c with
  | .eqz => a == 0
  | .nez => a != 0
  | .ltz => a.slt 0
  | .gez => !a.slt 0
  | .lez => a.slt 0 || a == 0
  | .gtz => !(a.slt 0 || a == 0)

/-- The uniform branches on t := m AND K[k] (R115). -/
inductive BuCond where
  | any | all | none
deriving DecidableEq, Repr

def BuCond.holds (c : BuCond) (m t : Mask) : Bool :=
  match c with
  | .any => t != 0
  | .all => t == m
  | .none => t == 0

/-- The integer comparisons of VCMP on a lane (R129). -/
def cmpInt (c : VCond) (a b : W32) : Option Bool :=
  match c with
  | .eq => some (a == b)
  | .ne => some (a != b)
  | .lt => some (a.slt b)
  | .le => some (!b.slt a)
  | .gt => some (b.slt a)
  | .ge => some (!a.slt b)
  | .ltn => some (a.ult b)
  | .len => some (!b.ult a)
  | .gtn => some (b.ult a)
  | .gen => some (!a.ult b)
  | _ => none

end Sys2Proof.Machine
end

