-- ==== Sys2Proof/Machine/Special.lean ====
section
/-! DEFINITION. Machine/Special.lean: the special registers (R20, R107–R109, R250, R278), the margin registers' writes,
SRD and SWR. -/
namespace Sys2Proof.Machine

/-! ### Launch parameters (R17, R234) -/

/-- Word `n` of a launch's packet. -/
def Launch.word (l : Launch) (n : Nat) : Nat := (l.packet.getD n 0).toNat
def Launch.flagCores (l : Launch) : Bool := bitsOf (l.word 0) 8 1 == 1
def Launch.flagAudit (l : Launch) : Bool := bitsOf (l.word 0) 9 1 == 1
def Launch.waves (l : Launch) : Nat := bitsOf (l.word 0) 14 4
def Launch.span (l : Launch) : Nat := 2 ^ bitsOf (l.word 0) 18 2
def Launch.teams (l : Launch) : Nat := bitsOf (l.word 0) 24 24
def Launch.karg (l : Launch) : Word := BitVec.ofNat 64 (l.word 2)
def Launch.spm (l : Launch) : Nat := bitsOf (l.word 3) 0 32
def Launch.clspm (l : Launch) : Nat := bitsOf (l.word 3) 32 32

/-- LAUNCHID (R20): unique among live launches. -/
def launchId (key : Nat) : Word := Config.launchIdBase + BitVec.ofNat 64 key

/-! ### Margin registers (R250–R252) -/

/-- The values as registers read. -/
def Margin.ctl (m : Margin) : Word := BitVec.ofNat 64 (m.step + (if m.gov then 0x100 else 0) + m.win * 0x1000)
def Margin.stat (m : Margin) : Word :=
  BitVec.ofNat 64 (m.rerolls.toNat + m.escal.toNat * 2 ^ 32 + m.cur * 2 ^ 48 + m.state * 2 ^ 56)
def Margin.escReg (m : Margin) : Word :=
  BitVec.ofNat 64 (m.events.toNat + m.raise * 2 ^ 16 + m.qcount * 2 ^ 24)

/-- The event window of a cycle (R252). -/
def Margin.window (m : Margin) (cycle : Nat) : Nat := cycle / 2 ^ (m.win + 10)
/-- Whether the last escalation lies in a window. -/
def Margin.escIn (m : Margin) (n : Nat) : Bool := match m.escAt with | some c => m.window c == n | none => false
/-- ERUN returns to 0 at the end of an event window without an escalation (R312): the windows that have ended since
`seen`. A core that is quarantined, or is about to be, keeps it (R346). -/
def Margin.expire (m : Margin) (cycle : Nat) : Margin :=
  let n0 := m.window m.seen
  let n1 := m.window cycle
  if m.state = 2 ∨ m.qdue ≠ 0 ∨ n1 ≤ n0 then m
  else if n0 + 1 < n1 ∨ m.escIn n0 = false then { m with seen := cycle, qinfo := m.qinfo &&& ~~~0xFF#64 }
  else { m with seen := cycle }
/-- The rerolls that the governor has counted in the present window since its last raise (R252). -/
def Margin.counted (m : Margin) (cycle : Nat) : Nat := (m.errs.filter fun c => m.window c == m.window cycle).length
/-- Whether the governor's raise falls due, and in which cycle (R252). -/
def Margin.govern (m : Margin) (cycle : Nat) : Margin :=
  { m with raiseDue := m.gov && m.events != 0 && decide (m.events.toNat ≤ m.counted cycle), raiseAt := some cycle }
/-- A write to MGN_CTL: a STEP above 24 stores 24 (R250). A new WIN, or GOV set again, within a window keeps the rerolls
counted so far, and counts those of the present window as WIN now has it (log 57). -/
def Margin.setCtl (m : Margin) (cycle : Nat) (v : Word) : Margin :=
  let m0 := { m.expire cycle with gov := v.getLsbD 8, win := bitsOf v.toNat 12 4, seen := cycle, ctlAt := some cycle }
  (m0.govern cycle).moveTo (Nat.min (bitsOf v.toNat 0 8) 24)
/-- A write to MGN_LIMIT: 0 leaves it unchanged. -/
def Margin.setLimit (m : Margin) (v : Word) : Margin :=
  if bitsOf v.toNat 0 3 = 0 then m else { m with limit := bitsOf v.toNat 0 3 }
def Margin.setEsc (m : Margin) (cycle : Nat) (v : Word) : Margin :=
  ({ m with events := BitVec.ofNat 16 v.toNat, raise := bitsOf v.toNat 16 8, qcount := bitsOf v.toNat 24 8 } : Margin).govern
    cycle
/-- A write to MGN_INJ replaces an injection that has not fired (R253): an instance that it has caught is then held by no
injection. -/
def Margin.setInj (m : Margin) (v : Word) : Margin := { m with inj := v &&& 0x3FFFF }
def Core.setInj (c : Core) (v : Word) : Core :=
  { c with
    margin := c.margin.setInj v
    checks := c.checks.map fun k => { k with inj := k.inj && k.fired, armed := false } }

/-- A free bank: it holds no team, and its core is not quarantined (R314). -/
def State.bankFree (s : State) (b : Nat) : Bool := (s.bank b).team.isNone && !s.quarantined (coreOfBank b)

/-- Event codes valid for a core (R269). -/
def coreEvent (c : Nat) : Bool := (decide (1 ≤ c) && decide (c ≤ 0x0C)) || (decide (0x11 ≤ c) && decide (c ≤ 0x18))
/-- What a selector write stores: 0 for a code that is not valid. -/
def selStored (valid : Nat → Bool) (v : Word) : Word := if valid (bitsOf v.toNat 0 8) then v &&& 0x3FF else 0

/-- Codes whose events the model does not see: misses, traffic, and memory that is corrected (R269; log 23). -/
def freeEvent (c : Nat) : Bool := c == 7 || c == 8 || (decide (0x40 ≤ c) && decide (c ≤ 0x43)) || (decide (0x80 ≤ c) && decide (c ≤ 0x82))
/-- What a counter reads as: its count, with a free number of events more where its selector counts such events. -/
def counterRead (tick key : Nat) (sel v : Word) : Word :=
  if freeEvent (bitsOf sel.toNat 0 8) && bitsOf sel.toNat 8 2 != 0 then v + Config.counter tick key else v
/-- EVCNTj of a core. -/
def State.evcnt (s : State) (core j : Nat) : Word :=
  counterRead s.tick (8 * core + j) (SMap.get zeros (s.core core).evsel j) (SMap.get zeros (s.core core).evcnt j)

/-- The generator of lane i from a seed (R59). -/
def seedGen (seed : W32) (i : Nat) : W32 :=
  let g := seed ^^^ BitVec.ofNat 32 (i * 0x9E3779B9)
  if g = 0 then 1 else g
/-- A draw advances the state and returns it (R59). -/
def drawGen (g : W32) : W32 :=
  let x := g ^^^ (g <<< 13)
  let y := x ^^^ (x >>> 17)
  y ^^^ (y <<< 5)
/-- G[i]. -/
def Wave.gen (W : Wave) (i : Nat) : W32 := SMap.get zeros W.gens i
/-- Writing RNDSEED seeds all 128 lanes (R59). -/
def Wave.seed (W : Wave) (v : W32) : Wave :=
  { W with rndseed := v, gens := SMap.setLanes W.gens 0 (BitVec.allOnes 128) (seedGen v) }

/-! ### The table of R108 -/

/-- Assigned numbers. -/
def sprAssigned (n : Nat) : Bool :=
  decide (n ≤ 0x0B) || (decide (0x10 ≤ n) && decide (n ≤ 0x1D)) || n == 0x20 || n == 0x21 || n == 0x30 || n == 0x31
    || n == 0x40 || n == 0x41 || n == 0x48 || n == 0x50 || (decide (0x100 ≤ n) && decide (n ≤ 0x105))
    || (decide (0x110 ≤ n) && decide (n ≤ 0x120)) || n == 0x130
/-- Marked with a dash at level T. -/
def sprDash (n : Nat) : Bool :=
  (decide (0x100 ≤ n) && decide (n ≤ 0x105)) || (decide (0x110 ≤ n) && decide (n ≤ 0x11F)) || n == 0x130
/-- RW at level T, and at level S. -/
def sprRwT (n : Nat) : Bool := n == 0x1B || n == 0x1D || n == 0x20 || n == 0x21 || n == 0x48 || n == 0x50
def sprRwS (n : Nat) : Bool :=
  sprRwT n || n == 0x40 || n == 0x41 || n == 0x100 || n == 0x102 || n == 0x103 || n == 0x104
    || (decide (0x110 ≤ n) && decide (n ≤ 0x120)) || n == 0x130

/-- A launch identity register of a wave (R20). -/
def State.identity (s : State) (w n : Nat) : Word :=
  match s.teamOf w with
  | none => if n = 0 then BitVec.ofNat 64 w else 0
  | some t =>
    let l (f : Launch → Nat) : Word := match s.launchOf t.launch with | some x => BitVec.ofNat 64 (f x) | none => 0
    match n with
    | 0x000 => BitVec.ofNat 64 w
    | 0x001 => BitVec.ofNat 64 t.teamId
    | 0x002 => l Launch.teams
    | 0x003 => BitVec.ofNat 64 (waveNo w)
    | 0x004 => BitVec.ofNat 64 t.waves
    | 0x005 => 128
    | 0x006 => BitVec.ofNat 64 t.setIx
    | 0x007 => BitVec.ofNat 64 (2 ^ t.span)
    | 0x008 => launchId t.launch
    | 0x009 => l fun x => x.karg.toNat
    | 0x030 => BitVec.ofNat 64 t.spSize
    | _ => BitVec.ofNat 64 (t.clPart * 2 ^ t.span)

/-- A trap register (R278). -/
def TrapRegs.read (r : TrapRegs) (n : Nat) : Word :=
  match n with
  | 0x10 => r.tpc
  | 0x11 => r.tcause.setWidth 64
  | 0x12 => r.taddr
  | 0x13 => r.tinfo.setWidth 64
  | 0x14 => BitVec.ofNat 64 (bitsOf r.tmask.toNat 0 32)
  | 0x15 => BitVec.ofNat 64 (bitsOf r.tmask.toNat 32 32)
  | 0x16 => BitVec.ofNat 64 (bitsOf r.tmask.toNat 64 32)
  | 0x17 => BitVec.ofNat 64 (bitsOf r.tmask.toNat 96 32)
  | 0x18 => r.tlane.setWidth 64
  | 0x19 => r.tchain
  | 0x1A => r.tslot.setWidth 64
  | 0x1B => r.thndl
  | 0x1C => r.tpc2
  | _ => r.tnext

/-- A margin register of a core (R250). -/
def Margin.read (m : Margin) (n : Nat) : Word :=
  match n with
  | 0x100 => m.ctl
  | 0x101 => m.stat
  | 0x102 => BitVec.ofNat 64 m.limit
  | 0x103 => m.escReg
  | 0x104 => m.inj
  | _ => m.log

/-- LEVEL (R108). -/
def Wave.levelReg (W : Wave) : Word := (if W.system then 1 else 0) + (if W.handler then 2 else 0)

/-- The value of an assigned special register, as a wave reads it (R108). -/
def State.readSpr (s : State) (w n : Nat) : Word :=
  let W := s.wave w
  let c := s.core (coreOf w)
  if n ≤ 0x09 ∨ n = 0x30 ∨ n = 0x31 then s.identity w n
  else if n = 0x0A then BitVec.ofNat 64 s.cycle
  else if n = 0x0B then W.levelReg
  else if n ≤ 0x1D then W.trap.read n
  else if n = 0x20 then W.dsp
  else if n = 0x21 then W.dslim
  else if n = 0x40 then W.adopts.setWidth 64
  else if n = 0x41 then (s.part (s.partOf w)).adoptage.setWidth 64
  else if n = 0x48 then W.mwtimeo.setWidth 64
  else if n = 0x50 then W.rndseed.setWidth 64
  else if n ≤ 0x105 then c.margin.read n
  else if n ≤ 0x117 then SMap.get zeros c.evsel (n - 0x110)
  else if n ≤ 0x11F then s.evcnt (coreOf w) (n - 0x118)
  else if n = 0x120 then (s.part (s.partOf w)).featmask.setWidth 64
  else (s.part (s.partOf w)).audrate.setWidth 64

/-- Clear bits 1:0 (R278). -/
def align4 (v : Word) : Word := v &&& ~~~3#64

/-- A write to the writable fields of a special register (R107, R108). -/
def State.writeSpr (s : State) (w n : Nat) (v : Word) : State :=
  let W := s.wave w
  let c := s.core (coreOf w)
  let p := s.partOf w
  let q := s.part p
  let mgn (m : Margin) : State := s.setCore (coreOf w) { c with margin := m }
  if n = 0x1B then s.setWave w { W with trap := { W.trap with thndl := align4 v } }
  else if n = 0x1D then s.setWave w (W.setTnext (align4 v))
  else if n = 0x20 then s.setWave w { W with dsp := v }
  else if n = 0x21 then s.setWave w { W with dslim := v }
  else if n = 0x40 then s.setWave w { W with adopts := v.setWidth 32 }
  else if n = 0x41 then s.setPart p { q with adoptage := v.setWidth 48 }
  else if n = 0x48 then s.setWave w { W with mwtimeo := v.setWidth 32 }
  else if n = 0x50 then s.setWave w (W.seed (v.setWidth 32))
  else if n = 0x100 then mgn (c.margin.setCtl s.cycle v)
  else if n = 0x102 then mgn (c.margin.setLimit v)
  else if n = 0x103 then mgn (c.margin.setEsc s.cycle v)
  else if n = 0x104 then s.setCore (coreOf w) (c.setInj v)
  else if 0x110 ≤ n ∧ n ≤ 0x117 then
    s.setCore (coreOf w) { c with evsel := SMap.set zeros c.evsel (n - 0x110) (selStored coreEvent v) }
  else if 0x118 ≤ n ∧ n ≤ 0x11F then s.setCore (coreOf w) { c with evcnt := SMap.set zeros c.evcnt (n - 0x118) v }
  else if n = 0x120 then s.setPart p { q with featmask := v.setWidth 5 }
  else if n = 0x130 then s.setPart p { q with audrate := v.setWidth 16 }
  else s

/-- SRD (R107, R109): ILL for an unassigned number, PRIV for a dash at level T. -/
def execSrd (d : SReg) (spr : BitVec 12) (s : State) : Out :=
  let n := spr.toNat
  if !sprAssigned n then .next (s.trapCur .ill 0)
  else if sprDash n && !s.cw.system then .next (s.trapCur .priv 0)
  else issue s (Info.scalar 4) fun t => (t.setS d (t.readSpr t.cur.1 n)).advance 4

/-- SWR (R107, R109): ILL also for a register that is RO at the issuing level. -/
def execSwr (a : SReg) (spr : BitVec 12) (s : State) : Out :=
  let n := spr.toNat
  if !sprAssigned n then .next (s.trapCur .ill 0)
  else if sprDash n && !s.cw.system then .next (s.trapCur .priv 0)
  else if !(if s.cw.system then sprRwS n else sprRwT n) then .next (s.trapCur .ill 0)
  else issue s (Info.scalar 4) fun t => (t.writeSpr t.cur.1 n (t.S a)).advance 4

end Sys2Proof.Machine
end

