-- ==== Sys2Proof/Machine/Control.lean ====
section
/-! DEFINITION. Machine/Control.lean: branches and jumps (R110–R116), the two PC slots and the divergence stack (R22–R27,
R301). -/
namespace Sys2Proof.Machine

/-! ### Branches of a whole slot -/

/-- Where the slot goes: the target if taken, else the next instruction (R110). -/
def State.branch (s : State) (taken : Bool) (target : Word) (len : Nat) : State :=
  if taken then s.jump target else s.advance len

/-- A branch that no capsule body allows. -/
def branchOp (s : State) (len : Nat) (taken : Bool) (target : Word) : Out :=
  issue s (Info.scalar len) fun t => t.branch taken target len

/-- A branch of majors 0x0B and 0x0D, which a capsule body may hold (R83). -/
def branchCap (s : State) (len : Nat) (regs : List SReg) (taken : Bool) (target : Word) : Out :=
  issue s { Info.scalar len with cap := some regs } fun t => t.branch taken target len

/-- BRA (R111). -/
def execBra (off : BitVec 24) (s : State) : Out := branchCap s 4 [] true (s.target off)
/-- BRA with a literal (R111). -/
def execBraLit (l : W32) (s : State) : Out := branchCap s 8 [] true (s.targetLit l)

/-- The link register takes the address after the call (R111). -/
def callOp (s : State) (len : Nat) (target : Word) : Out :=
  issue s (Info.scalar len) fun t => (t.setS 63 (t.cs.pc + BitVec.ofNat 64 len)).jump target

/-- CALL (R111). -/
def execCall (off : BitVec 24) (s : State) : Out := callOp s 4 (s.target off)
/-- CALL with a literal (R111). -/
def execCallLit (l : W32) (s : State) : Out := callOp s 8 (s.targetLit l)

/-- BZ (R112). -/
def bzOp (c : BzCond) (a : SReg) (off : BitVec 14) (s : State) : Out := branchCap s 4 [a] (c.holds (s.S a)) (s.target off)
def bzLit (c : BzCond) (a : SReg) (l : W32) (s : State) : Out := branchCap s 8 [a] (c.holds (s.S a)) (s.targetLit l)

/-- BEQZ (R112). -/
def execBeqz (a : SReg) (off : BitVec 14) (s : State) : Out := bzOp .eqz a off s
/-- BEQZ with a literal. -/
def execBeqzLit (a : SReg) (l : W32) (s : State) : Out := bzLit .eqz a l s
/-- BNEZ (R112). -/
def execBnez (a : SReg) (off : BitVec 14) (s : State) : Out := bzOp .nez a off s
/-- BNEZ with a literal. -/
def execBnezLit (a : SReg) (l : W32) (s : State) : Out := bzLit .nez a l s
/-- BLTZ (R112). -/
def execBltz (a : SReg) (off : BitVec 14) (s : State) : Out := bzOp .ltz a off s
/-- BLTZ with a literal. -/
def execBltzLit (a : SReg) (l : W32) (s : State) : Out := bzLit .ltz a l s
/-- BGEZ (R112). -/
def execBgez (a : SReg) (off : BitVec 14) (s : State) : Out := bzOp .gez a off s
/-- BGEZ with a literal. -/
def execBgezLit (a : SReg) (l : W32) (s : State) : Out := bzLit .gez a l s
/-- BLEZ (R112). -/
def execBlez (a : SReg) (off : BitVec 14) (s : State) : Out := bzOp .lez a off s
/-- BLEZ with a literal. -/
def execBlezLit (a : SReg) (l : W32) (s : State) : Out := bzLit .lez a l s
/-- BGTZ (R112). -/
def execBgtz (a : SReg) (off : BitVec 14) (s : State) : Out := bzOp .gtz a off s
/-- BGTZ with a literal. -/
def execBgtzLit (a : SReg) (l : W32) (s : State) : Out := bzLit .gtz a l s

/-- BU (R115). -/
def buOp (c : BuCond) (k : KReg) (off : BitVec 14) (s : State) : Out :=
  branchOp s 4 (c.holds s.cs.mask (s.active k)) (s.target off)
def buLit (c : BuCond) (k : KReg) (l : W32) (s : State) : Out :=
  branchOp s 8 (c.holds s.cs.mask (s.active k)) (s.targetLit l)

/-- BANY (R115). -/
def execBany (k : KReg) (off : BitVec 14) (s : State) : Out := buOp .any k off s
/-- BANY with a literal. -/
def execBanyLit (k : KReg) (l : W32) (s : State) : Out := buLit .any k l s
/-- BALL (R115). -/
def execBall (k : KReg) (off : BitVec 14) (s : State) : Out := buOp .all k off s
/-- BALL with a literal. -/
def execBallLit (k : KReg) (l : W32) (s : State) : Out := buLit .all k l s
/-- BNONE (R115). -/
def execBnone (k : KReg) (off : BitVec 14) (s : State) : Out := buOp .none k off s
/-- BNONE with a literal. -/
def execBnoneLit (k : KReg) (l : W32) (s : State) : Out := buLit .none k l s

/-- A CTL jump: MALIGN for a target that is not a multiple of 4, with nothing changed (R113). -/
def jumpOp (s : State) (target : Word) (link : Bool) : Out :=
  issue s (Info.scalar 4) fun t =>
    if target.toNat % 4 ≠ 0 then t.trapCur .malign target
    else if link then (t.setS 63 (t.cs.pc + 4)).jump target
    else t.jump target

/-- RET (R113). -/
def execRet (s : State) : Out := jumpOp s (s.S 63) false
/-- JMPI (R113). -/
def execJmpi (a : SReg) (s : State) : Out := jumpOp s (s.S a) false
/-- CALLI reads its target before it writes the link (R113). -/
def execCalli (a : SReg) (s : State) : Out := jumpOp s (s.S a) true

/-- NOP (R116). -/
def execNop (s : State) : Out := issue s (Info.scalar 4) fun t => t.advance 4

/-- Move an element to the end of a list. -/
def toEnd (l : List Nat) (n : Nat) : List Nat := if l.contains n then (l.filter fun m => m ≠ n) ++ [n] else l

/-- The wave moves to the end of its bank's round-robin order, and the others come first: each of them that is ready once, or 16
cycles. -/
def State.yield (s : State) (w : Nat) : State :=
  let b := s.bank (bankOf w)
  s.setBank (bankOf w) { b with
    order := toEnd b.order (waveNo w)
    yields := { wave := waveNo w, since := s.cycle, after := 0 } :: b.yields.filter fun e => e.wave != waveNo w }

/-- YIELD (R116). -/
def execYield (s : State) : Out := issue s (Info.scalar 4) fun t => (t.advance 4).yield t.cur.1

/-- TRAP n: SWTRAP with TNEXT at the next instruction (R116); ILL in handler mode (R281). -/
def execTrap (n : BitVec 6) (s : State) : Out :=
  if s.cw.handler then .next (s.trapCur .ill 0)
  else issue s (Info.scalar 4) fun t =>
    takeTrap t t.cur.1 t.cur.2 { instrTrap .swtrap 0 t.cs.pc with n := n, next := t.cs.pc + 4 }

/-- TRET (R282); ILL outside handler mode (R116). -/
def execTret (s : State) : Out :=
  if !s.cw.handler then .next (s.trapCur .ill 0)
  else issue s (Info.scalar 4) fun t => returnFromTrap t t.cur.1

/-! ### The divergence stack (R26, R27, R301) -/

/-- An entry's value: PC, MASK, DEPTH, WAITJ (R27). -/
def entryValue (t : Slot) : Nat :=
  t.pc.toNat + t.mask.toNat * 2 ^ 64 + t.depth.toNat * 2 ^ 192 + (if t.waiting then 1 else 0) * 2 ^ 200
/-- The slot that an entry's bytes name; its mask is ANDed with the live lanes (R25). -/
def entrySlot (v : Nat) (live : Mask) : Slot :=
  { Slot.free with
    live := true, pc := BitVec.ofNat 64 v, mask := BitVec.ofNat 128 (v / 2 ^ 64) &&& live
    depth := BitVec.ofNat 8 (v / 2 ^ 192), waiting := v / 2 ^ 200 % 2 == 1 }

/-- What has stood at one place among the flows of a wave stands at another (R176). -/
def Wave.movePlace (W : Wave) (p q : Nat) : Wave :=
  { W with syncs := W.syncs.map fun e => if e.place = p then { e with place := q } else e }

/-- The two sides of a split after any push: the taken lanes in the other slot at the label (R22). -/
def State.split (s : State) (t n : Mask) (label : Word) (len : Nat) : State :=
  let x := s.cur.2
  let X := s.cs
  let W := s.cw
  let d := X.depth + 1
  let W1 := W.setSlot (otherSlot x) { Slot.free with live := true, pc := label, mask := t, depth := d }
  s.setCw (W1.setSlot x { X.advance len with mask := n, depth := d })

/-- Push the other slot and split (R22, R26); DIVSTK where the entry does not fit or cannot be written, a park on a
granule that is not resident (R301). The push comes after what the wave's slots have in the commit gate for the same bytes,
since they are one agent (R27): then the VBR, at `s0`, waits. An operation that the pushed slot waits for has not happened: the
path issues it again once it is popped (log 54). -/
def State.pushSplit (s s0 : State) (t n : Mask) (label : Word) (len : Nat) : State :=
  let w := s.cur.1
  let W := s.cw
  let y := otherSlot s.cur.2
  if W.dslim.toNat < W.dsp.toNat + 32 then s.trapCur .divstk W.dsp
  else
    match resolve s w .push W.dsp 32 with
    | .fault c => (s.logFault w .push c W.dsp).trapCur .divstk W.dsp
    | .park base gsz => s.parkCur base gsz false true false
    | .ok loc leaf =>
      if W.gateHits loc 32 then s0
      else
        let r := Res.ok loc leaf
        let s1 := (((s.holdRes w W.dsp r).capture w).writeLoc w loc (leBytes 32 (entryValue (W.slot y))) r.norep).unwatch w y
        let W1 := s1.cw.movePlace (placeOf y) (2 + W.entries)
        let s2 := (s1.setCw { W1 with dsp := W1.dsp + 32, entries := W1.entries + 1 }).split t n label len
        (s.opBanks (W.slot y).park).foldl State.resumeCapsules s2

/-- VBR (R22); one that is to push waits until the other slot is outside a chain (R33). -/
def vbrOp (s : State) (len : Nat) (k : KReg) (label : Word) : Out :=
  if s.cw.handler then .next (s.trapCur .ill 0)
  else issue s (Info.scalar len) fun u =>
    let X := u.cs
    let t := X.mask &&& u.K k
    let n := if k = 0 then 0 else X.mask &&& ~~~u.K k
    if X.depth = 255 then u.trapCur .divstk 0
    else if t = 0 then u.setCs { X.advance len with depth := X.depth + 1 }
    else if n = 0 then u.setCs { X with pc := label, chain := none, xvres := none, depth := X.depth + 1 }
    else if (u.cw.slot (otherSlot u.cur.2)).live then
      if u.inChain u.cur.1 (otherSlot u.cur.2) then s else u.pushSplit s t n label len
    else u.split t n label len

/-- VBR (R114). -/
def execVbr (k : KReg) (off : BitVec 14) (s : State) : Out := vbrOp s 4 k (s.target off)
/-- VBR with a literal (R114). -/
def execVbrLit (k : KReg) (l : W32) (s : State) : Out := vbrOp s 8 k (s.targetLit l)

/-- What the pops of a JOIN or END come to. -/
inductive Pops where
  | done (s : State) (W : Wave)
  /-- The wave's slots have something for the entry's bytes in the commit gate (R27). -/
  | wait
  | fault (c : Cause) (addr : Word)
  | park (base gsz : Nat)
  | poison (addr : Word)
deriving DecidableEq, Repr

/-- A waiting slot completes its JOIN as in R23's last case. -/
def Wave.joinDone (W : Wave) (y : SlotId) : Wave :=
  let t := W.slot y
  W.setSlot y { t with pc := t.pc + 4, depth := t.depth - 1, waiting := false, chain := none, xvres := none }

/-- A lone slot that waits at JOIN and has no sibling left completes it (log 17). -/
def Wave.joinLone (W : Wave) (y : SlotId) : Wave :=
  if (W.slot y).live && (W.slot y).waiting then W.joinDone y else W

/-- The pops of R25 that fall due, into slot `x` first. `fuel` bounds them by the entries and the JOINs they complete.
While the other slot is live, an entry's depth is read before it is known whether its pop is due: where it cannot be
read, the instruction traps or parks (log 43). -/
def popDue (w : Nat) (x : SlotId) : Nat → State → Wave → Pops
  | 0, s, W => .done s W
  | fuel + 1, s, W =>
    if W.slotA.live && W.slotB.live then .done s W
    else
      let f := if (W.slot x).live then otherSlot x else x
      let y := otherSlot f
      if W.entries = 0 then .done s (W.joinLone y)
      else
        let addr := W.dsp - 32
        match resolve s w .pop addr 32 with
        | .fault c => .fault c addr
        | .park base gsz => .park base gsz
        | .ok loc leaf =>
          let e := entrySlot (s.readLoc w loc 32) W.liveLanes
          if W.gateHits loc 32 then .wait
          else if (W.slot y).live && (W.slot y).depth ≠ e.depth then
            if (W.slot y).waiting then popDue w x fuel s (W.joinDone y) else .done s W
          else if s.poisonLoc loc 32 then .poison addr
          else
            let s1 := s.holdRes w addr (.ok loc leaf)
            let e1 := if e.mask = 0 then Slot.free else e
            let W1 := ({ W with dsp := addr, entries := W.entries - 1 }.movePlace (W.entries + 1) (placeOf f)).dropSyncs
              (placeOf f) e1
            if e.mask = 0 then popDue w x fuel s1 (W1.joinLone y)
            else popDue w x fuel s1 (W1.setSlot f e)

/-- A JOIN or END with its pops: the wave after its own effect is `W`; nothing has happened if a pop fails (R301), and the
instruction, at `s0`, waits for what the wave's slots have in the commit gate for an entry (R27). -/
def State.withPops (s s0 : State) (W : Wave) : State :=
  let w := s.cur.1
  match popDue w s.cur.2 (2 * W.entries + 2) s W with
  | .done s1 W1 =>
    let s2 := s1.setWave w W1
    if !W1.slotA.live && !W1.slotB.live then s2.retireWave w else s2
  | .wait => s0
  | .fault c addr => (s.logFault w .pop c addr).trapCur .divstk addr
  | .park base gsz => s.parkCur base gsz true false false
  | .poison addr => s.consume w s.cur.2 (instrTrap .poison addr s.cs.pc)

/-- JOIN (R23, R25); ILL in handler mode (R281). -/
def execJoin (s : State) : Out :=
  if s.cw.handler then .next (s.trapCur .ill 0)
  else issue s (Info.scalar 4) fun u =>
    let x := u.cur.2
    let X := u.cs
    let Y := u.cw.slot (otherSlot x)
    if X.depth = 0 then u.advance 4
    else if Y.live && Y.depth == X.depth then
      if Y.waiting then
        u.withPops s ((u.cw.setSlot x { X.advance 4 with mask := X.mask ||| Y.mask, depth := X.depth - 1 }).setSlot
          (otherSlot x) Slot.free)
      else u.setCs { X with waiting := true, chain := none, xvres := none }
    else u.withPops s (u.cw.setSlot x { X.advance 4 with depth := X.depth - 1 })

/-- END (R24, R25); in handler mode it retires the wave as a kill does (R281). -/
def execEnd (s : State) : Out :=
  issue s (Info.scalar 4) fun u =>
    if u.cw.handler then u.killWave u.cur.1
    else
      let x := u.cur.2
      let X := u.cs
      let W := { u.cw with liveLanes := u.cw.liveLanes &&& ~~~X.mask }
      let W1 := W.setSlot x Slot.free
      let Y := W1.slot (otherSlot x)
      u.withPops s (if Y.live && Y.waiting && Y.depth == X.depth then W1.joinDone (otherSlot x) else W1)

end Sys2Proof.Machine
end

