-- ==== Sys2Proof/Machine/Context.lean ====
section
/-! DEFINITION. Machine/Context.lean: the context-access window of a wave (R242, R287) and the answers of the service
(R288). -/
namespace Sys2Proof.Machine

/-! ### The answers of the service (R288) -/

/-- RESUME: as TRET does; a TIMING park of a wave in handler mode continues the handler, and what a capsule's trap has left
stays so until TRET (R218, R288, R314). -/
def resumeWave (s : State) (w : Nat) : State :=
  let W := s.wave w
  (if W.handler then (s.setWave w { W with service := none }).rearm w else returnFromTrap s w).takeHeld w

/-- DELIVER: handler mode with TCAUSE and TINFO.FWD, or a kill where THNDL is 0. -/
def deliverWave (s : State) (w : Nat) (code : BitVec 8) : State :=
  let W := s.wave w
  if W.trap.thndl = 0 then s.killWave w
  else
    let r := { W.trap with tcause := code, tinfo := W.trap.tinfo ||| 0x400 }
    (s.setWave w { (W.flow r.slot (handlerSlot r)) with trap := r, handler := true, service := none }).takeHeld w

/-- A write to the RESUME, DELIVER or KILL word; one that does not act is dropped. -/
def writeResume (s : State) (w : Nat) (v : Word) : State :=
  match (s.wave w).service with
  | some sv => if v.getLsbD 0 && !sv.nested then resumeWave s w else s
  | none => s
def writeDeliver (s : State) (w : Nat) (v : Word) : State :=
  match (s.wave w).service with
  | some sv =>
    if v.toNat < 256 && tenantCode v.toNat && !sv.nested && !(s.wave w).handler then deliverWave s w (v.setWidth 8) else s
  | none => s
def writeKill (s : State) (w : Nat) (v : Word) : State :=
  match (s.wave w).service with
  | some _ => if v.getLsbD 0 then s.killWave w else s
  | none => s

/-! ### The window's words -/

/-- The slots that the window shows: as the trap left them while the wave is parked for the service. -/
def Wave.shown (W : Wave) : Slot × Slot :=
  match W.frozen with
  | some p => if W.handler then (W.slotA, W.slotB) else p
  | none => (W.slotA, W.slotB)
/-- Slots written through the window: they govern the wave from the moment it next issues. TPC2 stays as the trap wrote it
(R278; log 12). -/
def Wave.setShown (W : Wave) (p : Slot × Slot) : Wave :=
  let W1 := { W with slotA := p.1, slotB := p.2 }
  if W.handler then W1
  else (({ W1 with frozen := W.frozen.map fun _ => p }).dropSyncs (placeOf .a) p.1).dropSyncs (placeOf .b) p.2

/-- A slot record (R242) as a value, and a quad of it. -/
def slotRecord (t : Slot) : Nat := entryValue t + (if t.live then 1 else 0) * 2 ^ 201
/-- A slot with quad `q` of its record written. -/
def Slot.putQuad (t : Slot) (q : Nat) (v : Word) : Slot :=
  match q with
  | 0 => { t with pc := v }
  | 1 => { t with mask := (t.mask.extractLsb' 64 64) ++ v }
  | 2 => { t with mask := v ++ (t.mask.extractLsb' 0 64) }
  | _ => { t with depth := v.setWidth 8, waiting := v.getLsbD 8, live := v.getLsbD 9 }

/-- Two lanes of a 32-bit store as one quad. -/
def pair32 (m : SMap W32) (k : Nat) : Word := SMap.get zeros m (k + 1) ++ SMap.get zeros m k
def putPair32 (m : SMap W32) (k : Nat) (v : Word) : SMap W32 :=
  SMap.set zeros (SMap.set zeros m k (v.setWidth 32)) (k + 1) ((v >>> 32).setWidth 32)

/-- A word of a resident wave's window, by its offset in the window (R242). -/
def Wave.windowRead (W : Wave) (o : Nat) : Word :=
  if o < 0x7800 then pair32 W.vregs (128 * (o / 512) + o % 512 / 4)
  else if o < 0x7A00 then W.s (BitVec.ofNat 6 ((o - 0x7800) / 8))
  else if o < 0x7A10 then 0
  else if o < 0x7B00 then (W.k (BitVec.ofNat 4 ((o - 0x7A00) / 16))).extractLsb' (64 * (o / 8 % 2)) 64
  else if o < 0x7B20 then BitVec.ofNat 64 (slotRecord W.shown.1 / 2 ^ (64 * ((o - 0x7B00) / 8)))
  else if o < 0x7B40 then BitVec.ofNat 64 (slotRecord W.shown.2 / 2 ^ (64 * ((o - 0x7B20) / 8)))
  else if o = 0x7B40 then W.trap.tpc
  else if o = 0x7B48 then W.trap.tnext
  else if 0x7B80 ≤ o ∧ o < 0x7BC0 then
    BitVec.ofNat 64 ((List.range 16).foldl (fun n j => n + W.depth (16 * ((o - 0x7B80) / 8) + j) * 16 ^ j) 0)
  else if 0x7C00 ≤ o ∧ o ≤ 0x7C60 then W.trap.read (0x11 + (o - 0x7C00) / 8)
  else if 0x8000 ≤ o ∧ o < 0x9000 then pair32 W.ostacks ((o - 0x8000) / 4)
  else if 0x9000 ≤ o ∧ o < 0x9800 then
    let r := SMap.get (fun _ => LaneRec.zero) W.trap.lanes ((o - 0x9000) / 16)
    if o % 16 = 0 then BitVec.ofNat 64 (r.cause.toNat + r.step.toNat % 2 * 256) else r.addr
  else 0

/-- A write to a register or storage word of a resident wave's window; other offsets are dropped (R242). -/
def Wave.windowWrite (W : Wave) (o : Nat) (v : Word) : Wave :=
  if o < 0x7800 then { W with vregs := putPair32 W.vregs (128 * (o / 512) + o % 512 / 4) v }
  else if o < 0x7A00 then W.setS (BitVec.ofNat 6 ((o - 0x7800) / 8)) v
  else if o < 0x7A10 then W
  else if o < 0x7B00 then
    let k := BitVec.ofNat 4 ((o - 0x7A00) / 16)
    let old := W.k k
    W.setK k (if o / 8 % 2 = 0 then old.extractLsb' 64 64 ++ v else v ++ old.extractLsb' 0 64)
  else if o < 0x7B20 then W.setShown (W.shown.1.putQuad ((o - 0x7B00) / 8) v, W.shown.2)
  else if o < 0x7B40 then W.setShown (W.shown.1, W.shown.2.putQuad ((o - 0x7B20) / 8) v)
  else if o = 0x7B48 ∨ o = 0x7C60 then W.setTnext (align4 v)
  else if 0x7B80 ≤ o ∧ o < 0x7BC0 then
    (List.range 16).foldl (fun W j =>
      W.setDepth (16 * ((o - 0x7B80) / 8) + j) (Nat.min (bitsOf v.toNat (4 * j) 4) 8)) W
  else if o = 0x7C50 then { W with trap := { W.trap with thndl := align4 v } }
  else if 0x8000 ≤ o ∧ o < 0x9000 then { W with ostacks := putPair32 W.ostacks ((o - 0x8000) / 4) v }
  else W

/-- A read and a write of the window of hardware wave `w`. -/
def ctxRead (s : State) (w o : Nat) : Word :=
  if (s.wave w).resident then (s.wave w).windowRead o else 0
def ctxWrite (s : State) (w o : Nat) (v : Word) : State :=
  if !(s.wave w).resident then s
  else if o = 0xFFE8 then writeKill s w v
  else if o = 0xFFF0 then writeDeliver s w v
  else if o = 0xFFF8 then writeResume s w v
  else s.setWave w ((s.wave w).windowWrite o v)

end Sys2Proof.Machine
end

