-- ==== Sys2Proof/Machine/Window.lean ====
section
/-! DEFINITION. Machine/Window.lean: the system configuration window (R258–R269), the VF register pages (R232, R309,
R322), and the steps that are writes to it. A refused write changes nothing but the logs (R290). -/
namespace Sys2Proof.Machine

/-- Who writes: a guest through its page, a level-S wave, a hart at HS, or one at M. -/
inductive WinAgent where
  | guest | wave | hart | machine
deriving DecidableEq, Repr

def WinPath.agent : WinPath → WinAgent
  | .guest => .guest
  | .system => .hart
  | .machine => .machine

/-- The old value with the bits of a mask replaced. -/
def replaceBits (mask old v : Word) : Word := (old &&& ~~~mask) ||| (v &&& mask)

/-- Store `v` into the writable bits of a register. Reserved bits take no value, whatever access the map gives them, and
read as at reset (log 42). -/
def State.putReg (s : State) (off : Nat) (mask v : Word) : State := s.setReg off (replaceBits mask (s.reg off) v)

/-! ### The partition table (R259, R266) -/

/-- The clusters from CBASE to CLIM of an entry's first quad. -/
def partRange (w : Word) : List Nat :=
  (List.range 64).filter fun c => decide (bitsOf w.toNat 0 6 ≤ c) && decide (c ≤ bitsOf w.toNat 6 6)
/-- The banks of a cluster. -/
def clusterBanks (c : Nat) : List Nat := (List.range 16).map fun i => 16 * c + i
/-- Whether dies are in a world, latched where it is confidential (R266). -/
def State.diesIn (s : State) (clusters : List Nat) (world : Nat) : Bool :=
  clusters.all fun c => s.wid (c / 8) == world && (world == 0 || s.regBits (dieOff (c / 8)) 8 1 == 1)
/-- Whether a range meets that of another enabled partition. -/
def State.overlaps (s : State) (p : Nat) (clusters : List Nat) : Bool :=
  (List.range 48).any fun q => q != p && s.partEn q && clusters.any fun c =>
    decide (s.partBase q ≤ c) && decide (c ≤ s.partLim q)

/-- Whether a write of the entry's first quad is allowed. -/
def State.partOk (s : State) (p : Nat) (v : Word) : Bool :=
  let old := s.reg (partOff p)
  let n := v.toNat
  let fixed := bitsOf n 0 12 == bitsOf old.toNat 0 12 && bitsOf n 16 4 == bitsOf old.toNat 16 4
  let free := (partRange old ++ partRange v).all fun c => (clusterBanks c).all s.bankFree
  decide (bitsOf n 0 6 ≤ bitsOf n 6 6) && decide (2 ≤ bitsOf n 16 4) && decide (bitsOf n 16 4 ≤ 6)
    && decide (12 ≤ bitsOf n 20 5) && decide (bitsOf n 20 5 ≤ 30) && bitsOf n 48 8 != 0 && decide (bitsOf n 56 5 ≤ 16)
    && (fixed || (!s.partEn p && free))
    && (bitsOf n 12 1 == 0 ||
      (bitsOf n 32 16 != 0 && !s.overlaps p (partRange v) && (s.partEn p || s.diesIn (partRange v) (s.partWorld p))))

/-- The fault buffers of a partition's VFs after a change of FBLOG: a smaller one keeps the oldest records that it holds, and
DROPPED says that others are gone (R302; log 52). -/
def State.trimBuffers (s : State) (p : Nat) : State :=
  let cap := 8 * 2 ^ s.regBits (partOff p) 25 3
  (List.range 192).foldl (fun (t : State) v =>
    let f := t.fbuf v
    if t.vfPart v = p ∧ cap < f.recs.length then t.setFbuf v { f with recs := f.recs.take cap, dropped := true } else t) s

/-- A write of a partition table entry. -/
def writePart (s : State) (off p q : Nat) (v : Word) : State :=
  match q with
  | 0 =>
    if !s.partOk p v then s.refuseWin off
    else
      let s1 := (s.putReg off 0x1FFFFFFF0FFF1FFF v).trimBuffers p
      if bitsOf v.toNat 12 1 = 0 then s1.setPart p { s1.part p with tornDown := false } else s1
  | 1 => if v.toNat % 0x10000 ≠ 0 then s.refuseWin off else s.setReg off v
  | 2 =>
    if s.partEn p ∧ bitsOf v.toNat 0 8 ≠ s.partWorld p then s.refuseWin off else s.putReg off 0xFF v
  | _ => s

/-! ### The VF table (R259, R260) -/

/-- The enabled VFs of a partition, but for one. -/
def State.enabledVfs (s : State) (p except : Nat) : List Nat :=
  (List.range 192).filter fun u => u != except && s.vfEn u && s.vfPart u == p

def State.vfOk (s : State) (u : Nat) (v : Word) : Bool :=
  let n := v.toNat
  let old := (s.reg (vfOff u)).toNat
  let p := bitsOf n 6 6
  let others := s.enabledVfs p u
  bitsOf n 2 4 != 0 && decide (p ≤ 47)
    && (!s.vfEn u || (p == s.vfPart u && bitsOf n 1 1 == bitsOf old 1 1 && bitsOf n 12 1 == bitsOf old 12 1))
    && (bitsOf n 0 1 == 0 || (decide (others.length < 4) && (bitsOf n 12 1 == 0 || !others.any s.vfSvc)))

/-- A write of a VF table entry; a VF given to another partition starts with an empty fault buffer (R51). -/
def writeVf (s : State) (off u q : Nat) (v : Word) : State :=
  match q with
  | 0 =>
    if !s.vfOk u v then s.refuseWin off
    else
      let s1 := if bitsOf v.toNat 6 6 ≠ s.vfPart u then s.setFbuf u FaultBuffer.zero else s
      s1.putReg off 0x1FFF v
  | 1 =>
    if v.toNat % 4096 ≠ 0 then s.refuseWin off
    else if s.vfEn u ∧ v ≠ s.reg off then s.refuseWin off
    else s.setReg off v
  | _ => s

/-! ### Partition controls (R264) -/

/-- STATE of a partition: 0 RUN, 1 SAVING, 2 SAVED, 3 RESTORING. -/
def State.partState (s : State) (p : Nat) : Nat := s.regBits (ctlOff p) 2 2
def State.setPartState (s : State) (p n : Nat) : State := s.setRegBits (ctlOff p) 2 2 n

/-- HALT (R264). -/
def haltPart (s : State) (p : Nat) : State :=
  match s.partState p with
  | 0 => s.setPartState p 1
  | 3 => s.setPart p { s.part p with haltDue := true }
  | _ => s
/-- RESUME (R264). -/
def resumePart (s : State) (p : Nat) : State :=
  match s.partState p with
  | 2 => s.setPartState p 3
  | 1 => s.setPart p { s.part p with resumeDue := true }
  | _ => s
def writeControl (s : State) (p : Nat) (v : Word) : State :=
  let s1 := if v.getLsbD 0 then haltPart s p else s
  if v.getLsbD 1 then resumePart s1 p else s1

/-! ### Image load requests (R261) -/

/-- REVOKE clears an entry and releases its pages. -/
def revokeImage (s : State) (p i : Nat) : State :=
  { (s.setRegBits (imageOff p i) 63 1 0) with imagePages := s.imagePages.filter fun e => !(e.1 == p && e.2.1 == i) }

/-- The quad of the request block that holds PART, GO, REVOKE, INDEX, DONE and STATUS. -/
def reqCtl : Nat := loadReqOff + 24

/-- GO starts a verification. -/
def startImage (s : State) : State := { (s.setRegBits reqCtl 14 1 0) with imageReq := true }

/-- A write to the request block. IMGBASE and DESCOFF are taken as they are, and a misaligned one ends in STATUS 3 (log 20).
Where one write sets REVOKE and GO, REVOKE comes first (log 61). -/
def writeRequest (s : State) (off q : Nat) (v : Word) : State :=
  if q < 3 then s.setReg off v
  else if q = 3 then
    if 47 < bitsOf v.toNat 0 6 then s.refuseWin off
    else if v.getLsbD 8 && s.imageReq then s.refuseWin off
    else
      let s1 := s.putReg off 0x3C3F v
      let s2 := if v.getLsbD 9 then revokeImage s1 (bitsOf v.toNat 0 6) (bitsOf v.toNat 10 4) else s1
      if v.getLsbD 8 then startImage s2 else s2
  else s

/-! ### Dies and worlds (R266, R269) -/

/-- Whether a die's WORLD may change: every bank free and its clusters in no enabled partition (R266). -/
def State.dieFree (s : State) (d : Nat) : Bool :=
  (List.range 128).all (fun i => s.bankFree (128 * d + i)) &&
    !(List.range 48).any fun q => s.partEn q && decide (s.partBase q / 8 ≤ d) && decide (d ≤ s.partLim q / 8)

/-- A write of WORLD; latching a confidential world makes its keys. -/
def writeWorld (s : State) (d : Nat) (v : Word) : State :=
  if !s.dieFree d then s.refuseWinAt d (dieOff d)
  else
    let s1 := s.setReg (dieOff d) (v &&& 0x1FF)
    let wid := bitsOf v.toNat 0 8
    if v.getLsbD 8 && wid != 0 && !s1.worldKeys.any fun e => e.1 == wid then
      { s1 with worldKeys := (wid, s1.keyCount + 1) :: s1.worldKeys, keyCount := s1.keyCount + 1 }
    else s1

/-- Event codes of a cluster and of a die (R269). -/
def clusterEvent (c : Nat) : Bool := decide (0x40 ≤ c) && decide (c ≤ 0x43)
def dieEvent (c : Nat) : Bool := decide (0x80 ≤ c) && decide (c ≤ 0x86)

def writeDie (s : State) (off d o : Nat) (v : Word) : State :=
  if o = 0 then writeWorld s d v
  else if 0x100 ≤ o ∧ o < 0x180 then s.setReg off (selStored dieEvent v)
  else if 0x180 ≤ o ∧ o < 0x200 then s.setReg off v
  else s

/-- The margin mirrors (R316). -/
def mirrorRead (s : State) (d o : Nat) : Word :=
  let m := ((s.core (64 * d + (o - 0x400) / 0x30)).margin).expire s.cycle
  match (o - 0x400) % 0x30 / 8 with
  | 0 => m.ctl
  | 1 => m.stat
  | 2 => BitVec.ofNat 64 m.limit
  | 3 => m.escReg
  | 4 => m.log
  | _ => m.qinfo

/-! ### VF register pages (R232, R308–R310, R322) -/

def State.qEn (s : State) (u q : Nat) : Bool := s.regBits (queueOff u q + 8) 8 1 == 1
def State.qNet (s : State) (u q : Nat) : Bool := s.regBits (queueOff u q + 8) 7 1 == 1
def State.qPrio (s : State) (u q : Nat) : Nat := s.regBits (queueOff u q + 8) 5 2
def State.qSize (s : State) (u q : Nat) : Nat := 2 ^ s.regBits (queueOff u q + 8) 0 5
def State.qWidx (s : State) (u q : Nat) : Nat := s.regBits (queueOff u q + 16) 0 17
def State.qRidx (s : State) (u q : Nat) : Nat := s.regBits (queueOff u q + 24) 0 17
def State.qErr (s : State) (u q : Nat) : Bool := s.regBits (queueOff u q + 32) 0 2 == 2
/-- Packets pending (R232). -/
def State.qPending (s : State) (u q : Nat) : Nat :=
  (s.qWidx u q + 2 * s.qSize u q - s.qRidx u q) % (2 * s.qSize u q)
/-- A launch taken from the ring that still waits at the head, for signals or placement. -/
def State.qHead (s : State) (u q : Nat) : Option Launch :=
  s.launches.find? fun l => l.vf == u && l.q == q && decide (l.placed < l.teams)
/-- STATE (R232). -/
def State.qState (s : State) (u q : Nat) : Nat :=
  if s.qErr u q then 2 else if s.qEn u q && (s.qPending u q != 0 || (s.qHead u q).isSome) then 1 else 0

/-- A doorbell: refused while EN = 0 and in ERROR, ignored from the guest of a network-fed queue, ERROR for a value or a
count beyond the ring (R232, R308). -/
def doorbell (s : State) (u q : Nat) (who : WinAgent) (widx : Word) : State :=
  let off := queueOff u q + 16
  if s.qNet u q && who = .guest then s
  else if !s.qEn u q then s.refuseWin off
  else if s.qErr u q then s.refuseWin off
  else
    let n := bitsOf widx.toNat 0 17
    let size := s.qSize u q
    if 2 * size ≤ n ∨ size < (n + 2 * size - s.qRidx u q) % (2 * size) then
      (s.queueError u q (BitVec.ofNat 64 (0xFFF0000000000000 + off))).out (.windowError off)
    else s.setRegBits off 0 17 n

/-- EN := 0 leaves ERROR: STATE IDLE, RIDX and WIDX 0 (R308). The spec says this of a queue in ERROR alone; in the model it is so
of every queue, and a launch taken from the ring before still waits and is placed (log 60). -/
def disableQueue (s : State) (u q : Nat) : State :=
  (((s.setRegBits (queueOff u q + 8) 8 1 0).setRegBits (queueOff u q + 16) 0 17 0).setRegBits (queueOff u q + 24) 0 17
    0).setRegBits (queueOff u q + 32) 0 2 0

/-- Whether a ring is acceptable when EN is set (R308). -/
def ringOk (qbase log2 : Nat) : Bool :=
  decide (1 ≤ log2) && decide (log2 ≤ 16) && qbase % 64 == 0 && decide (qbase + 64 * 2 ^ log2 ≤ 2 ^ 56)

/-- EN := 1: the queue is enabled, in ERROR if the ring is not acceptable (R308). -/
def enableQueue (s : State) (u q : Nat) : State :=
  let s1 := s.setRegBits (queueOff u q + 8) 8 1 1
  if ringOk (s1.reg (queueOff u q)).toNat (s1.regBits (queueOff u q + 8) 0 5) then s1
  else (s1.queueError u q (s1.reg (queueOff u q))).out (.windowError (queueOff u q + 8))

/-- A write of the quad with LOG2SIZE, PRIO, NET and EN. A guest's PRIO and NET are dropped. -/
def writeQueueCtl (s : State) (u q : Nat) (who : WinAgent) (v : Word) : State :=
  let off := queueOff u q + 8
  let en := s.qEn u q
  if en ∧ bitsOf v.toNat 0 5 ≠ s.regBits off 0 5 then s.refuseWin off
  else
    let s1 := s.putReg off (if who = .guest then 0x1F else 0xFF) v
    if v.getLsbD 8 then (if en then s1 else enableQueue s1 u q) else disableQueue s1 u q

/-- HSEQ (R310): an error response while the channel is halted. -/
def writeHseq (s : State) (u j : Nat) (v : W32) : State :=
  if !s.hasBounce u then s
  else if s.regBits (bounceOff u j + 8) 18 1 = 1 then s.refuseWin (bounceOff u j + 16)
  else s.setRegBits (bounceOff u j + 16) 0 32 v.toNat
/-- RESYNC (R310): it succeeds only for DSEQ. -/
def writeResync (s : State) (u j : Nat) (v : W32) : State :=
  if !s.hasBounce u then s
  else if v.toNat ≠ s.regBits (bounceOff u j + 16) 32 32 then s.refuseWin (bounceOff u j + 24)
  else (s.setRegBits (bounceOff u j + 16) 0 32 v.toNat).setRegBits (bounceOff u j + 8) 18 1 0

def writeBounce (s : State) (off u j q : Nat) (who : WinAgent) (v : Word) : State :=
  match q with
  | 0 => if who = .guest then s else if v.toNat % 4096 ≠ 0 then s.refuseWin off else s.setReg off v
  | 1 =>
    if who = .guest then s
    else if 10 < bitsOf v.toNat 0 4 then s.refuseWin off
    else s.putReg off 0x3FF0F v
  | 2 => writeHseq s u j (v.setWidth 32)
  | _ => writeResync s u j ((v >>> 32).setWidth 32)

def writeSnap (s : State) (off q : Nat) (who : WinAgent) (v : Word) : State :=
  if who = .guest then s
  else match q with
  | 0 => if v.toNat % 4096 ≠ 0 then s.refuseWin off else s.setReg off v
  | 1 => s.putReg off 0xFFFFFFFF v
  | 2 => if v.getLsbD 0 then s.setRegBits off 0 1 0 else s
  | _ => s

/-- A write to offset `o` of a VF's register page. -/
def writePage (s : State) (off u o : Nat) (who : WinAgent) (v : Word) : State :=
  if o < 0x200 then
    let q := o / 0x40
    match o % 0x40 / 8 with
    | 0 => if s.qEn u q then s.refuseWin off else s.setReg off v
    | 1 => writeQueueCtl s u q who v
    | 2 => doorbell s u q who v
    | _ => s
  else if o < 0x280 then if !s.hasBounce u then s else writeBounce s off u ((o - 0x200) / 0x20) (o % 0x20 / 8) who v
  else if 0x300 ≤ o ∧ o < 0x320 then writeSnap s off ((o - 0x300) / 8) who v
  else s

/-- A read of a VF's register page: STATE is computed. -/
def readPage (s : State) (off u o : Nat) : Word :=
  if o < 0x200 ∧ o % 0x40 = 32 then BitVec.ofNat 64 (s.qState u (o / 0x40))
  else if 0x200 ≤ o ∧ o < 0x280 ∧ s.hasBounce u = false then 0
  else s.reg off

/-! ### Flows, launch table, rings (R236, R265, R287) -/

/-- Withdraw the posted buffers of a flow that no message has begun to fill (R306). -/
def clearFlow (s : State) (p f : Nat) : State :=
  { (s.setRegBits (flowOff p f) 0 1 0) with posted := SMap.set (fun _ => []) s.posted (4096 * p + f) [] }

def writeFlow (s : State) (off p f q : Nat) (v : Word) : State :=
  match q with
  | 0 =>
    if 11 < bitsOf v.toNat 16 4 then s.refuseWin off
    else
      let s1 := s.putReg off 0xFFFFFFFF000FFF03 v
      if s.regBits off 0 1 = 1 ∧ v.getLsbD 0 = false then clearFlow s1 p f else s1
  | 1 => s.putReg off 0x0FFFFFFFFFFFFFFF v
  | 2 => s.putReg off 0xFFFF v
  | _ => s

def writeLaunchTable (s : State) (off q : Nat) (v : Word) : State :=
  match q with
  | 0 => if 191 < bitsOf v.toNat 8 8 then s.refuseWin off else s.putReg off 0x0000FFFFFF07FF01 v
  | 1 => s.setReg off v
  | 2 => if 64 < bitsOf v.toNat 16 16 then s.refuseWin off else s.setReg off v
  | _ => s.putReg off 0xFFFFFFFF v

def writeRing (s : State) (off q : Nat) (v : Word) : State :=
  match q with
  | 0 => if v.toNat % 4096 ≠ 0 then s.refuseWin off else s.setReg off v
  | 1 =>
    let n := bitsOf v.toNat 0 4
    if n ≠ 0 ∧ (n < 4 ∨ 12 < n) then s.refuseWin off else s.putReg off 0xF v
  | 2 => s.putReg off 0xFFFFFFFF v
  | _ => s

/-! ### The whole window -/

/-- A read at an 8-byte aligned offset (R258) below M; a reserved offset reads 0, write-only bits read 0, and so do the HWORLD
registers, which are M's alone (R266; log 62). -/
def winRead (s : State) (off : Nat) : Word :=
  if 0xA000 ≤ off ∧ off < 0xA200 then 0
  else if 0x1000000 ≤ off ∧ off < 0x1008000 ∧ 0x400 ≤ off % 0x1000 then mirrorRead s ((off - 0x1000000) / 0x1000) (off % 0x1000)
  else if 0x10000000 ≤ off ∧ off < 0x30000000 then ctxRead s ((off - 0x10000000) / 0x10000) (off % 0x10000)
  else if 0x40000000 ≤ off ∧ off < 0x400C0000 then readPage s off ((off - 0x40000000) / 0x1000) (off % 0x1000)
  else if 0x1000000 ≤ off ∧ off < 0x1008000 ∧ 0x180 ≤ off % 0x1000 ∧ off % 0x1000 < 0x200 then
    counterRead s.tick off (s.reg (off - 0x80)) (s.reg off)
  else if 0x1100000 ≤ off ∧ off < 0x1104000 ∧ 0x40 ≤ off % 0x100 ∧ off % 0x100 < 0x80 then
    counterRead s.tick off (s.reg (off - 0x40)) (s.reg off)
  else s.reg off

/-- What a write at an 8-byte aligned offset stores. A guest reaches its register page alone (R255). -/
def winStore (s : State) (off : Nat) (who : WinAgent) (v : Word) : State :=
  if 0x40000000 ≤ off ∧ off < 0x400C0000 then
    writePage s off ((off - 0x40000000) / 0x1000) (off % 0x1000) who v
  else if who = .guest then s.refuseWin off
  else if off < 0xC00 then writePart s off (off / 0x40) (off % 0x40 / 8) v
  else if 0x1000 ≤ off ∧ off < 0x2800 then writeVf s off ((off - 0x1000) / 0x20) (off % 0x20 / 8) v
  else if 0x4000 ≤ off ∧ off < 0x4180 then writeControl s ((off - 0x4000) / 8) v
  else if 0x6000 ≤ off ∧ off < 0x7800 then s.refuseWin off
  else if 0x7800 ≤ off ∧ off < 0x7840 then writeRequest s off ((off - 0x7800) / 8) v
  else if 0x8000 ≤ off ∧ off < 0x8C00 then writeRing s off (off % 0x40 / 8) v
  else if 0xA000 ≤ off ∧ off < 0xA200 then (if who = .machine then s.putReg off 0xFF v else s)
  else if 0x10000 ≤ off ∧ off < 0x12000 then writeLaunchTable s off (off % 0x20 / 8) v
  else if 0x100000 ≤ off ∧ off < 0x700000 then
    writeFlow s off ((off - 0x100000) / 0x20000) (off % 0x20000 / 0x20) (off % 0x20 / 8) v
  else if 0x1000000 ≤ off ∧ off < 0x1008000 then writeDie s off ((off - 0x1000000) / 0x1000) (off % 0x1000) v
  else if 0x1100000 ≤ off ∧ off < 0x1104000 then
    if off % 0x100 < 0x40 then s.setReg off (selStored clusterEvent v)
    else if off % 0x100 < 0x80 then s.setReg off v
    else s
  else if 0x10000000 ≤ off ∧ off < 0x30000000 then ctxWrite s ((off - 0x10000000) / 0x10000) (off % 0x10000) v
  else s

/-- A write to the window wakes those that watch its line, whoever makes it (R172). -/
def State.wakeWin (s : State) (off : Nat) : State := { s with waiters := wakeLines s.waiters 2000 (off / 128) (off / 128) }
/-- A write at an 8-byte aligned offset. -/
def winWrite (s : State) (off : Nat) (who : WinAgent) (v : Word) : State := (winStore s off who v).wakeWin off

/-! ### The steps that are window writes -/

/-- WINDOW_WRITE (R258). An access that is not aligned receives an error response. -/
def execWindowWrite (off : Nat) (v : Word) (path : WinPath) (s : State) : Out :=
  .next (if off % 8 ≠ 0 then s.refuseWin off else winWrite s off (WinPath.agent path) v)
/-- RESUME (R288): the word at 0xFFF8 of a wave's context-access window. -/
def execResume (w : Nat) (v : Word) (s : State) : Out := .next ((ctxWrite s w 0xFFF8 v).wakeWin (ctxOff w + 0xFFF8))
/-- DELIVER (R288): the word at 0xFFF0. -/
def execDeliver (w : Nat) (v : Word) (s : State) : Out := .next ((ctxWrite s w 0xFFF0 v).wakeWin (ctxOff w + 0xFFF0))
/-- KILL (R288): the word at 0xFFE8. -/
def execKill (w : Nat) (v : Word) (s : State) : Out := .next ((ctxWrite s w 0xFFE8 v).wakeWin (ctxOff w + 0xFFE8))
/-- QUEUE_DOORBELL (R232), through the page mapped into the guest. -/
def execQueueDoorbell (vf q : Nat) (widx : Word) (s : State) : Out :=
  .next ((doorbell s vf q .guest widx).wakeWin (queueOff vf q + 16))
/-- QUEUE_ENABLE (R308): the quad with EN set. -/
def execQueueEnable (vf q : Nat) (s : State) : Out :=
  .next ((writeQueueCtl s vf q .guest (s.reg (queueOff vf q + 8) ||| 0x100)).wakeWin (queueOff vf q + 8))
/-- QUEUE_DISABLE (R308): the quad with EN clear. -/
def execQueueDisable (vf q : Nat) (s : State) : Out :=
  .next ((writeQueueCtl s vf q .guest (s.reg (queueOff vf q + 8) &&& ~~~0x100#64)).wakeWin (queueOff vf q + 8))
/-- PARTITION_HALT (R264). -/
def execPartitionHalt (p : Nat) (s : State) : Out := .next ((writeControl s p 1).wakeWin (ctlOff p))
/-- PARTITION_RESUME (R264). -/
def execPartitionResume (p : Nat) (s : State) : Out := .next ((writeControl s p 2).wakeWin (ctlOff p))
/-- IMAGE_LOAD_GO (R261): GO written with the block's other fields as they stand. -/
def execImageLoadGo (s : State) : Out := .next ((writeRequest s reqCtl 3 (s.reg reqCtl ||| 0x100)).wakeWin reqCtl)
/-- IMAGE_REVOKE (R261): REVOKE written with the block's other fields as they stand. -/
def execImageRevoke (s : State) : Out := .next ((writeRequest s reqCtl 3 (s.reg reqCtl ||| 0x200)).wakeWin reqCtl)
/-- WORLD_WRITE (R266). -/
def execWorldWrite (die : Nat) (v : Word) (s : State) : Out := .next ((writeWorld s die v).wakeWin (dieOff die))
/-- WORLD_KEY_DESTROY (R266): the keys of a world that no die holds. -/
def execWorldKeyDestroy (world : Nat) (s : State) : Out :=
  .next (if (List.range 8).any fun d => s.wid d == world && s.regBits (dieOff d) 8 1 == 1 then s
    else { s with worldKeys := s.worldKeys.filter fun e => e.1 ≠ world })
/-- BOUNCE_RESYNC (R310). -/
def execBounceResync (vf j : Nat) (v : W32) (s : State) : Out := .next ((writeResync s vf j v).wakeWin (bounceOff vf j + 24))
/-- BOUNCE_HSEQ_WRITE (R310). -/
def execBounceHseqWrite (vf j : Nat) (v : W32) (s : State) : Out := .next ((writeHseq s vf j v).wakeWin (bounceOff vf j + 16))
/-- FLOW_VALID_CLEAR (R306). -/
def execFlowValidClear (p flow : Nat) (s : State) : Out := .next ((clearFlow s p flow).wakeWin (flowOff p flow))

end Sys2Proof.Machine
end

