-- ==== Sys2Proof/Machine/Memory.lean ====
section
/-! DEFINITION. Machine/Memory.lean: loads, stores, atomics, reductions, fences, MWAIT and cache maintenance
(R160–R173), the commit gate's release (R249) and the return of a load's data. -/
namespace Sys2Proof.Machine

/-! ### Elements and their checks (R163, R277, R296) -/

/-- Bytes of an access. -/
def sizeBytes : Size → Nat
  | .b8 => 1 | .b16 => 2 | .b32 => 4 | .b64 => 8
def wideBytes (wide : Bool) : Nat := if wide then 8 else 4

/-- A[i] (R163). -/
def State.laneAddr (s : State) (sb : SReg) (imm : Word) (vo : VReg) (n i : Nat) : Word :=
  s.S sb + imm + (if vo = 60 then BitVec.ofNat 64 (n * i) else (s.cw.v vo.toNat i).signExtend 64)

/-- An active lane's element and what its checks find. -/
structure Elem where
  i : Nat
  addr : Word
  res : Res
deriving DecidableEq, Repr

/-- The elements of the active lanes. -/
def State.elemsOf (s : State) (acc : Acc) (n : Nat) (mask : Mask) (addr : Nat → Word) : List Elem :=
  (laneList.filter fun i => mask.getLsbD i).map fun i =>
    { i := i, addr := addr i, res := resolve s s.cur.1 acc (addr i) n }

def Res.isFault : Res → Bool
  | .fault _ => true
  | _ => false
def Res.granule : Res → Option (Nat × Nat)
  | .park b g => some (b, g)
  | _ => none
def Res.cause : Res → Cause
  | .fault c => c
  | _ => .xlate
def Res.loc : Res → Loc
  | .ok l _ => l
  | _ => .phys 0

/-- An address in a scratchpad window. -/
def inScratch (a : Word) : Bool := decide (0xFF00000000000000 ≤ a.toNat) && decide (a.toNat < 0xFF20000000000000)

/-- An instance with an element in a scratchpad window enters stage 7 as well (R352). -/
def State.stage7 (s : State) (addrs : List Word) : State :=
  if addrs.any inScratch then
    { s with stages := s.stages ++ [{ core := coreOf s.cur.1, stage := 7, pc := s.cs.pc }] }
  else s

/-- All elements of a vector access: a trap that records every failing lane, else a park on every granule that is not
resident, else the access itself (R163, R277). -/
def accessV (s : State) (acc : Acc) (n : Nat) (mask : Mask) (addr : Nat → Word) (rd wr at_ : Bool)
    (k : State → List Elem → State) : State :=
  let es := s.elemsOf acc n mask addr
  let s := s.stage7 (es.map Elem.addr)
  let bad := es.filter fun e => e.res.isFault
  if bad ≠ [] then
    let find (i : Nat) : Cause := match bad.find? fun e => e.i == i with | some e => e.res.cause | none => .xlate
    let s1 := bad.foldl (fun t e => t.logFault t.cur.1 acc e.res.cause e.addr) s
    s1.trapLanes s.cur.1 s.cur.2 find (laneMask fun i => bad.any fun e => e.i == i) (fun _ => 0) addr s.cs.pc s.cs.pc
      false
  else
    let gs := es.filterMap fun e => e.res.granule
    if gs ≠ [] then s.parkAll gs rd wr at_
    else k (es.foldl (fun t e => t.holdRes t.cur.1 e.addr e.res) s) es

/-- The single element of a scalar access: an instruction cause (R284). -/
def accessS (s : State) (acc : Acc) (n : Nat) (addr : Word) (rd wr at_ : Bool) (k : State → Res → State) : State :=
  let s := s.stage7 [addr]
  match resolve s s.cur.1 acc addr n with
  | .fault c => (s.logFault s.cur.1 acc c addr).trapCur c addr
  | .park b g => s.parkCur b g rd wr at_
  | .ok l leaf =>
    let r := Res.ok l leaf
    k (s.holdRes s.cur.1 addr r) r

/-- What an element reads. -/
def State.readElem (s : State) (w : Nat) (l : Loc) (n : Nat) : Word :=
  match l with
  | .win o => winRead s o
  | _ => BitVec.ofNat 64 (s.readLoc w l n)

/-- An element's store. -/
def State.writeElem (s : State) (w : Nat) (e : StoreElem) : State :=
  match e.loc with
  | .win o => winWrite s o .wave e.value
  | l => s.writeLoc w l (leBytes e.size e.value.toNat) e.norep

/-! ### Loads and stores (R162, R163) -/

/-- Zero- or sign-extension of `n` bytes. -/
def extendBytes (sx : Bool) (n : Nat) (v : Word) : Word := if sx then sext (8 * n) v.toNat else v

/-- The slot goes on; what its instruction has issued is pending. -/
def State.pendOn (s : State) (len : Nat) (p : Pend) : State :=
  let s1 := s.advance len
  s1.setCw { s1.cw with pend := p }

/-- The slot goes on; its instruction's effect is in the commit gate (R249). -/
def State.gateOn (s : State) (len : Nat) (e : Effect) : State :=
  let s1 := s.advance len
  s1.setCw { s1.cw with gates := s1.cw.gates ++ [
    { x := s.cur.2, mask := s.cs.mask, pc := s.cs.pc, hand := s.cw.handler, stages := s.stages.map (·.stage)
      effect := e }] }

/-- A location in the system configuration window. -/
def Loc.isWin : Loc → Bool
  | .win _ => true
  | _ => false

/-- What an element of a load reads. -/
def ReadElem.ret (e : ReadElem) (s : State) (w : Nat) : LoadRet :=
  { dest := e.dest, value := extendBytes e.sx e.size (s.readElem w e.loc e.size), addr := e.addr
    poisoned := s.poisonLoc e.loc e.size }

/-- The slot goes on; what a load has read returns later. -/
def State.loadPend (s : State) (len : Nat) (rets : List LoadRet) : State :=
  s.pendOn len (.load s.cur.2 s.cs.pc (s.stages.map (·.stage)) rets)
/-- A load that reads the system configuration window is in the commit gate first, and reads as it leaves it (R249). -/
def State.loadOn (s : State) (len : Nat) (es : List ReadElem) : State :=
  if es.any fun e => e.loc.isWin then s.gateOn len (.read es) else s.loadPend len (es.map fun e => e.ret s s.cur.1)

/-- VLD: the data is read as one element a lane and returns later. -/
def vldOp (s : State) (len : Nat) (t : VReg) (sb : SReg) (vo : VReg) (k : KReg) (imm : Word) (m : MemQ) : Out :=
  issue s (Info.mem len) fun u =>
    let n := sizeBytes m.size
    accessV u .load n (u.active k) (fun i => u.laneAddr sb imm vo n i) true false false fun u es =>
      if es = [] then u.advance len
      else
        u.loadOn len (es.map fun e =>
          { loc := e.res.loc, size := n, sx := m.sx, dest := .lane t (m.size = .b64) e.i, addr := e.addr })
/-- VLD (R163). -/
def execVld (t : VReg) (sb : SReg) (vo : VReg) (k : KReg) (imm : BitVec 20) (m : MemQ) (s : State) : Out :=
  vldOp s 8 t sb vo k (imm.signExtend 64) m
/-- VLD with a literal (R162). -/
def execVldLit (t : VReg) (sb : SReg) (vo : VReg) (k : KReg) (m : MemQ) (l : W32) (s : State) : Out :=
  vldOp s 12 t sb vo k (l.signExtend 64) m

/-- The value of a vector register or pair in a lane. -/
def Wave.vv (W : Wave) (t : VReg) (wide : Bool) (i : Nat) : Word :=
  if wide then W.v (t.toNat + 1) i ++ W.v t.toNat i else (W.v t.toNat i).setWidth 64

/-- VST: the elements enter the commit gate. -/
def vstOp (s : State) (len : Nat) (t : VReg) (sb : SReg) (vo : VReg) (k : KReg) (imm : Word) (m : MemQ) : Out :=
  issue s (Info.mem len) fun u =>
    let n := sizeBytes m.size
    accessV u .vstore n (u.active k) (fun i => u.laneAddr sb imm vo n i) false true false fun u es =>
      if es = [] then u.advance len
      else
        u.gateOn len (.store (es.map fun e =>
          { addr := e.addr, loc := e.res.loc, size := n, value := u.cw.vv t (m.size = .b64) e.i, norep := e.res.norep }))
/-- VST (R163). -/
def execVst (t : VReg) (sb : SReg) (vo : VReg) (k : KReg) (imm : BitVec 20) (m : MemQ) (s : State) : Out :=
  vstOp s 8 t sb vo k (imm.signExtend 64) m
/-- VST with a literal (R162). -/
def execVstLit (t : VReg) (sb : SReg) (vo : VReg) (k : KReg) (m : MemQ) (l : W32) (s : State) : Out :=
  vstOp s 12 t sb vo k (l.signExtend 64) m

/-- An address in a scratchpad, buffer or system window (R329). -/
def inWindow (a : Word) : Bool :=
  (decide (0xFE00000000000000 ≤ a.toNat) && decide (a.toNat < 0xFE30000000000000)) ||
    (decide (0xFF00000000000000 ≤ a.toNat) && decide (a.toNat < 0xFF20000000000000)) ||
    decide (0xFFF0000000000000 ≤ a.toNat)

/-- The byte that a step's own buffered stores hold for a physical address, the newest (R211). -/
def bufferByte (buf : List StoreElem) (a : Nat) : Option Byte :=
  buf.foldl (fun acc e => match e.loc with
    | .phys p => if p ≤ a ∧ a < p + e.size then some (BitVec.ofNat 8 (e.value.toNat / 256 ^ (a - p))) else acc
    | _ => acc) none

/-- What SLD reads under the capsule limits: buffered bytes, else memory. -/
def State.readCapsule (s : State) (buf : List StoreElem) (l : Loc) (n : Nat) : Word × Bool :=
  match l with
  | .phys a =>
    let mem := leBytes n (s.readFor s.cur.1 a n)
    (BitVec.ofNat 64 (leValue ((List.range n).map fun i => (bufferByte buf (a + i)).getD (mem.getD i 0))),
      (List.range n).any fun i => (bufferByte buf (a + i)).isNone && s.poisoned (a + i) 1)
  | _ => (s.readElem s.cur.1 l n, false)

/-- The step's buffered stores. -/
def Wave.buffer (W : Wave) : List StoreElem :=
  match W.capsule with
  | some c => c.buffer
  | none => []

/-- SLD (R163, R211). -/
def sldOp (s : State) (len : Nat) (t sb : SReg) (imm : Word) (m : MemQ) : Out :=
  issue s { Info.mem len with cap := some [t, sb], selfCount := true } fun u =>
    let n := sizeBytes m.size
    let a := u.S sb + imm
    if u.cw.limited && inWindow a then u.trapCur .capill a
    else accessS u .load n a true false false fun u r =>
      if u.cw.limited then
        let (v, bad) := u.readCapsule u.cw.buffer r.loc n
        u.countStep.loadPend len [{ dest := .scalar t, value := extendBytes m.sx n v, addr := a, poisoned := bad }]
      else u.loadOn len [{ loc := r.loc, size := n, sx := m.sx, dest := .scalar t, addr := a }]
/-- SLD (R163). -/
def execSld (t sb : SReg) (imm : BitVec 20) (m : MemQ) (s : State) : Out := sldOp s 8 t sb (imm.signExtend 64) m
/-- SLD with a literal (R162). -/
def execSldLit (t sb : SReg) (m : MemQ) (l : W32) (s : State) : Out := sldOp s 12 t sb (l.signExtend 64) m

/-- A step's store is buffered in the wave; the fifth traps CAPLIM (R211, R329). -/
def State.bufferStore (s : State) (len : Nat) (e : StoreElem) : State :=
  match s.cw.capsule with
  | none => s
  | some c =>
    if 4 ≤ c.ssts then s.trapCur .caplim 0
    else
      let s1 := (s.setCw { s.cw with capsule := some { c with ssts := c.ssts + 1, buffer := c.buffer ++ [e] } }).countStep
      s1.advance len

/-- SST (R163, R211). -/
def sstOp (s : State) (len : Nat) (t sb : SReg) (imm : Word) (m : MemQ) : Out :=
  issue s { Info.mem len with cap := some [t, sb], selfCount := true } fun u =>
    let n := sizeBytes m.size
    let a := u.S sb + imm
    if u.cw.limited && inWindow a then u.trapCur .capill a
    else accessS u .store n a false true false fun u r =>
      let e : StoreElem := { addr := a, loc := r.loc, size := n, value := u.S t, norep := r.norep }
      if u.cw.limited then u.bufferStore len e else u.gateOn len (.store [e])
/-- SST (R163). -/
def execSst (t sb : SReg) (imm : BitVec 20) (m : MemQ) (s : State) : Out := sstOp s 8 t sb (imm.signExtend 64) m
/-- SST with a literal (R162). -/
def execSstLit (t sb : SReg) (m : MemQ) (l : W32) (s : State) : Out := sstOp s 12 t sb (l.signExtend 64) m

/-! ### Atomics and reductions (R166–R169) -/

/-- f(old, b) on patterns of `8 × n` bits (R167). -/
def AtomOp.apply (op : AtomOp) (n : Nat) (old b expected : Word) : Word :=
  let x : Int := IFmt.value ⟨8 * n, true⟩ old.toNat
  let y : Int := IFmt.value ⟨8 * n, true⟩ b.toNat
  let low (v : Word) : Word := BitVec.ofNat 64 (v.toNat % 2 ^ (8 * n))
  match op with
  | .add => low (old + b)
  | .min => if x < y then old else b
  | .max => if x < y then b else old
  | .minn => if old.ult b then old else b
  | .maxn => if old.ult b then b else old
  | .and => old &&& b
  | .or => old ||| b
  | .xor => old ^^^ b
  | .swap => b
  | .cas => if old = expected then b else old
  | .fadd => BitVec.ofNat 64 ((FFmt.f32.finish .inf (FFmt.f32.fadd .rne old.toNat b.toNat)).getD 0)
  | .fmin => BitVec.ofNat 64 (FFmt.f32.minMax false old.toNat b.toNat)
  | .fmax => BitVec.ofNat 64 (FFmt.f32.minMax true old.toNat b.toNat)

/-- The operand and the expected value that VATOM takes from its registers in a lane (R166). -/
def Wave.atomV (W : Wave) (t : VReg) (wide : Bool) (i : Nat) : Word × Word :=
  (W.vv t wide i, W.vv (t + (if wide then 2 else 1)) wide i)

/-- VATOM and MRED: the elements enter the commit gate in lane order. Their fault records set AT alone (log 44). -/
def vatomOp (s : State) (op : AtomOp) (t : VReg) (sb : SReg) (vo : VReg) (k : KReg) (imm : BitVec 16) (m : AtomQ)
    (returns : Bool) : Out :=
  issue s (Info.mem 8) fun u =>
    let n := wideBytes m.wide
    accessV u .atomic n (u.active k) (fun i => u.laneAddr sb (imm.signExtend 64) vo n i) false false true fun u es =>
      if es = [] then u.advance 8
      else
        u.gateOn 8 (.atomic op (es.map fun e =>
          { loc := e.res.loc, size := n, operand := (u.cw.atomV t m.wide e.i).1
            expected := (u.cw.atomV t m.wide e.i).2, lane := some e.i
            dest := if returns then some (.lane t m.wide e.i) else none, addr := e.addr, norep := e.res.norep }))
/-- VATOM (R167). -/
def execVatom (op : AtomOp) (t : VReg) (sb : SReg) (vo : VReg) (k : KReg) (imm : BitVec 16) (m : AtomQ) (s : State) :
    Out := vatomOp s op t sb vo k imm m true
/-- MRED (R167, R169). -/
def execMred (op : AtomOp) (t : VReg) (sb : SReg) (vo : VReg) (k : KReg) (imm : BitVec 16) (m : AtomQ) (s : State) :
    Out := vatomOp s op t sb vo k imm m false
/-- SATOM (R167): the low 32 bits of the operands for SZ 10. -/
def execSatom (op : AtomOp) (t sb : SReg) (imm : BitVec 16) (m : AtomQ) (s : State) : Out :=
  issue s (Info.mem 8) fun u =>
    let n := wideBytes m.wide
    let a := u.S sb + imm.signExtend 64
    let low (v : Word) : Word := BitVec.ofNat 64 (v.toNat % 2 ^ (8 * n))
    accessS u .atomic n a false false true fun u r =>
      u.gateOn 8 (.atomic op
        [{ loc := r.loc, size := n, operand := low (u.S t), expected := low (u.S (t + 1)), lane := none
           dest := some (.scalar t), addr := a, norep := r.norep }])

/-! ### The commit gate and the return of data (R249) -/

/-- The elements of an atomic in order: each reads, combines and writes as one event (R167). -/
def atomRun (w : Nat) (op : AtomOp) : List AtomElem → State → State × List LoadRet
  | [], s => (s, [])
  | e :: es, s =>
    let old := s.readElem w e.loc e.size
    let s1 := s.writeElem w {
      addr := e.addr, loc := e.loc, size := e.size, value := AtomOp.apply op e.size old e.operand e.expected, norep := e.norep }
    let (s2, rets) := atomRun w op es s1
    match e.dest with
    | some d => (s2, { dest := d, value := old, addr := e.addr, poisoned := false } :: rets)
    | none => (s2, rets)

/-- POISON for the lanes, or for the instruction, whose data is poisoned; the launch is rolled back (R300, R320). -/
def State.poisonTrap (s : State) (w : Nat) (x : SlotId) (pc : Word) (bad : List (Option Nat × Word)) : State :=
  match bad.filterMap fun e => e.1.map fun i => (i, e.2) with
  | [] => s.consume w x (instrTrap .poison ((bad.headD (none, 0)).2) pc)
  | ls =>
    (s.trapLanes w x (fun _ => .poison) (laneMask fun i => ls.any fun e => e.1 == i) (fun _ => 0)
      (fun i => match ls.find? fun e => e.1 == i with | some e => e.2 | none => 0) pc pc false).rollbackOf w

/-- What slot x of a wave has in the commit gate. -/
def Wave.gate (W : Wave) (x : SlotId) : Option Gated := W.gates.find? fun g => g.x == x
/-- The wave without it. -/
def Wave.ungate (W : Wave) (x : SlotId) : Wave := { W with gates := W.gates.filter fun g => !(g.x == x) }

/-- What has been read comes back (R163): no check of it can fail any more, and a wave whose flows are over needs it not. -/
def State.returning (s : State) (w : Nat) (x : SlotId) (pc : Word) (rets : List LoadRet) : State :=
  let W := s.wave w
  if rets = [] ∨ W.noFlow = true then s
  else s.setWave w { W with pend := .load x pc [] rets }

/-- An effect leaves the core (R249). What the wave's transfers have still to read is kept as it was (R200), and a wave whose
flows are over may retire (R275). -/
def releaseGate (s : State) (w : Nat) (x : SlotId) : State :=
  match (s.wave w).gate x with
  | none => s
  | some g =>
    let s1 := ((s.setWave w ((s.wave w).ungate x)).countEvent (coreOf w) 9 (some (s.wave w).system)).capture w
    let s2 : State := match g.effect with
      | .read es => s1.returning w x g.pc (es.map fun e => e.ret s1 w)
      | .store es => es.foldl (fun t e => t.writeElem w e) s1
      | .atomic op es =>
        let bad := es.filter fun e => s1.poisonLoc e.loc e.size
        if bad ≠ [] then s1.poisonTrap w x g.pc (bad.map fun e => (e.lane, e.addr))
        else (atomRun w op es s1).1.returning w x g.pc (atomRun w op es s1).2
    s2.endDying w

/-- COMMIT_GATE_RELEASE (R249). -/
def execCommitGateRelease (w : Nat) (x : SlotId) (s : State) : Out := .next (releaseGate s w x)

/-- Write a returned value to its registers. -/
def Wave.putRet (W : Wave) (r : LoadRet) : Wave :=
  match r.dest with
  | .scalar d => W.setS d r.value
  | .lane t wide i =>
    let W1 := W.setV t.toNat i (r.value.setWidth 32)
    if wide then W1.setV (t.toNat + 1) i ((r.value >>> 32).setWidth 32) else W1

/-- The data of a load or atomic arrives (R163), or raises POISON (R300). -/
def returnData (s : State) (w : Nat) (x : SlotId) : State :=
  match (s.wave w).pend with
  | .load x' pc _ rets =>
    if x' ≠ x then s
    else
      let bad := rets.filter fun r => r.poisoned
      if bad ≠ [] then
        (s.setWave w { s.wave w with pend := .none }).poisonTrap w x pc
          (bad.map fun r => (match r.dest with | .lane _ _ i => some i | .scalar _ => none, r.addr))
      else s.setWave w { (rets.foldl Wave.putRet (s.wave w)) with pend := .none }
  | _ => s

/-- LOAD_DATA_RETURN (R163). -/
def execLoadDataReturn (w : Nat) (x : SlotId) (s : State) : Out := .next (returnData s w x)

/-! ### Fences (R170, R171) -/

/-- A transfer in a named stream that comes earlier in the issuing slot's program order, and that is not complete: the
slot started it, or it was started for lanes of the slot before they came to it (R33, R171). -/
def State.openTransfer (s : State) (streams : BitVec 16) : Bool :=
  s.xfers.any fun x => x.wave == s.cur.1 && x.launch == s.launchKey s.cur.1
    && (x.x == s.cur.2 || x.mask &&& s.cs.mask != 0) && streams.getLsbD x.strm.toNat && !x.stopped

/-- A full or release fence waits for the slot's transfers; an acquire fence does not (R171). -/
def fenceOp (s : State) (streams : BitVec 16) (waits : Bool) : Out :=
  issue s { Info.mem 4 with stages := [] } fun u => if waits && u.openTransfer streams then s else u.advance 4
/-- FENCE (R170). -/
def execFence (streams : BitVec 16) (_scope : Scope) (s : State) : Out := fenceOp s streams true
/-- FENCE.ACQ (R170). -/
def execFenceAcq (streams : BitVec 16) (_scope : Scope) (s : State) : Out := fenceOp s streams false
/-- FENCE.REL (R170). -/
def execFenceRel (streams : BitVec 16) (_scope : Scope) (s : State) : Out := fenceOp s streams true

/-! ### MWAIT (R172) -/

/-- MWAIT: a read; the slot parks while the value is the expected one. A read of the system configuration window passes the gate. -/
def mwaitOp (s : State) (len : Nat) (t sb : SReg) (imm : Word) (q : WaitQ) : Out :=
  issue s (Info.mem len) fun u =>
    let n := wideBytes q.wide
    let a := u.S sb + imm
    accessS u .load n a true false false fun u r =>
      let v := u.readElem u.cur.1 r.loc n
      let u := if r.loc.isWin then u.gated else u
      if u.poisonLoc r.loc n then u.poisonTrap u.cur.1 u.cur.2 u.cs.pc [(none, a)]
      else if v.toNat ≠ (u.S t).toNat % 2 ^ (8 * n) then (u.setS t v).advance len
      else
        let limit := if u.cw.mwtimeo = 0 then none else some (u.cycle + u.cw.mwtimeo.toNat)
        (u.setCs { u.cs with park := .mwait t len a q.wide limit, chain := none }).watch
          { wave := u.cur.1, x := u.cur.2, line := r.loc.line, woken := false, aw := none, found := none }
/-- MWAIT (R172). -/
def execMwait (t sb : SReg) (imm : BitVec 20) (q : WaitQ) (s : State) : Out := mwaitOp s 8 t sb (imm.signExtend 64) q
/-- MWAIT with a literal (R172). -/
def execMwaitLit (t sb : SReg) (q : WaitQ) (l : W32) (s : State) : Out := mwaitOp s 12 t sb (l.signExtend 64) q

/-- A parked MWAIT reads again and returns what it reads. -/
def mwaitReturn (s : State) (w : Nat) (x : SlotId) : State :=
  match ((s.wave w).slot x).park with
  | .mwait t len a wide _ =>
    let s1 := (s.setSlotOf w x { (s.wave w).slot x with park := .none })
    let s2 := { s1.unwatch w x with cur := (w, x) }
    accessS s2 .load (wideBytes wide) a true false false fun u r =>
      if u.poisonLoc r.loc (wideBytes wide) then u.poisonTrap w x u.cs.pc [(none, a)]
      else (u.setS t (u.readElem w r.loc (wideBytes wide))).advance len
  | _ => s

/-- MWAIT_WAKE (R172). -/
def execMwaitWake (w : Nat) (x : SlotId) (s : State) : Out := .next (mwaitReturn s w x)
/-- MWAIT_TIMEOUT (R172). -/
def execMwaitTimeout (w : Nat) (x : SlotId) (s : State) : Out := .next (mwaitReturn s w x)

/-! ### Cache maintenance (R173) -/

/-- DWB changes no result (R44, R173). -/
def execDwb (_a _b : SReg) (s : State) : Out := issue s (Info.mem 4) fun u => u.advance 4
/-- DINV changes no result (R44, R173). -/
def execDinv (_a _b : SReg) (s : State) : Out := issue s (Info.mem 4) fun u => u.advance 4

/-- ICINV (R173): the slot waits for its completion; an empty range has no effect. -/
def execIcinv (scope : Scope) (a b : SReg) (s : State) : Out :=
  issue s (Info.mem 4) fun u =>
    if u.S b = 0 then u.advance 4
    else u.setCs { u.cs with park := .op (.icinv scope (coreOf u.cur.1) (u.S a).toNat (u.S b).toNat), chain := none }

/-- The cores within a scope of a core (R173). -/
def scopeHolds (scope : Scope) (core c : Nat) : Bool :=
  match scope with
  | .wave | .team => core == c
  | .cluster => clusterOf core == clusterOf c
  | .die => dieOf core == dieOf c
  | .package | .system => true

/-- A held word whose line lies in the range of a VF. -/
def inRange (vf lo n key : Nat) : Bool :=
  key / 2 ^ 56 == vf && (decide (2 ^ 32 ≤ n) ||
    (decide (lo / 128 ≤ key % 2 ^ 56 / 128) && decide (key % 2 ^ 56 / 128 ≤ (lo + n - 1) / 128)))

/-- Drop the instruction-cache lines of a range in the cores of a scope. -/
def State.icInvalidate (s : State) (scope : Scope) (core vf lo n : Nat) : State :=
  { s with cores := s.cores.map fun e =>
      if scopeHolds scope core e.1 then
        (e.1, { e.2 with icache := e.2.icache.filter fun h => !(h.2.any fun v => inRange vf lo n v.2) })
      else e }

/-- ICINV_COMPLETION (R173): the scope counts from the core that issued it (R333). -/
def execIcinvCompletion (w : Nat) (x : SlotId) (s : State) : Out :=
  .next (match ((s.wave w).opSlot x).park with
    | .op (.icinv scope core lo n) => (s.icInvalidate scope core (s.vfOf w) lo n).finishOp w x
    | _ => s)

end Sys2Proof.Machine
end

