-- ==== Sys2Proof/Machine/Sync.lean ====
section
/-! DEFINITION. Machine/Sync.lean: rendezvous points, arrival words and the deque (R174–R179, R325–R328). Each operation
is one event at its point, word or deque. -/
namespace Sys2Proof.Machine

/-! ### Rendezvous points (R50, R175, R176, R325) -/

/-- ILL with no address (R325, R328). -/
def State.illOp (s : State) : State := s.trapCur .ill 0

/-- The waves of a team that have not left it, as a set. -/
def Team.present (t : Team) (n : Nat) : BitVec 8 := BitVec.ofNat 8 (2 ^ n - 1) &&& ~~~t.retired

/-- BARINIT (R175, R325). -/
def execBarinit (rv : BitVec 6) (b : SReg) (s : State) : Out :=
  issue s (Info.scalar 4) fun u =>
    let v := (u.S b).toNat
    let n := v % 16
    let bk := bankOf u.cur.1
    let r := (u.bank bk).rv rv.toNat
    match u.teamOf u.cur.1 with
    | none => u.illOp
    | some t =>
      if 16 ≤ v ∨ n = 0 ∨ t.waves < n then u.illOp
      else if r.init then (if r.n = n then u.advance 4 else u.illOp)
      else
        let m := t.present n
        (u.setBank bk ((u.bank bk).setRv rv.toNat
          { init := true, n := n, exp := popcount m, arr := 0, memb := m, gen := 0, who := 0 })).advance 4

/-- Whether a wave may arrive at a point (R325). -/
def Rv.mayArrive (r : Rv) (i : Nat) : Bool := r.init && r.memb.getLsbD i && !r.who.getLsbD i
/-- An arrival, and the completion of the generation by the last one (R176). -/
def Rv.arrive (r : Rv) (i : Nat) : Rv := { r with arr := r.arr + 1, who := r.who ||| (1#8 <<< i) }.settle

/-- The point of the issuing wave. -/
def State.point (s : State) (rv : BitVec 6) : Rv := (s.bank (bankOf s.cur.1)).rv rv.toNat
def State.setPoint (s : State) (rv : BitVec 6) (r : Rv) : State :=
  let b := bankOf s.cur.1
  s.setBank b ((s.bank b).setRv rv.toNat r)

/-- BARARR (R176). -/
def execBararr (d : SReg) (rv : BitVec 6) (s : State) : Out :=
  issue s (Info.scalar 4) fun u =>
    let r := u.point rv
    if !r.mayArrive (waveNo u.cur.1) then u.illOp
    else ((u.gated.setPoint rv (r.arrive (waveNo u.cur.1))).setS d (r.gen.setWidth 64)).advance 4

/-- Wait for a generation, or go on (R176). -/
def State.waitPoint (s : State) (rv : BitVec 6) (g : BitVec 32) : State :=
  if genPassed (s.point rv).gen g then s.advance 4
  else s.setCs { s.cs with park := .barwait rv.toNat g, chain := none }

/-- BARWAIT (R176, R325). -/
def execBarwait (rv : BitVec 6) (b : SReg) (s : State) : Out :=
  issue s (Info.scalar 4) fun u =>
    if !(u.point rv).init then u.illOp else u.waitPoint rv ((u.S b).setWidth 32)

/-- A BARSYNC of a flow that has arrived and not returned. -/
def SyncRec.here (e : SyncRec) (x : SlotId) (t : Slot) : Bool := e.place == placeOf x && e.mask == t.mask && e.pc == t.pc
/-- The issuing slot's BARSYNC has returned. -/
def State.dropSync (s : State) : State :=
  s.setCw { s.cw with syncs := s.cw.syncs.filter fun e => !e.here s.cur.2 s.cs }

/-- BARSYNC (R176): the arrival is made once; a slot that comes back to the instruction only waits. -/
def execBarsync (rv : BitVec 6) (s : State) : Out :=
  issue s (Info.scalar 4) fun u =>
    match u.cw.syncs.find? fun e => e.here u.cur.2 u.cs with
    | some e => if genPassed (u.point rv).gen e.gen then u.dropSync.advance 4 else u.waitPoint rv e.gen
    | none =>
      let r := u.point rv
      if !r.mayArrive (waveNo u.cur.1) then u.illOp
      else
        let u1 := u.gated.setPoint rv (r.arrive (waveNo u.cur.1))
        if genPassed (u1.point rv).gen r.gen then u1.advance 4
        else
          let e : SyncRec := { place := placeOf u1.cur.2, mask := u1.cs.mask, pc := u1.cs.pc, rv := rv.toNat, gen := r.gen }
          (u1.setCw { u1.cw with syncs := e :: u1.cw.syncs }).waitPoint rv r.gen

/-! ### Arrival words (R49, R177, R327) -/

/-- A word's fields. -/
structure Arrival where
  target : Nat
  count : Nat
  gen : Nat
deriving DecidableEq, Repr

def Arrival.ofNat (v : Nat) : Arrival := { target := bitsOf v 0 32, count := bitsOf v 32 32, gen := bitsOf v 64 32 }
/-- The reserved bits are written as zero (R327). -/
def Arrival.toNat (a : Arrival) : Nat := a.target + a.count * 2 ^ 32 + a.gen * 2 ^ 64
/-- Landed bytes advance the word (R49). -/
def Arrival.add (a : Arrival) (n : Nat) : Arrival :=
  let c := (a.count + n) % 2 ^ 32
  if a.target = 0 then { a with count := c }
  else { a with count := c % a.target, gen := (a.gen + c / a.target) % 2 ^ 32 }

def State.readArrival (s : State) (w : Nat) (l : Loc) : Arrival := Arrival.ofNat (s.readLoc w l 16)
def State.writeArrival (s : State) (w : Nat) (l : Loc) (a : Arrival) : State := s.writeLoc w l (leBytes 16 a.toNat) true

/-- A function on an arrival word, after its checks. -/
def awOp (s : State) (addr : Word) (k : State → Loc → State) : Out :=
  issue s (Info.scalar 4) fun u =>
    match awResolve u u.cur.1 addr with
    | .ok l _ => k u l
    | r => u.trapCur r.cause addr

/-- AWSET (R177). -/
def execAwset (a b : SReg) (s : State) : Out :=
  awOp s (s.S a) fun u l =>
    let w := u.readArrival u.cur.1 l
    ((u.gated.capture u.cur.1).writeArrival u.cur.1 l { w with target := (u.S b).toNat % 2 ^ 32, count := 0 }).advance 4
/-- A function that reads an arrival word: a poisoned one raises POISON (R320). -/
def awRead (s : State) (addr : Word) (k : State → Loc → State) : Out :=
  awOp s addr fun u l =>
    if u.poisonLoc l 16 then u.consume u.cur.1 u.cur.2 (instrTrap .poison addr u.cs.pc) else k u l
/-- AWADD (R177). -/
def execAwadd (a b : SReg) (s : State) : Out :=
  awRead s (s.S a) fun u l =>
    ((u.gated.capture u.cur.1).writeArrival u.cur.1 l ((u.readArrival u.cur.1 l).add ((u.S b).toNat % 2 ^ 32))).advance 4
/-- AWWAIT (R177). -/
def execAwwait (d a b : SReg) (s : State) : Out :=
  awRead s (s.S a) fun u l =>
    let g := (u.S b).setWidth 32
    let w := u.readArrival u.cur.1 l
    if genPassed (BitVec.ofNat 32 w.gen) g then (u.setS d (BitVec.ofNat 64 w.gen)).advance 4
    else (u.setCs { u.cs with park := .awwait (u.S a) g d none, chain := none }).watchWord u.cur.1 u.cur.2 l g

/-- Whether what a parked slot waits for has come: its point's generation, or its word's (R176, R177). -/
def State.parkOver (s : State) (w : Nat) (x : SlotId) : Bool :=
  match ((s.wave w).slot x).park with
  | .barwait rv g => genPassed ((s.bank (bankOf w)).rv rv).gen g
  | .awwait a g _ f => f.isSome || (s.foundGen w x).isSome ||
    match awResolve s w a with
    | .ok l _ => genPassed (BitVec.ofNat 32 (s.readArrival w l).gen) g || s.poisonLoc l 16
    | _ => false
  | _ => false

/-- A wait that is over ends: the slot goes on behind its BARWAIT, BARSYNC or AWWAIT. -/
def endWait (s : State) : State :=
  match s.cs.park with
  | .barwait .. =>
    let s1 := s.dropSync
    (s1.setCs { s1.cs with park := .none }).advance 4
  | .awwait a _ d f =>
    let s1 := (s.setCs { s.cs with park := .none }).unwatch s.cur.1 s.cur.2
    match f.orElse fun _ => s.foundGen s.cur.1 s.cur.2, awResolve s1 s1.cur.1 a with
    | some g, _ => (s1.setS d (g.setWidth 64)).advance 4
    | none, .ok l _ =>
      if s1.poisonLoc l 16 then s1.consume s1.cur.1 s1.cur.2 (instrTrap .poison a s1.cs.pc)
      else (s1.setS d (BitVec.ofNat 64 (s1.readArrival s1.cur.1 l).gen)).advance 4
    | _, _ => s1
  | _ => s

/-! ### The deque (R178, R179, R328) -/

/-- DQPUSH (R178): 0 pushes nothing; ILL onto 256 words. -/
def execDqpush (a : SReg) (s : State) : Out :=
  issue s (Info.scalar 4) fun u =>
    let b := bankOf u.cur.1
    let B := u.bank b
    if u.S a = 0 then u.advance 4
    else if 256 ≤ B.deque.length then u.illOp
    else (u.gated.setBank b { B with deque := B.deque ++ [u.S a] }).advance 4
/-- DQPOP (R178): the bottom word. -/
def execDqpop (d : SReg) (s : State) : Out :=
  issue s (Info.scalar 4) fun u =>
    let b := bankOf u.cur.1
    let B := u.bank b
    ((u.gated.setBank b { B with deque := B.deque.dropLast }).setS d (B.deque.getLast?.getD 0)).advance 4
/-- DQSTEAL (R178): the top word of a bank of the cluster that holds a team of the same VF; 0 from a quarantined core
(R328). -/
def execDqsteal (d a : SReg) (s : State) : Out :=
  issue s (Info.scalar 4) fun u =>
    let v := (u.S a).toNat
    if 16 ≤ v then u.illOp
    else
      let b := 2 * (8 * clusterOf (coreOf u.cur.1) + v % 8) + v / 8
      let B := u.bank b
      let same := !u.quarantined (coreOfBank b) && (match B.team with | some t => t.vf == u.vfOf u.cur.1 | none => false)
      if same then ((u.gated.setBank b { B with deque := B.deque.drop 1 }).setS d (B.deque.headD 0)).advance 4
      else (u.gated.setS d 0).advance 4
/-- DQCNT (R178). -/
def execDqcnt (d : SReg) (s : State) : Out :=
  issue s (Info.scalar 4) fun u =>
    (u.setS d (BitVec.ofNat 64 (u.bank (bankOf u.cur.1)).deque.length)).advance 4

end Sys2Proof.Machine
end

