-- ==== Sys2Proof/Machine/Capsule.lean ====
section
/-! DEFINITION. Machine/Capsule.lean: capsule records and the capsule instructions (R205–R218, R329–R332). Each
transaction on a record is one event. -/
namespace Sys2Proof.Machine

/-! ### The record (R205) -/

/-- A quad of a record at physical address `pa`, and a write of one. -/
def State.recQuad (s : State) (w pa off : Nat) : Nat := s.readFor w (pa + off) 8
def State.putRec (s : State) (w pa : Nat) (norep : Bool) (off v : Nat) : State :=
  s.writeFor w (pa + off) (leBytes 8 v) norep

/-- STEPPC and STEPS of the record's third quad, and the quad that holds them. -/
def recStepPc (q : Nat) : Nat := bitsOf q 0 56
def recSteps (q : Nat) : Nat := bitsOf q 60 4
def mkSteps (pc steps : Nat) : Nat := pc % 2 ^ 56 + steps * 2 ^ 60

/-- s48–s55. -/
def Wave.capRegs (W : Wave) : List Word := (List.range 8).map fun n => W.s (BitVec.ofNat 6 (48 + n))
/-- CKPT of a record. -/
def State.ckpt (s : State) (w pa : Nat) : List Word :=
  (List.range 8).map fun n => BitVec.ofNat 64 (s.recQuad w pa (32 + 8 * n))
def State.putCkpt (s : State) (w pa : Nat) (norep : Bool) (regs : List Word) : State :=
  regs.zipIdx.foldl (fun t e => t.putRec w pa norep (32 + 8 * e.2) e.1.toNat) s

/-- The conditions of CAPREC (R329). -/
def State.recBad (s : State) (w pa tag : Nat) : Bool :=
  let lock := s.recQuad w pa 0
  let steps := s.recQuad w pa 16
  let owner := s.recQuad w pa 104
  let st := lockState lock
  (owner != 0 && owner != tag) || decide (3 ≤ st) || (st != 0 && lockHolder lock == 0)
    || (st == 0 && (lockHolder lock != 0 || recStepPc steps != 0 || recSteps steps != 0))
    || s.recQuad w pa 8 == 0 || bitsOf steps 56 4 != 0 || bitsOf (s.recQuad w pa 112) 56 8 != 0
    || (List.range 17).any fun i => s.recQuad w pa (120 + 8 * i) != 0

/-- OWNERTAG of a wave: its VF and its code object's load identifier. -/
def State.ownTag (s : State) (w : Nat) : Nat :=
  match s.teamOf w with
  | none => 0
  | some t => t.vf + (match s.launchOf t.launch with | some l => l.loadid.toNat % 2 ^ 56 | none => 0) * 2 ^ 8

/-- Holder ids of the waves in capsule mode, wherever their contexts are. -/
def State.holderIds (s : State) : List (BitVec 40) :=
  (s.waves.map (·.2) ++ s.images.flatMap fun e => e.2.waves).filterMap fun W => W.capsule.map (·.holder)

/-- A holder id of its wave, partition and acquisition number. -/
def holderId (w p hacq : Nat) : BitVec 40 := BitVec.ofNat 40 (w + p * 2 ^ 13 + hacq * 2 ^ 19)

/-- The next acquisition number: 1 to 2^21 − 1, past those whose ids are held. -/
def nextHacq (held : List (BitVec 40)) (w p : Nat) : Nat → Nat → Nat
  | 0, n => n % (2 ^ 21 - 1) + 1
  | fuel + 1, n =>
    let n' := n % (2 ^ 21 - 1) + 1
    if held.contains (holderId w p n') then nextHacq held w p fuel n' else n'

/-- Take an acquisition number: the holder id, with the partition's count advanced. -/
def State.takeId (s : State) : State × BitVec 40 :=
  let w := s.cur.1
  let p := s.partOf w
  let n := nextHacq s.holderIds w p s.holderIds.length (s.part p).hacq.toNat
  (s.setPart p { s.part p with hacq := BitVec.ofNat 21 n }, holderId w p n)

/-! ### CAPENTER (R210, R330) -/

/-- What a wave takes into capsule mode. -/
structure Entering where
  record : Word
  del : Word
  sd : SReg
  off : W32
  pa : Nat
  norep : Bool

def Entering.capsule (e : Entering) (s : State) (adopter : Bool) (id : BitVec 40) (seq : Nat) : Capsule :=
  { adopter := adopter, x := s.cur.2, record := e.record, enterPc := s.cs.pc, sd := e.sd
    displaced := s.cs.pc + e.off.signExtend 64, holder := id, seq := BitVec.ofNat 16 seq, saved := s.cw.capRegs
    instrs := 0, ssts := 0, buffer := [], committed := false }

/-- The acquire path: the delivery word cleared first, then the record. -/
def State.acquire (s : State) (e : Entering) (dloc : Loc) (dnorep : Bool) : State :=
  let w := s.cur.1
  let code := s.recQuad w e.pa 8
  let seq := (lockSeq (s.recQuad w e.pa 0) + 1) % 2 ^ 16
  let (s0, id) := s.takeId
  let put (t : State) := t.putRec w e.pa e.norep
  let s1 := s0.writeLoc w dloc (leBytes 16 0) dnorep
  let s2 := put (put s1 16 (mkSteps code 0)) 24 e.del.toNat
  let s3 := s2.putCkpt w e.pa e.norep s.cw.capRegs
  let s4 := put (put (put s3 96 s.cycle) 104 (s.ownTag w)) 0 (mkLock seq 1 id.toNat)
  ((s4.setCw { s4.cw with capsule := some (e.capsule s false id seq) }).setS e.sd 0).jump (BitVec.ofNat 64 code)

/-- The adopt path. -/
def State.adopt (s : State) (e : Entering) : State :=
  let w := s.cur.1
  let lock := s.recQuad w e.pa 0
  let seq := (lockSeq lock + 1) % 2 ^ 16
  let (s0, id) := s.takeId
  let put (t : State) := t.putRec w e.pa e.norep
  let s1 := put (put (put s0 112 (lockHolder lock + lockSeq lock * 2 ^ 40)) 96 s.cycle) 0 (mkLock seq 1 id.toNat)
  let W := s1.cw.restoreCap (s.ckpt w e.pa)
  let s2 := s1.setCw { W with capsule := some (e.capsule s true id seq), adopts := W.adopts + 1 }
  (s2.countEvent (coreOf w) 0x0B (some W.system)).jump (BitVec.ofNat 64 (recStepPc (s.recQuad w e.pa 16)))

/-- A HELD record whose last event is older than ADOPTAGE (R210). The age is taken modulo 2^64, so that a LAST later than CYCLE
counts as old (log 63). -/
def State.ageStalled (s : State) (w pa : Nat) : Bool :=
  let age := (s.part (s.partOf w)).adoptage.toNat
  lockState (s.recQuad w pa 0) == 1 && age != 0 &&
    decide (age < (BitVec.ofNat 64 s.cycle - BitVec.ofNat 64 (s.recQuad w pa 96)).toNat)

/-- The transaction: acquire, adopt, or busy. -/
def State.enterCapsule (s : State) (e : Entering) (dloc : Loc) (dnorep : Bool) : State :=
  let w := s.cur.1
  if s.recBad w e.pa (s.ownTag w) then s.trapCur .caprec 0
  else
    let st := lockState (s.recQuad w e.pa 0)
    if st = 0 then (s.gated.capture w).acquire e dloc dnorep
    else if st = 2 ∨ s.ageStalled w e.pa then (s.gated.capture w).adopt e
    else (s.gated.setS e.sd 1).advance 8

/-- CAPENTER (R210), its operands checked in the order of R330. -/
def execCapenter (d a del : SReg) (off : W32) (s : State) : Out :=
  issue s { Info.scalar 8 with feat := some 2, stages := [5] } fun u =>
    let rec_ := u.S a
    let dw := u.S del
    let w := u.cur.1
    if u.cw.capsule.isSome then u.trapCur .capill 0
    else if dw.toNat % 16 ≠ 0 then u.trapCur .malign dw
    else if inWindow dw then u.trapCur .prot dw
    else if rec_.toNat % 256 ≠ 0 then u.trapCur .malign rec_
    else if inWindow rec_ then u.trapCur .prot rec_
    else
      let rr := resolve u w .atomic rec_ 256
      let rd := resolve u w .atomic dw 16
      let gs := [rr, rd].filterMap Res.granule
      if rr = .fault .xlate then u.trapCur .xlate rec_
      else if rd = .fault .xlate then u.trapCur .xlate dw
      else if gs ≠ [] then u.parkAll gs false false true
      else if rr.isFault then (u.logPort w .atomic rec_).trapCur .prot rec_
      else if rd.isFault then (u.logPort w .atomic dw).trapCur .prot dw
      else
        match rr.loc with
        | .phys pa =>
          let u1 := ((u.holdRes w rec_ rr).observe (dieOf (coreOf w)) (pa + 128)).holdRes w dw rd
          if u1.poisoned pa 256 then u1.consume w u1.cur.2 (instrTrap .poison rec_ u1.cs.pc)
          else
            u1.enterCapsule { record := rec_, del := dw, sd := d, off := off, pa := pa, norep := rr.norep } rd.loc rd.norep
        | _ => u

/-! ### CAPSTEP and CAPEXIT (R212, R213) -/

/-- A function of CAP that acts only in capsule mode: CAPILL outside it (R217), and in handler mode unless `inHandler`. -/
def capOp (s : State) (regs : Option (List SReg)) (inHandler : Bool) (k : State → Capsule → State) : Out :=
  issue s { Info.scalar 4 with feat := some 2, cap := regs, selfCount := true } fun u =>
    match u.cw.capsule with
    | none => u.trapCur .capill 0
    | some c => if u.cw.handler && !inHandler then u.trapCur .capill 0 else k u c

/-- The transaction's access to the record, with the checks of an access (R296) and a park with AT (R48). -/
def State.onRecord (s : State) (c : Capsule) (k : State → Nat → Bool → State) : State :=
  let w := s.cur.1
  match resolve s w .atomic c.record 8 with
  | .fault e => (s.logFault w .atomic e c.record).trapCur e c.record
  | .park b g => s.parkCur b g false false true
  | .ok (.phys pa) leaf =>
    let r := Res.ok (.phys pa) leaf
    let s1 := (s.holdRes w c.record r).observe (dieOf (coreOf w)) (pa + 128)
    if s1.poisoned pa 128 then s1.consume w s1.cur.2 (instrTrap .poison c.record s1.cs.pc) else k s1 pa r.norep
  | .ok .. => s

/-- The issuing wave is displaced (R212, R214). -/
def State.displaceCur (s : State) (c : Capsule) : State :=
  let W := s.cw.displace { c with x := s.cur.2 }
  s.setCw (W.setSlot s.cur.2 { W.slot s.cur.2 with xvres := none })

/-- The step's buffered stores as the commit translates them (R303; log 50): where they lie, or the first that has no
place, with its address. -/
def State.stepStores (s : State) (w : Nat) : List StoreElem → Except (Word × Res) (List StoreElem)
  | [] => .ok []
  | e :: es =>
    match resolve s w .store e.addr e.size with
    | .ok l leaf =>
      match s.stepStores w es with
      | .ok ds => .ok ({ e with loc := l, norep := (Res.ok l leaf).norep } :: ds)
      | r => r
    | r => .error (e.addr, r)

/-- A commit goes on if its stores can be performed; else it traps, or parks, with nothing committed (log 50). -/
def State.onStores (s : State) (c : Capsule) (k : State → List StoreElem → State) : State :=
  match s.stepStores s.cur.1 c.buffer with
  | .ok es => k (c.buffer.foldl (fun t e => t.holdRes s.cur.1 e.addr (resolve s s.cur.1 .store e.addr e.size)) s) es
  | .error (_, .park b g) => s.parkCur b g false true false
  | .error (a, r) => (s.logFault s.cur.1 .store r.cause a).trapCur r.cause a

/-- The commit that CAPSTEP and CAPEXIT share: the step's stores `es`, CKPT, LAST. -/
def State.commit (s : State) (es : List StoreElem) (pa : Nat) (norep : Bool) : State :=
  let w := s.cur.1
  let s1 := es.foldl (fun t e => t.writeElem w e) (s.gated.capture w)
  (s1.putCkpt w pa norep s1.cw.capRegs).putRec w pa norep 96 s.cycle

/-- CAPSTEP (R212): CAPLIM where STEPS is 15 (R329). -/
def execCapstep (s : State) : Out :=
  capOp s (some []) false fun u c =>
    u.onRecord c fun u pa norep =>
      let w := u.cur.1
      let q := u.recQuad w pa 16
      if !u.capMatches pa c then u.displaceCur c
      else if recSteps q = 15 then u.trapCur .caplim 0
      else
        u.onStores c fun u es =>
          let seq := (c.seq.toNat + 1) % 2 ^ 16
          let u1 := u.commit es pa norep
          let u2 := u1.putRec w pa norep 16 (mkSteps (u.cs.pc.toNat + 4) (recSteps q + 1))
          let u3 := u2.putRec w pa norep 0 (mkLock seq (lockState (u.recQuad w pa 0)) c.holder.toNat)
          (u3.setCw { u3.cw with capsule := some { c with
            seq := BitVec.ofNat 16 seq, instrs := 0, ssts := 0, buffer := [], committed := true } }).advance 4

/-- The delivery word's upper quad (R206). -/
def deliveryTop (seq : Nat) (id : BitVec 40) : Nat := seq + id.toNat * 2 ^ 16 + 2 ^ 63

/-- Capsule mode ends after a successful CAPEXIT (R213). -/
def State.leaveCapsule (s : State) (c : Capsule) : State :=
  let s1 := s.setCw { s.cw with capsule := none }
  if c.adopter then (s1.setCw (s1.cw.restoreCap c.saved)).jump c.enterPc
  else (s1.setS c.sd 0).jump (c.enterPc + 8)

/-- The final commit with the delivery that follows it. -/
def State.exitCapsule (s : State) (c : Capsule) (es : List StoreElem) (a : SReg) (pa : Nat) (norep : Bool) (dloc : Loc)
    (dnorep : Bool) : State :=
  let w := s.cur.1
  let result := s.S a
  let seq := (c.seq.toNat + 1) % 2 ^ 16
  let s1 := ((s.commit es pa norep).putRec w pa norep 16 0).putRec w pa norep 0 (mkLock seq 0 0)
  let s2 := s1.writeLoc w dloc (leBytes 16 (result.toNat + deliveryTop seq c.holder * 2 ^ 64)) dnorep
  s2.leaveCapsule c

/-- CAPEXIT (R213): DELIV is translated and checked before the commit transaction, which a wave that no longer holds the
record does not come to without it, and in the order of R330 as CAPENTER checks it (log 56). -/
def execCapexit (a : SReg) (s : State) : Out :=
  capOp s (some [a]) false fun u c =>
    u.onRecord c fun u pa norep =>
      let w := u.cur.1
      let dw := BitVec.ofNat 64 (u.recQuad w pa 24)
      if dw.toNat % 16 ≠ 0 then u.trapCur .malign dw
      else if inWindow dw then u.trapCur .prot dw
      else
        match resolve u w .atomic dw 16 with
        | .fault e => (u.logFault w .atomic e dw).trapCur e dw
        | .park b g => u.parkCur b g false false true
        | .ok l leaf =>
          let r := Res.ok l leaf
          let u1 := u.holdRes w dw r
          if !u1.capMatches pa c then u1.displaceCur c
          else u1.onStores c fun u es => u.exitCapsule c es a pa norep l r.norep

/-! ### CAPDROP and CAPQRY (R215, R216) -/

/-- CAPDROP (R215): in handler mode, before the first commit. -/
def execCapdrop (s : State) : Out :=
  capOp s none true fun u c =>
    if c.committed then u.trapCur .capill 0
    else
      u.onRecord c fun u pa norep =>
        let w := u.cur.1
        let ok := u.capMatches pa c
        let seq := (c.seq.toNat + 1) % 2 ^ 16
        let v := u.capture w
        let u1 :=
          if !ok then u
          else if c.adopter then v.putRec w pa norep 0 (mkLock seq 2 (lockHolder (u.recQuad w pa 0)))
          else (v.putRec w pa norep 16 (mkSteps 0 (recSteps (u.recQuad w pa 16)))).putRec w pa norep 0 (mkLock seq 0 0)
        let W := { u1.cw.restoreCap c.saved with capsule := none }
        let W1 := if ok ∨ c.adopter then W.setTnext (align4 c.enterPc)
          else (W.setS c.sd 3).setTnext (align4 c.displaced)
        (u1.setCw W1).advance 4

/-- CAPQRY (R216): a plain read of LOCK; MALIGN unless 256-byte aligned. -/
def execCapqry (d a : SReg) (s : State) : Out :=
  issue s { Info.scalar 4 with feat := some 2 } fun u =>
    let p := u.S a
    if p.toNat % 256 ≠ 0 then u.trapCur .malign p
    else accessS u .load 8 p true false false fun v r =>
      State.loadOn { v with stages := u.stages } 4 [{ loc := r.loc, size := 8, sx := false, dest := .scalar d, addr := p }]

end Sys2Proof.Machine
end

