-- ==== Sys2Proof/Machine/Vector.lean ====
section
/-! DEFINITION. Machine/Vector.lean: majors 0x12 to 0x1D and VDP4 (R120–R143). Every operand is read before a lane is
written; a function of a lane stands for one result per active lane. -/
namespace Sys2Proof.Machine

/-! ### The shapes -/

/-- A vector ALU instruction whose lane result is `f` of its operands' lane values, in the active lanes of `k`. -/
def alu1 (s : State) (len : Nat) (d : VReg) (a : VSrc) (k : KReg) (f : W32 → W32) : Out :=
  alu s len ⟨d, [a], false⟩ (s.active k) fun i => f (s.src a i)
def alu2 (s : State) (len : Nat) (d : VReg) (a b : VSrc) (k : KReg) (f : W32 → W32 → W32) : Out :=
  alu s len ⟨d, [a, b], false⟩ (s.active k) fun i => f (s.src a i) (s.src b i)
def alu3 (s : State) (len : Nat) (d : VReg) (a b c : VSrc) (k : KReg) (f : W32 → W32 → W32 → W32) : Out :=
  alu s len ⟨d, [a, b, c], false⟩ (s.active k) fun i => f (s.src a i) (s.src b i) (s.src c i)

/-- The same where a lane's result may be an overflow that traps: `none` (R299). -/
def aluT (s : State) (len : Nat) (d : VReg) (srcs : List VSrc) (k : KReg) (f : Nat → Option W32) : Out :=
  aluOvf s len ⟨d, srcs, false⟩ (s.active k) (fun i => (f i).getD 0) fun i => (f i).isNone
def aluT1 (s : State) (len : Nat) (d : VReg) (a : VSrc) (k : KReg) (f : W32 → Option W32) : Out :=
  aluT s len d [a] k fun i => f (s.src a i)
def aluT2 (s : State) (len : Nat) (d : VReg) (a b : VSrc) (k : KReg) (f : W32 → W32 → Option W32) : Out :=
  aluT s len d [a, b] k fun i => f (s.src a i) (s.src b i)
def aluT3 (s : State) (len : Nat) (d : VReg) (a b c : VSrc) (k : KReg) (f : W32 → W32 → W32 → Option W32) : Out :=
  aluT s len d [a, b, c] k fun i => f (s.src a i) (s.src b i) (s.src c i)

/-- A vector instruction that is no vector ALU instruction writes lanes of a register and goes on. -/
def State.writeV (s : State) (d : VReg) (mask : Mask) (f : Nat → W32) (len : Nat) : State :=
  (s.setCw (s.cw.setVs d.toNat mask f)).advance len

/-! ### Majors 0x12 to 0x16 (R126, R127) -/

/-- The lane operations of R126. -/
inductive VOp where
  | add | sub | mul | mulh | and_ | or_ | xor | andn | shl | shr | sha | rol | min_ | minn | max_ | maxn
deriving DecidableEq, Repr

/-- R126. -/
def VOp.eval (op : VOp) (a b : W32) : W32 :=
  match op with
  | .add => a + b
  | .sub => a - b
  | .mul => a * b
  | .mulh => ((a.signExtend 64 * b.signExtend 64) >>> 32).setWidth 32
  | .and_ => a &&& b
  | .or_ => a ||| b
  | .xor => a ^^^ b
  | .andn => a &&& ~~~b
  | .shl => a <<< (b.toNat % 32)
  | .shr => a >>> (b.toNat % 32)
  | .sha => a.sshiftRight (b.toNat % 32)
  | .rol => a.rotateLeft (b.toNat % 32)
  | .min_ => if a.slt b then a else b
  | .minn => if a.ult b then a else b
  | .max_ => if a.slt b then b else a
  | .maxn => if a.ult b then b else a

/-- VADD (R126). -/
def execVadd (d a b : VReg) (k : KReg) (s : State) : Out := alu2 s 4 d (.reg a) (.reg b) k (VOp.eval .add)
/-- VADD with a literal (R122). -/
def execVaddLit (d a : VReg) (k : KReg) (l : W32) (s : State) : Out := alu2 s 8 d (.reg a) (.lit l) k (VOp.eval .add)
/-- VSUB (R126). -/
def execVsub (d a b : VReg) (k : KReg) (s : State) : Out := alu2 s 4 d (.reg a) (.reg b) k (VOp.eval .sub)
/-- VSUB with a literal (R122). -/
def execVsubLit (d a : VReg) (k : KReg) (l : W32) (s : State) : Out := alu2 s 8 d (.reg a) (.lit l) k (VOp.eval .sub)
/-- VMUL (R126). -/
def execVmul (d a b : VReg) (k : KReg) (s : State) : Out := alu2 s 4 d (.reg a) (.reg b) k (VOp.eval .mul)
/-- VMUL with a literal (R122). -/
def execVmulLit (d a : VReg) (k : KReg) (l : W32) (s : State) : Out := alu2 s 8 d (.reg a) (.lit l) k (VOp.eval .mul)
/-- VMULH (R126). -/
def execVmulh (d a b : VReg) (k : KReg) (s : State) : Out := alu2 s 4 d (.reg a) (.reg b) k (VOp.eval .mulh)
/-- VMULH with a literal (R122). -/
def execVmulhLit (d a : VReg) (k : KReg) (l : W32) (s : State) : Out := alu2 s 8 d (.reg a) (.lit l) k (VOp.eval .mulh)
/-- VAND (R126). -/
def execVand (d a b : VReg) (k : KReg) (s : State) : Out := alu2 s 4 d (.reg a) (.reg b) k (VOp.eval .and_)
/-- VAND with a literal (R122). -/
def execVandLit (d a : VReg) (k : KReg) (l : W32) (s : State) : Out := alu2 s 8 d (.reg a) (.lit l) k (VOp.eval .and_)
/-- VOR (R126). -/
def execVor (d a b : VReg) (k : KReg) (s : State) : Out := alu2 s 4 d (.reg a) (.reg b) k (VOp.eval .or_)
/-- VOR with a literal (R122). -/
def execVorLit (d a : VReg) (k : KReg) (l : W32) (s : State) : Out := alu2 s 8 d (.reg a) (.lit l) k (VOp.eval .or_)
/-- VXOR (R126). -/
def execVxor (d a b : VReg) (k : KReg) (s : State) : Out := alu2 s 4 d (.reg a) (.reg b) k (VOp.eval .xor)
/-- VXOR with a literal (R122). -/
def execVxorLit (d a : VReg) (k : KReg) (l : W32) (s : State) : Out := alu2 s 8 d (.reg a) (.lit l) k (VOp.eval .xor)
/-- VANDN (R126). -/
def execVandn (d a b : VReg) (k : KReg) (s : State) : Out := alu2 s 4 d (.reg a) (.reg b) k (VOp.eval .andn)
/-- VANDN with a literal (R122). -/
def execVandnLit (d a : VReg) (k : KReg) (l : W32) (s : State) : Out := alu2 s 8 d (.reg a) (.lit l) k (VOp.eval .andn)
/-- VSHL (R126). -/
def execVshl (d a b : VReg) (k : KReg) (s : State) : Out := alu2 s 4 d (.reg a) (.reg b) k (VOp.eval .shl)
/-- VSHL with a literal (R122). -/
def execVshlLit (d a : VReg) (k : KReg) (l : W32) (s : State) : Out := alu2 s 8 d (.reg a) (.lit l) k (VOp.eval .shl)
/-- VSHR (R126). -/
def execVshr (d a b : VReg) (k : KReg) (s : State) : Out := alu2 s 4 d (.reg a) (.reg b) k (VOp.eval .shr)
/-- VSHR with a literal (R122). -/
def execVshrLit (d a : VReg) (k : KReg) (l : W32) (s : State) : Out := alu2 s 8 d (.reg a) (.lit l) k (VOp.eval .shr)
/-- VSHA (R126). -/
def execVsha (d a b : VReg) (k : KReg) (s : State) : Out := alu2 s 4 d (.reg a) (.reg b) k (VOp.eval .sha)
/-- VSHA with a literal (R122). -/
def execVshaLit (d a : VReg) (k : KReg) (l : W32) (s : State) : Out := alu2 s 8 d (.reg a) (.lit l) k (VOp.eval .sha)
/-- VROL (R126). -/
def execVrol (d a b : VReg) (k : KReg) (s : State) : Out := alu2 s 4 d (.reg a) (.reg b) k (VOp.eval .rol)
/-- VROL with a literal (R122). -/
def execVrolLit (d a : VReg) (k : KReg) (l : W32) (s : State) : Out := alu2 s 8 d (.reg a) (.lit l) k (VOp.eval .rol)
/-- VMIN (R126). -/
def execVmin (d a b : VReg) (k : KReg) (s : State) : Out := alu2 s 4 d (.reg a) (.reg b) k (VOp.eval .min_)
/-- VMIN with a literal (R122). -/
def execVminLit (d a : VReg) (k : KReg) (l : W32) (s : State) : Out := alu2 s 8 d (.reg a) (.lit l) k (VOp.eval .min_)
/-- VMINN (R126). -/
def execVminn (d a b : VReg) (k : KReg) (s : State) : Out := alu2 s 4 d (.reg a) (.reg b) k (VOp.eval .minn)
/-- VMINN with a literal (R122). -/
def execVminnLit (d a : VReg) (k : KReg) (l : W32) (s : State) : Out := alu2 s 8 d (.reg a) (.lit l) k (VOp.eval .minn)
/-- VMAX (R126). -/
def execVmax (d a b : VReg) (k : KReg) (s : State) : Out := alu2 s 4 d (.reg a) (.reg b) k (VOp.eval .max_)
/-- VMAX with a literal (R122). -/
def execVmaxLit (d a : VReg) (k : KReg) (l : W32) (s : State) : Out := alu2 s 8 d (.reg a) (.lit l) k (VOp.eval .max_)
/-- VMAXN (R126). -/
def execVmaxn (d a b : VReg) (k : KReg) (s : State) : Out := alu2 s 4 d (.reg a) (.reg b) k (VOp.eval .maxn)
/-- VMAXN with a literal (R122). -/
def execVmaxnLit (d a : VReg) (k : KReg) (l : W32) (s : State) : Out := alu2 s 8 d (.reg a) (.lit l) k (VOp.eval .maxn)

/-- The mask field of VSEL selects and does not narrow the lanes (R127). -/
def selOp (s : State) (len : Nat) (d : VReg) (a b : VSrc) (k : KReg) : Out :=
  alu s len ⟨d, [a, b], false⟩ s.cs.mask fun i => if (s.K k).getLsbD i then s.src a i else s.src b i
/-- VSEL (R127). -/
def execVsel (d a b : VReg) (k : KReg) (s : State) : Out := selOp s 4 d (.reg a) (.reg b) k
/-- VSEL with a literal (R127). -/
def execVselLit (d a : VReg) (k : KReg) (l : W32) (s : State) : Out := selOp s 8 d (.reg a) (.lit l) k
/-- VBCST (R127). -/
def execVbcst (d : VReg) (r : SReg) (k : KReg) (s : State) : Out :=
  alu s 4 ⟨d, [], false⟩ (s.active k) fun _ => (s.S r).setWidth 32
/-- VLID (R127). -/
def execVlid (d : VReg) (k : KReg) (s : State) : Out :=
  alu s 4 ⟨d, [], false⟩ (s.active k) fun i => BitVec.ofNat 32 i
/-- VMOV (R127). -/
def execVmov (d b : VReg) (k : KReg) (s : State) : Out := alu1 s 4 d (.reg b) k id
/-- VMOV with a literal (R127). -/
def execVmovLit (d : VReg) (k : KReg) (l : W32) (s : State) : Out := alu1 s 8 d (.lit l) k id

/-! ### VCMP (R129) -/

/-- A condition on two lanes. -/
def VCond.holds (c : VCond) (a b : W32) : Bool :=
  match cmpInt c a b with
  | some r => r
  | none => cmpFloat c (FFmt.f32.value a.toNat) (FFmt.f32.value b.toNat)

/-- All 128 bits of K[d] are written; inactive lanes are 0 (R129). -/
def cmpOp (s : State) (len : Nat) (c : VCond) (d : KReg) (a b : VSrc) (k : KReg) : Out :=
  issue s (Info.vec len) fun t =>
    let m := t.active k
    (t.setK d (laneMask fun i => m.getLsbD i && VCond.holds c (t.src a i) (t.src b i))).advance len
/-- VCMP (R129). -/
def execVcmp (c : VCond) (d : KReg) (a b : VReg) (k : KReg) (s : State) : Out := cmpOp s 8 c d (.reg a) (.reg b) k
/-- VCMP with a literal (R129). -/
def execVcmpLit (c : VCond) (d : KReg) (a : VReg) (k : KReg) (l : W32) (s : State) : Out :=
  cmpOp s 12 c d (.reg a) (.lit l) k

/-! ### VIEX (R130) -/

/-- Leading zero bits of a lane. -/
def clz32 (a : W32) : W32 := BitVec.ofNat 32 (((List.range 32).find? fun i => a.getLsbD (31 - i)).getD 32)
/-- VMAD (R130). -/
def execVmad (d a b c : VReg) (k : KReg) (s : State) : Out :=
  alu3 s 8 d (.reg a) (.reg b) (.reg c) k fun x y z => x * y + z
/-- VMAD with a literal (R122). -/
def execVmadLit (d a c : VReg) (k : KReg) (l : W32) (s : State) : Out :=
  alu3 s 12 d (.reg a) (.lit l) (.reg c) k fun x y z => x * y + z
/-- VCLZ (R130). -/
def execVclz (d a : VReg) (k : KReg) (s : State) : Out := alu1 s 8 d (.reg a) k clz32
/-- VPOPC (R130). -/
def execVpopc (d a : VReg) (k : KReg) (s : State) : Out := alu1 s 8 d (.reg a) k fun x => BitVec.ofNat 32 (popcount x)
/-- VABS (R130). -/
def execVabs (d a : VReg) (k : KReg) (s : State) : Out := alu1 s 8 d (.reg a) k fun x => if x.slt 0 then 0 - x else x
/-- VNEG (R130). -/
def execVneg (d a : VReg) (k : KReg) (s : State) : Out := alu1 s 8 d (.reg a) k fun x => 0 - x

/-! ### VFP (R131, R132) -/

/-- A function of two elements that may overflow, in each element of two lanes. -/
def fp2 (q : FpQ) (f : FFmt → Rm → Nat → Nat → Rounded) (a b : W32) : Option W32 :=
  perElem3 q.fmt (fun x y _ => (Packing.fmt q.fmt).finish q.ovf (f (Packing.fmt q.fmt) q.rm x y)) a b 0
def fp3 (q : FpQ) (f : FFmt → Rm → Nat → Nat → Nat → Rounded) (a b c : W32) : Option W32 :=
  perElem3 q.fmt (fun x y z => (Packing.fmt q.fmt).finish q.ovf (f (Packing.fmt q.fmt) q.rm x y z)) a b c
/-- A function of an element, and of two, that cannot overflow. -/
def fe1 (p : Packing) (f : FFmt → Nat → Nat) (a : W32) : W32 := (perElem1 p (fun x => some (f (Packing.fmt p) x)) a).getD 0
def fe2 (p : Packing) (f : FFmt → Nat → Nat → Nat) (a b : W32) : W32 :=
  (perElem3 p (fun x y _ => some (f (Packing.fmt p) x y)) a b 0).getD 0

/-- VFADD (R131). -/
def execVfadd (d a b : VReg) (k : KReg) (q : FpQ) (s : State) : Out := aluT2 s 8 d (.reg a) (.reg b) k (fp2 q FFmt.fadd)
/-- VFADD with a literal (R131). -/
def execVfaddLit (d a : VReg) (k : KReg) (q : FpQ) (l : W32) (s : State) : Out :=
  aluT2 s 12 d (.reg a) (.lit l) k (fp2 q FFmt.fadd)
/-- VFSUB (R131). -/
def execVfsub (d a b : VReg) (k : KReg) (q : FpQ) (s : State) : Out := aluT2 s 8 d (.reg a) (.reg b) k (fp2 q FFmt.fsub)
/-- VFSUB with a literal (R131). -/
def execVfsubLit (d a : VReg) (k : KReg) (q : FpQ) (l : W32) (s : State) : Out :=
  aluT2 s 12 d (.reg a) (.lit l) k (fp2 q FFmt.fsub)
/-- VFMUL (R131). -/
def execVfmul (d a b : VReg) (k : KReg) (q : FpQ) (s : State) : Out := aluT2 s 8 d (.reg a) (.reg b) k (fp2 q FFmt.fmul)
/-- VFMUL with a literal (R131). -/
def execVfmulLit (d a : VReg) (k : KReg) (q : FpQ) (l : W32) (s : State) : Out :=
  aluT2 s 12 d (.reg a) (.lit l) k (fp2 q FFmt.fmul)
/-- VFMA (R131). -/
def execVfma (d a b c : VReg) (k : KReg) (q : FpQ) (s : State) : Out :=
  aluT3 s 8 d (.reg a) (.reg b) (.reg c) k (fp3 q FFmt.fma)
/-- VFMA with a literal (R131). -/
def execVfmaLit (d a c : VReg) (k : KReg) (q : FpQ) (l : W32) (s : State) : Out :=
  aluT3 s 12 d (.reg a) (.lit l) (.reg c) k (fp3 q FFmt.fma)
/-- VFMIN (R63, R131). -/
def execVfmin (d a b : VReg) (k : KReg) (p : Packing) (s : State) : Out :=
  alu2 s 8 d (.reg a) (.reg b) k (fe2 p fun f => f.minMax false)
/-- VFMIN with a literal (R131). -/
def execVfminLit (d a : VReg) (k : KReg) (p : Packing) (l : W32) (s : State) : Out :=
  alu2 s 12 d (.reg a) (.lit l) k (fe2 p fun f => f.minMax false)
/-- VFMAX (R63, R131). -/
def execVfmax (d a b : VReg) (k : KReg) (p : Packing) (s : State) : Out :=
  alu2 s 8 d (.reg a) (.reg b) k (fe2 p fun f => f.minMax true)
/-- VFMAX with a literal (R131). -/
def execVfmaxLit (d a : VReg) (k : KReg) (p : Packing) (l : W32) (s : State) : Out :=
  alu2 s 12 d (.reg a) (.lit l) k (fe2 p fun f => f.minMax true)
/-- An element with its sign cleared, or inverted; a NaN gives the canonical NaN (R131). -/
def FFmt.fabs (f : FFmt) (a : Nat) : Nat := if (f.value a).isNan then f.nan else a % 2 ^ (f.width - 1)
def FFmt.fneg (f : FFmt) (a : Nat) : Nat :=
  if (f.value a).isNan then f.nan else if a < 2 ^ (f.width - 1) then a + 2 ^ (f.width - 1) else a - 2 ^ (f.width - 1)
/-- VFABS (R131). -/
def execVfabs (d a : VReg) (k : KReg) (p : Packing) (s : State) : Out := alu1 s 8 d (.reg a) k (fe1 p FFmt.fabs)
/-- VFNEG (R131). -/
def execVfneg (d a : VReg) (k : KReg) (p : Packing) (s : State) : Out := alu1 s 8 d (.reg a) k (fe1 p FFmt.fneg)
/-- VFRND (R132). -/
def execVfrnd (d a : VReg) (k : KReg) (p : Packing) (rm : Rm) (s : State) : Out :=
  alu1 s 8 d (.reg a) k (fe1 p fun f => f.frnd rm)

/-! ### VSFN (R133) -/

/-- A bounded function in each element; a finite result beyond the range takes OVF (R69, R70, R133). -/
def sfnOp (s : State) (fn : Sfn) (d a : VReg) (k : KReg) (p : Packing) (o : Ovf) : Out :=
  aluT1 s 8 d (.reg a) k (perElem1 p fun x => (Packing.fmt p).finish o ((Packing.fmt p).sfn fn x))

/-- VRCP (R133). -/
def execVrcp (d a : VReg) (k : KReg) (p : Packing) (o : Ovf) (s : State) : Out := sfnOp s .rcp d a k p o
/-- VRSQ (R133). -/
def execVrsq (d a : VReg) (k : KReg) (p : Packing) (o : Ovf) (s : State) : Out := sfnOp s .rsq d a k p o
/-- VSQRT (R133). -/
def execVsqrt (d a : VReg) (k : KReg) (p : Packing) (o : Ovf) (s : State) : Out := sfnOp s .sqrt d a k p o
/-- VEXP2 (R133). -/
def execVexp2 (d a : VReg) (k : KReg) (p : Packing) (o : Ovf) (s : State) : Out := sfnOp s .exp2 d a k p o
/-- VLOG2 (R133). -/
def execVlog2 (d a : VReg) (k : KReg) (p : Packing) (o : Ovf) (s : State) : Out := sfnOp s .log2 d a k p o
/-- VSIN (R133). -/
def execVsin (d a : VReg) (k : KReg) (p : Packing) (o : Ovf) (s : State) : Out := sfnOp s .sin d a k p o
/-- VCOS (R133). -/
def execVcos (d a : VReg) (k : KReg) (p : Packing) (o : Ovf) (s : State) : Out := sfnOp s .cos d a k p o
/-- VTANH (R133). -/
def execVtanh (d a : VReg) (k : KReg) (p : Packing) (o : Ovf) (s : State) : Out := sfnOp s .tanh d a k p o
/-- VSIGM (R133). -/
def execVsigm (d a : VReg) (k : KReg) (p : Packing) (o : Ovf) (s : State) : Out := sfnOp s .sigm d a k p o
/-- VERF (R133). -/
def execVerf (d a : VReg) (k : KReg) (p : Packing) (o : Ovf) (s : State) : Out := sfnOp s .erf d a k p o

/-! ### VCVT (R134) -/

/-- The generators of the lanes that a stochastic VCVT completes draw once (R59). -/
def State.draw (s : State) (m : Mask) : State :=
  s.setCw { s.cw with gens := SMap.setLanes s.cw.gens 0 m fun i => drawGen (s.cw.gen i) }

/-- VCVT (R134): the field in the low bits, the result zero-extended. -/
def execVcvt (src dst : LaneType) (d a : VReg) (k : KReg) (rm : Rm) (o : Ovf) (sr : Bool) (s : State) : Out :=
  let m := s.active k
  let f (i : Nat) : Option Nat :=
    convert (LaneType.kind src) (LaneType.kind dst) rm o (if sr then some (drawGen (s.cw.gen i)) else none) (s.src (.reg a) i).toNat
  .next (aluS s (Info.vec 8) ⟨d, [.reg a], sr⟩ m (fun i => BitVec.ofNat 32 ((f i).getD 0)) (fun i => (f i).isNone)
    fun t => if sr then t.draw m else t)

/-! ### VQ (R135, R136) -/

/-- Needs q4. -/
def infoVq : Info := { Info.vec 8 with feat := some 0 }
/-- The lane word of eight codes, the lowest in the low nibble. -/
def packCodes (cs : List Nat) (m : Nat) : W32 :=
  BitVec.ofNat 32 ((List.range 8).foldl (fun n e => n + cs.getD (8 * m + e) 0 * 16 ^ e) 0)
/-- The 32 lanes that a packed group writes. -/
def packedLane (b : Nat × List Nat) (j : Nat) : W32 :=
  if j < 4 then packCodes b.2 j else if j = 4 then BitVec.ofNat 32 b.1 else 0
/-- VQPACK (R135). -/
def execVqpack (ty : BlockType) (d a : VReg) (k : KReg) (s : State) : Out :=
  issue s infoVq fun t =>
    let m := t.active k
    let block (g : Nat) : Nat × List Nat := quantise ty ((List.range 32).map fun j =>
      if m.getLsbD (32 * g + j) then FFmt.f32.value (t.cw.v a.toNat (32 * g + j)).toNat else .fin false 0 0)
    let takes (g : Nat) : Bool := (List.range 32).any fun j => m.getLsbD (32 * g + j)
    let blocks := (List.range 4).map fun g => if takes g then block g else (0, [])
    t.writeV d (laneMask fun i => takes (i / 32)) (fun i => packedLane (blocks.getD (i / 32) (0, [])) (i % 32)) 8
/-- VQUNPK (R136). -/
def execVqunpk (d a : VReg) (k : KReg) (s : State) : Out :=
  issue s infoVq fun t =>
    t.writeV d (t.active k) (fun i =>
      let word := (t.cw.v a.toNat (32 * (i / 32) + i % 32 / 8)).toNat
      let scale := (t.cw.v a.toNat (32 * (i / 32) + 4)).toNat % 256
      BitVec.ofNat 32 (FFmt.f32.roundInf .rne (q4Value scale (word / 16 ^ (i % 8) % 16)))) 8

/-! ### VLANE (R137–R142) -/

/-- VPERM reads a source lane whether or not it is active (R137). -/
def permOp (s : State) (len : Nat) (d a : VReg) (b : VSrc) (k : KReg) : Out :=
  issue s (Info.vec len) fun t =>
    t.writeV d (t.active k) (fun i => t.cw.v a.toNat ((t.src b i).toNat % 128)) len
/-- VPERM (R137). -/
def execVperm (d a b : VReg) (k : KReg) (s : State) : Out := permOp s 8 d a (.reg b) k
/-- VPERM with a literal (R137). -/
def execVpermLit (d a : VReg) (k : KReg) (l : W32) (s : State) : Out := permOp s 12 d a (.lit l) k

/-- The identity of a reduction (R138). -/
def RedOp.identity : RedOp → W32
  | .add => 0 | .min => 0x7FFFFFFF | .minn => 0xFFFFFFFF | .max => 0x80000000 | .maxn => 0 | .and => 0xFFFFFFFF
  | .fadd => 0x80000000 | .fmin => 0x7F800000 | .or => 0 | .xor => 0 | .fmax => 0xFF800000

/-- One combination; `none` where an addition overflows under TRAP (R68, R138). -/
def RedOp.step (op : RedOp) (rm : Rm) (o : Ovf) (a b : W32) : Option W32 :=
  match op with
  | .add => some (a + b)
  | .min => some (VOp.eval .min_ a b)
  | .minn => some (VOp.eval .minn a b)
  | .max => some (VOp.eval .max_ a b)
  | .maxn => some (VOp.eval .maxn a b)
  | .and => some (a &&& b)
  | .or => some (a ||| b)
  | .xor => some (a ^^^ b)
  | .fadd => (FFmt.f32.finish o (FFmt.f32.fadd rm a.toNat b.toNat)).map (BitVec.ofNat 32)
  | .fmin => some (BitVec.ofNat 32 (FFmt.f32.minMax false a.toNat b.toNat))
  | .fmax => some (BitVec.ofNat 32 (FFmt.f32.minMax true a.toNat b.toNat))

/-- How the result is extended (R138). -/
def RedOp.extend (op : RedOp) (v : W32) : Word :=
  match op with
  | .add | .min | .max => v.signExtend 64
  | _ => v.setWidth 64

/-- One level of the tree of R68. -/
def pairUp (f : W32 → W32 → Option W32) : List W32 → Option (List W32)
  | a :: b :: rest => do
    let x ← f a b
    let xs ← pairUp f rest
    pure (x :: xs)
  | l => some l

/-- The tree of R68: `n` levels over 2^n leaves. -/
def treeFold (f : W32 → W32 → Option W32) : Nat → List W32 → Option (List W32)
  | 0, l => some l
  | n + 1, l => (pairUp f l).bind (treeFold f n)

/-- VRED (R138); OVFTRAP marks every active lane (R299). -/
def execVred (op : RedOp) (d : SReg) (a : VReg) (k : KReg) (rm : Rm) (o : Ovf) (s : State) : Out :=
  issue s (Info.vec 8) fun t =>
    let m := t.active k
    match treeFold (RedOp.step op rm o) 7 (laneList.map fun i => if m.getLsbD i then t.cw.v a.toNat i else RedOp.identity op) with
    | some l => (t.setS d (RedOp.extend op (l.headD 0))).advance 8
    | none => t.trapLanes t.cur.1 t.cur.2 (fun _ => .ovftrap) m (fun _ => 0) (fun _ => 0) t.cs.pc t.cs.pc false

/-- The first active lane's own value; a NaN is canonical under the float operations (R139). -/
def RedOp.first (op : RedOp) (x : W32) : W32 :=
  match op with
  | .fadd | .fmin | .fmax => if (FFmt.f32.value x.toNat).isNan then 0x7FC00000 else x
  | _ => x

/-- The running values in lane order: lane and value, and the lane at which one overflows under TRAP. -/
def scanFrom (f : W32 → W32 → Option W32) (v : Nat → W32) (acc : W32) : List Nat → List (Nat × W32) × Option Nat
  | [] => ([], none)
  | i :: rest =>
    match f acc (v i) with
    | none => ([], some i)
    | some x => let (l, e) := scanFrom f v x rest; ((i, x) :: l, e)

/-- VSCAN (R139); OVFTRAP marks the first lane that overflows and every active lane above it (R299). -/
def execVscan (op : RedOp) (d a : VReg) (k : KReg) (rm : Rm) (o : Ovf) (s : State) : Out :=
  issue s (Info.vec 8) fun t =>
    let m := t.active k
    match laneList.filter fun i => m.getLsbD i with
    | [] => t.advance 8
    | i :: rest =>
      let x := RedOp.first op (t.cw.v a.toNat i)
      match scanFrom (RedOp.step op rm o) (t.cw.v a.toNat) x rest with
      | (l, none) => t.writeV d m (fun j => SMap.get zeros ((i, x) :: l) j) 8
      | (_, some e) =>
        t.trapLanes t.cur.1 t.cur.2 (fun _ => .ovftrap) (laneMask fun j => m.getLsbD j && decide (e ≤ j)) (fun _ => 0)
          (fun _ => 0) t.cs.pc t.cs.pc false

/-- VCMPRS (R140): all 128 lanes are written. -/
def execVcmprs (d a : VReg) (k : KReg) (s : State) : Out :=
  issue s (Info.vec 8) fun t =>
    let m := t.active k
    let packed := (laneList.filter fun i => m.getLsbD i).map fun i => t.cw.v a.toNat i
    t.writeV d (BitVec.allOnes 128) (fun i => packed.getD i 0) 8

/-- VMATCH (R141): the quad d to d + 3. -/
def execVmatch (d a : VReg) (k : KReg) (s : State) : Out :=
  issue s (Info.vec 8) fun t =>
    let m := t.active k
    let eq (i : Nat) : Mask := laneMask fun j => m.getLsbD j && t.cw.v a.toNat j == t.cw.v a.toNat i
    let put (W : Wave) (q : Nat) : Wave := W.setVs (d.toNat + q) m fun i => (eq i).extractLsb' (32 * q) 32
    (t.setCw ((List.range 4).foldl put t.cw)).advance 8

/-- XVDEPTH (R142). -/
def execXvdepth (d : VReg) (k : KReg) (s : State) : Out :=
  issue s { Info.vec 8 with feat := some 1 } fun t =>
    t.writeV d (t.active k) (fun i => BitVec.ofNat 32 (t.cw.depth i)) 8

/-! ### VDP4 (R143) -/

/-- The exact sum of eight products of codes; an exact zero is +0, whatever the signs of its products (log 45). -/
def dotCodes (sa sb a b : Nat) : Num :=
  (List.range 8).foldl (fun n e =>
    Num.add .rne n (Num.mul (q4Value sa (a / 16 ^ e % 16)) (q4Value sb (b / 16 ^ e % 16)))) (.fin false 0 0)

/-- A lane of VDP4; `none` where OVF TRAP traps. -/
def dp4 (rm : Rm) (o : Ovf) (acc a b c : W32) : Option W32 :=
  let sa := c.toNat % 256
  let sb := c.toNat / 256 % 256
  if sa % 64 = 63 ∨ sb % 64 = 63 ∨ (FFmt.f32.value acc.toNat).isNan then some 0x7FC00000
  else
    let p := FFmt.f32.roundInf .rne (dotCodes sa sb a.toNat b.toNat)
    (FFmt.f32.finish o (FFmt.f32.fadd rm acc.toNat p)).map (BitVec.ofNat 32)

/-- VDP4: the checks of R297, then the results or OVFTRAP in the lanes that overflow. -/
def dp4Op (s : State) (len : Nat) (d a : VReg) (b : VSrc) (c : VReg) (k : KReg) (rm : Rm) (o : Ovf) : Out :=
  issue s { Info.vec len with feat := some 4 } fun t =>
    let m := t.active k
    let f (i : Nat) : Option W32 := dp4 rm o (t.cw.v d.toNat i) (t.cw.v a.toNat i) (t.src b i) (t.cw.v c.toNat i)
    let bad := laneMask fun i => m.getLsbD i && (f i).isNone
    if bad = 0 then t.writeV d m (fun i => (f i).getD 0) len
    else t.trapLanes t.cur.1 t.cur.2 (fun _ => .ovftrap) bad (fun _ => 0) (fun _ => 0) t.cs.pc t.cs.pc false
/-- VDP4 (R143). -/
def execVdp4 (d a b c : VReg) (k : KReg) (rm : Rm) (o : Ovf) (s : State) : Out := dp4Op s 8 d a (.reg b) c k rm o
/-- VDP4 with a literal (R143). -/
def execVdp4Lit (d a c : VReg) (k : KReg) (rm : Rm) (o : Ovf) (l : W32) (s : State) : Out :=
  dp4Op s 12 d a (.lit l) c k rm o

end Sys2Proof.Machine
end

