-- ==== Sys2Proof/Machine/Xv.lean ====
section
/-! DEFINITION. Machine/Xv.lean: pips, XV and its retirement, the stack instructions and the activation tables
(R144–R159). -/
namespace Sys2Proof.Machine

/-! ### Pips (R144, R149) -/

/-- The pips. -/
inductive Pip where
  | nop | px | py | pki | dup | swap | drop | over | add | sub | mul | div | fma | min | max | neg | abs
  | fn (f : Sfn) (cls : Nat)
  | relu | lrelu | clamp | lut | sel | cmplt | cmpeq | floor | sqr | tblwr | ctrrd | halt
deriving DecidableEq, Repr

/-- The pip of a code (R149). -/
def pipOf (code : Nat) : Option Pip :=
  match code with
  | 0x00 => some .nop | 0x01 => some .px | 0x02 => some .py | 0x03 => some .pki | 0x04 => some .dup | 0x05 => some .swap
  | 0x06 => some .drop | 0x07 => some .over | 0x08 => some .add | 0x09 => some .sub | 0x0A => some .mul | 0x0B => some .div
  | 0x0C => some .fma | 0x0D => some .min | 0x0E => some .max | 0x0F => some .neg | 0x10 => some .abs
  | 0x11 => some (.fn .rcp 4) | 0x12 => some (.fn .rsq 4) | 0x13 => some (.fn .sqrt 4) | 0x14 => some (.fn .exp2 4)
  | 0x15 => some (.fn .log2 4) | 0x16 => some (.fn .exp 4) | 0x17 => some (.fn .log 4) | 0x18 => some (.fn .tanh 8)
  | 0x19 => some (.fn .sigm 8) | 0x1A => some (.fn .erf 8) | 0x1B => some (.fn .gelu 8) | 0x1C => some (.fn .gelut 8)
  | 0x1D => some (.fn .silu 8) | 0x1E => some (.fn .softp 8) | 0x1F => some .relu | 0x20 => some .lrelu
  | 0x21 => some .clamp | 0x22 => some .lut | 0x23 => some .sel | 0x24 => some .cmplt | 0x25 => some .cmpeq
  | 0x26 => some .floor | 0x27 => some .sqr | 0x38 => some .tblwr | 0x39 => some .ctrrd | 0x3F => some .halt
  | _ => none

/-- How many entries a pip pops and pushes. -/
def Pip.arity : Pip → Nat × Nat
  | .nop | .halt => (0, 0)
  | .px | .py | .pki | .ctrrd => (0, 1)
  | .dup => (1, 2) | .swap => (2, 2) | .drop => (1, 0) | .over => (2, 3)
  | .add | .sub | .mul | .div | .min | .max | .cmplt | .cmpeq => (2, 1)
  | .fma | .clamp | .sel => (3, 1)
  | .neg | .abs | .fn .. | .relu | .lrelu | .lut | .floor | .sqr => (1, 1)
  | .tblwr => (2, 0)

/-- The latency class. -/
def Pip.cls : Pip → Nat
  | .fn _ c => c
  | .relu | .lrelu | .clamp | .lut => 8
  | _ => 1

/-- The bits of PARAM that a pip uses. -/
def Pip.paramBits : Pip → Nat
  | .pki => 10 | .lrelu => 4 | .lut | .tblwr => 2 | .ctrrd => 3 | _ => 0

/-- Level S only. -/
def Pip.priv : Pip → Bool
  | .tblwr | .ctrrd => true
  | _ => false

/-! ### Arithmetic (R150) -/

/-- A result rounded with RNE, an overflow as the infinity of its sign. -/
def pipRound (r : Rounded) : W32 := BitVec.ofNat 32 ((FFmt.f32.finish .inf r).getD 0)
/-- The value of an entry. -/
def pv (a : W32) : Num := FFmt.f32.value a.toNat
/-- 1.0 or +0. -/
def pipFlag (b : Bool) : W32 := if b then 0x3F800000 else 0

/-- The value of a finite number as a signed mantissa and an exponent. -/
def lutSegment (lo hi a : Num) : Nat :=
  let e := min (min lo.dy.2 hi.dy.2) a.dy.2
  let at_ (x : Num) : Int := x.dy.1 * (2 ^ (x.dy.2 - e).toNat : Nat)
  let n := (at_ a - at_ lo) * 256
  if n < 0 then 0 else Nat.min (n.toNat / (at_ hi - at_ lo).toNat) 255

/-- xs = LO + s × w, exact (R154). -/
def lutStart (lo hi : Num) (s : Nat) : Num :=
  let e := min lo.dy.2 hi.dy.2
  let at_ (x : Num) : Int := x.dy.1 * (2 ^ (x.dy.2 - e).toNat : Nat)
  Num.ofInt false (at_ lo * 256 + s * (at_ hi - at_ lo)) (e - 8)

def Num.isFin : Num → Bool
  | .fin .. => true
  | _ => false

/-- The LUT pip over a generation's words (R154). -/
def lutEval (word : Nat → W32) (a : W32) : W32 :=
  let lo := pv (word 0)
  let hi := pv (word 1)
  let x := pv a
  if !lo.isFin || !hi.isFin || !lo.lt hi || x.isNan then 0x7FC00000
  else
    let s := match x with | .inf neg => (if neg then 0 else 255) | x => lutSegment lo hi x
    let y := pv (word (2 + 2 * s))
    let d := pv (word (3 + 2 * s))
    if y.isNan || d.isNan then 0x7FC00000
    else
      match x with
      | .inf _ => if d.isZero then word (2 + 2 * s) else pipRound (FFmt.f32.round .rne (Num.add .rne y (Num.mul d x)))
      | x =>
        if !y.isFin then word (2 + 2 * s)
        else pipRound (FFmt.f32.round .rne (Num.add .rne y (Num.mul d (Num.add .rne x (lutStart lo hi s).neg))))

/-- a × 2^−n. -/
def scaleDown (x : Num) (n : Nat) : Num :=
  match x with
  | .fin neg m e => .fin neg m (e - n)
  | x => x

/-- What the pips of a lane may read: X, Y, the tables of the latched generations, the event counters. -/
structure PipEnv where
  x : W32
  y : W32
  table : Nat → Nat → W32
  counter : Nat → W32

/-- What a pip pushes, in order, from the values it popped: a first, then b, then c (R149). -/
def Pip.push (p : Pip) (env : PipEnv) (param : Nat) (a b c : W32) : List W32 :=
  match p with
  | .nop | .drop | .tblwr | .halt => []
  | .px => [env.x]
  | .py => [env.y]
  | .pki => [pipRound (FFmt.f32.round .rne (Num.ofInt false (IFmt.value ⟨10, true⟩ param) 0))]
  | .dup => [a, a]
  | .swap => [a, b]
  | .over => [b, a, b]
  | .add => [pipRound (FFmt.f32.fadd .rne b.toNat a.toNat)]
  | .sub => [pipRound (FFmt.f32.fsub .rne b.toNat a.toNat)]
  | .mul => [pipRound (FFmt.f32.fmul .rne b.toNat a.toNat)]
  | .div => [pipRound (FFmt.f32.fdiv .rne b.toNat a.toNat)]
  | .fma => [pipRound (FFmt.f32.fma .rne c.toNat b.toNat a.toNat)]
  | .min => [BitVec.ofNat 32 (FFmt.f32.minMax false b.toNat a.toNat)]
  | .max => [BitVec.ofNat 32 (FFmt.f32.minMax true b.toNat a.toNat)]
  | .neg => [BitVec.ofNat 32 (FFmt.f32.fneg a.toNat)]
  | .abs => [BitVec.ofNat 32 (FFmt.f32.fabs a.toNat)]
  | .fn f _ => [pipRound (FFmt.f32.sfn f a.toNat)]
  | .relu => [if (pv a).isNan then 0x7FC00000 else if (Num.fin false 0 0).lt (pv a) then a else 0]
  | .lrelu =>
    [if (pv a).isNan then 0x7FC00000
     else if (Num.fin false 0 0).lt (pv a) then a
     else pipRound (FFmt.f32.round .rne (scaleDown (pv a) param))]
  | .clamp => [BitVec.ofNat 32 (FFmt.f32.minMax false (FFmt.f32.minMax true c.toNat b.toNat) a.toNat)]
  | .lut => [lutEval (env.table param) a]
  | .sel => [if (pv a).isZero then b else c]
  | .cmplt => [pipFlag ((pv b).lt (pv a))]
  | .cmpeq => [pipFlag ((pv b).eq (pv a))]
  | .floor => [BitVec.ofNat 32 (FFmt.f32.frnd .rdn a.toNat)]
  | .sqr => [pipRound (FFmt.f32.fmul .rne a.toNat a.toNat)]
  | .ctrrd => [env.counter param]

/-! ### A lane (R147, R148) -/

/-- An operand stack: its entries, 0 at the bottom, and its depth. -/
structure Stack where
  entries : List W32
  depth : Nat
deriving DecidableEq, Repr

def Stack.top (s : Stack) (n : Nat) : W32 := s.entries.getD (s.depth - 1 - n) 0
def Stack.pushAll (s : Stack) (vs : List W32) : Stack :=
  vs.foldl (fun s v => { entries := s.entries.set s.depth v, depth := s.depth + 1 }) s

/-- An integral value from 0 to 513 (R148). -/
def tblIndex (a : W32) : Option Nat :=
  match pv a with
  | .fin neg m e =>
    if m = 0 then some 0
    else if neg then none
    else
      let (n, r, _) := atGrid m 1 e 0
      if r = 0 ∧ n ≤ 513 then some n else none
  | _ => none

/-- What a lane's XV comes to: the stack, the steps that it has run and their cycles, its table writes (table, word,
value), its fault. -/
structure LaneRun where
  stack : Stack
  ran : List Nat
  cycles : Nat
  tblw : List (Nat × Nat × W32)
  fail : Option (Cause × Nat)
deriving DecidableEq, Repr

/-- One pip on a stack: the checks of R148 in order, then its effect. A step that fails counts its pip's class (R151), or 1 where its
CODE is unassigned and has none (log 55). -/
def runPip (sys : Bool) (env : PipEnv) (step : Nat) (pip : Nat) (r : LaneRun) : LaneRun :=
  let code := pip % 64
  let param := pip / 64
  match pipOf code with
  | none => { r with cycles := r.cycles + 1, fail := some (.xvop, step) }
  | some p =>
    let st := r.stack
    let fail (c : Cause) : LaneRun := { r with cycles := r.cycles + p.cls, fail := some (c, step) }
    if 2 ^ p.paramBits ≤ param then fail .xvop
    else if p.priv && !sys then fail .xvpriv
    else if st.depth < p.arity.1 then fail .xvund
    else if 8 < st.depth - p.arity.1 + p.arity.2 then fail .xvovf
    else
      let out := p.push env param (st.top 0) (st.top 1) (st.top 2)
      let st1 := ({ st with depth := st.depth - p.arity.1 } : Stack).pushAll out
      if p = .tblwr then
        match tblIndex (st.top 0) with
        | none => fail .xvop
        | some n => { r with stack := st1, cycles := r.cycles + 1, tblw := r.tblw ++ [(param, n, st.top 1)] }
      else { r with stack := st1, cycles := r.cycles + p.cls }

/-- The selected steps of a lane's pip word, step 0 first (R147). A HALT, itself one cycle, skips the rest; one with a
nonzero PARAM is XVOP (log 46). -/
def runLane (sys : Bool) (env : PipEnv) (word : W32) : List Nat → LaneRun → LaneRun
  | [], r => r
  | step :: rest, r0 =>
    let r := { r0 with ran := r0.ran ++ [step] }
    let pip := if step = 0 then word.toNat % 65536 else word.toNat / 65536
    if pip % 64 = 0x3F then
      if pip / 64 ≠ 0 then { r with cycles := r.cycles + 1, fail := some (.xvop, step) }
      else { r with cycles := r.cycles + 1 }
    else
      let r1 := runPip sys env step pip r
      if r1.fail.isSome then r1 else runLane sys env word rest r1

/-! ### Tables -/

def Bank.table (b : Bank) (t : Nat) : Table := SMap.get (fun _ => Table.zero) b.tables t
def Bank.setTable (b : Bank) (t : Nat) (x : Table) : Bank := { b with tables := SMap.set (fun _ => Table.zero) b.tables t x }
def Table.word (t : Table) (gen n : Nat) : W32 := SMap.get zeros t.words (1024 * gen + n)

/-- The generations that the XVs in flight in a bank have latched of a table. -/
def State.latched (s : State) (b t : Nat) : List Nat :=
  (List.range 8).filterMap fun i =>
    match (s.wave (8 * b + i)).pend with
    | .xv _ _ p => p.gens[t]?
    | _ => none

/-! ### XV (R146, R147, R151) -/

/-- A lane's stack. -/
def Wave.stackOf (W : Wave) (i : Nat) : Stack :=
  { entries := (List.range 8).map fun e => W.entry i e, depth := W.depth i }

/-- The lanes of an XV with the steps each runs: the TMASK lanes in resumption form (R283). -/
def State.xvLanes (s : State) (k : KReg) (steps : List Nat) : List (Nat × List Nat) :=
  match s.cs.xvres with
  | none => (laneList.filter fun i => (s.active k).getLsbD i).map fun i => (i, steps)
  | some (m, one) =>
    (laneList.filter fun i => m.getLsbD i).map fun i => (i, if one.getLsbD i then [1] else steps)

/-- Whether a lane's word holds TBLWR in a step it is to run. -/
def holdsTblwr (word : W32) (steps : List Nat) (t : Nat) : Bool :=
  steps.any fun st =>
    let pip := if st = 0 then word.toNat % 65536 else word.toNat / 65536
    pip % 64 == 0x38 && pip / 64 == t

/-- The lanes of an XV as they run on a wave's stacks, with the table generations that it has latched. -/
def State.xvRuns (s : State) (w : Nat) (ins : XvIns) (gens : List Nat) : List (Nat × LaneRun) :=
  let W := s.wave w
  let B := s.bank (bankOf w)
  let env (i : Nat) : PipEnv :=
    { x := W.v ins.x.toNat i, y := W.v ins.y.toNat i
      table := fun t n => (B.table t).word (gens.getD t 0) n
      counter := fun n => (s.evcnt (coreOf w) n).setWidth 32 }
  ins.lanes.map fun l =>
    (l.1, runLane W.system (env l.1) (W.v ins.p.toNat l.1) l.2
      { stack := W.stackOf l.1, ran := [], cycles := 0, tblw := [], fail := none })

/-- What is held of an XV until it retires. -/
def xvPendOf (ins : XvIns) (gens : List Nat) (cycle : Nat) (runs : List (Nat × LaneRun)) : XvPend :=
  { ins := ins
    ostacks := runs.flatMap fun r => r.2.stack.entries.zipIdx.map fun e => (8 * r.1 + e.2, e.1)
    depths := runs.map fun r => (r.1, r.2.stack.depth)
    tblw := runs.flatMap fun r => r.2.tblw.map fun t => (t.1, 1024 * (1 - gens.getD t.1 0) + t.2.1, t.2.2)
    fails := runs.filterMap fun r => r.2.fail.map fun f => (r.1, f.1, f.2)
    gens := gens
    held := false
    due := cycle + 2 + (runs.map fun r => r.2.cycles).foldl Nat.max 0 }

/-- The steps that some lane has run (R352). -/
def stepsRun (runs : List (Nat × LaneRun)) : List Nat := (runs.flatMap fun r => r.2.ran).eraseDups

/-- Whether an XV in flight in a bank is to write a table. -/
def State.tblwOpen (s : State) (b t : Nat) : Bool :=
  (List.range 8).any fun i =>
    match (s.wave (8 * b + i)).pend with
    | .xv _ _ p => p.tblw.any fun e => e.1 == t
    | _ => false
/-- Whether a load of a table is open in a bank. -/
def State.loadOpen (s : State) (b t : Nat) : Bool := (s.bank b).loads.any fun l => l.table == t

/-- XV: the lanes run on the stacks as they stand, and the results are held until it retires. One that holds TBLWR waits
for XVs in flight that have latched the generation which it is to write, and for earlier writes and loads of the table
(R148, R159). -/
def xvOp (s : State) (p x y : VReg) (k : KReg) (steps : List Nat) : Out :=
  issue s { Info.vec 4 with feat := some 1, stages := [] } fun u =>
    let w := u.cur.1
    let b := bankOf w
    let ins : XvIns := { p := p, x := x, y := y, lanes := u.xvLanes k steps }
    let gens := (List.range 4).map fun t => ((u.bank b).table t).cur
    let waits := (List.range 4).any fun t =>
      (ins.lanes.any fun l => holdsTblwr (u.cw.v p.toNat l.1) l.2 t) &&
        ((u.latched b t).contains (1 - gens.getD t 0) || u.tblwOpen b t || u.loadOpen b t)
    if waits then s
    else
      let runs := u.xvRuns w ins gens
      let entry : StageEntry := { core := coreOf w, stage := 4, pc := u.cs.pc }
      State.pendOn { u with stages := (stepsRun runs).map fun _ => entry } 4
        (.xv u.cur.2 u.cs.pc (xvPendOf ins gens u.cycle runs))

/-- A held XV runs again where its wave has come to, with the table generations that it has latched (R313). -/
def State.rerunXv (s : State) (w : Nat) : State :=
  let W := s.wave w
  match W.pend with
  | .xv x pc p => s.setWave w { W with pend := .xv x pc (xvPendOf p.ins p.gens s.cycle (s.xvRuns w p.ins p.gens)) }
  | _ => s

/-- XV, both steps (R147). -/
def execXv (p x y : VReg) (k : KReg) (s : State) : Out := xvOp s p x y k [0, 1]
/-- XV.S0: step 0 only. -/
def execXvS0 (p x y : VReg) (k : KReg) (s : State) : Out := xvOp s p x y k [0]
/-- XV.S1: step 1 only. -/
def execXvS1 (p x y : VReg) (k : KReg) (s : State) : Out := xvOp s p x y k [1]

/-- The stacks of an XV written at its retirement. -/
def Wave.putStacks (W : Wave) (p : XvPend) : Wave :=
  { W with
    ostacks := p.ostacks.foldl (fun m e => SMap.set zeros m e.1 e.2) W.ostacks
    depths := p.depths.foldl (fun m e => SMap.set (fun _ => 0) m e.1 e.2) W.depths
    pend := .none }

/-- Words written into the inactive generation of tables, in lane order (R159). -/
def Bank.putTables (b : Bank) (ws : List (Nat × Nat × W32)) : Bank :=
  ws.foldl (fun b e => b.setTable e.1 { b.table e.1 with
    loaded := true, words := SMap.set zeros (b.table e.1).words e.2.1 e.2.2 }) b

/-- XV retires: stacks, tables, then a trap for the lanes that failed (R147, R151), or the retirement of a wave whose flows are
over. -/
def retireXv (s : State) (w : Nat) : State :=
  match (s.wave w).pend with
  | .xv x pc p =>
    let s1 := s.setWave w ((s.wave w).putStacks p)
    let s2 := s1.setBank (bankOf w) ((s1.bank (bankOf w)).putTables p.tblw)
    let s3 := s2.countEvent (coreOf w) 5 (some (s.wave w).system)
    if p.fails = [] ∨ (s.wave w).noFlow = true then s3.endDying w
    else
      let find (i : Nat) : Cause × Nat := match p.fails.find? fun f => f.1 == i with | some f => f.2 | none => (.xvop, 0)
      s3.trapLanes w x (fun i => (find i).1) (laneMask fun i => p.fails.any fun f => f.1 == i) (fun i => (find i).2)
        (fun _ => 0) pc pc true
  | _ => s

/-- XV_RETIRE (R151). -/
def execXvRetire (w : Nat) (s : State) : Out := .next (retireXv s w)

/-! ### Stack instructions (R153) -/

/-- A stack instruction that fails in the lanes `bad` acts in none. -/
def xvsOp (s : State) (k : KReg) (bad : Wave → Nat → Bool) (cause : Cause) (f : State → Mask → State) : Out :=
  issue s { Info.vec 4 with feat := some 1, stages := [4] } fun u =>
    let m := u.active k
    let fails := laneMask fun i => m.getLsbD i && bad u.cw i
    if fails = 0 then (f u m).advance 4
    else u.trapLanes u.cur.1 u.cur.2 (fun _ => cause) fails (fun _ => 0) (fun _ => 0) u.cs.pc u.cs.pc false

/-- Change the stacks of the lanes of a mask. -/
def Wave.eachLane (W : Wave) (m : Mask) (f : Wave → Nat → Wave) : Wave :=
  laneList.foldl (fun W i => if m.getLsbD i then f W i else W) W

/-- The top entry of lane i. -/
def Wave.top (W : Wave) (i : Nat) : W32 := W.entry i (W.depth i - 1)

/-- XVPUSH (R153). -/
def execXvpush (a : VReg) (k : KReg) (s : State) : Out :=
  xvsOp s k (fun W i => W.depth i == 8) .xvovf fun u m =>
    u.setCw (u.cw.eachLane m fun W i => (W.setEntry i (W.depth i) (W.v a.toNat i)).setDepth i (W.depth i + 1))
/-- XVPOP (R153). -/
def execXvpop (d : VReg) (k : KReg) (s : State) : Out :=
  xvsOp s k (fun W i => W.depth i == 0) .xvund fun u m =>
    u.setCw (u.cw.eachLane m fun W i => (W.setV d.toNat i (W.top i)).setDepth i (W.depth i - 1))
/-- XVPEEK (R153). -/
def execXvpeek (d : VReg) (k : KReg) (s : State) : Out :=
  xvsOp s k (fun W i => W.depth i == 0) .xvund fun u m =>
    u.setCw (u.cw.eachLane m fun W i => W.setV d.toNat i (W.top i))
/-- XVCLR (R153). -/
def execXvclr (k : KReg) (s : State) : Out :=
  xvsOp s k (fun _ _ => false) .xvund fun u m =>
    u.setCw (u.cw.eachLane m fun W i => { W.setDepth i 0 with ostacks := SMap.clear W.ostacks (8 * i) 8 })

/-! ### Table instructions (R155–R158) -/

/-- The locations of the 257 quads of a table image in a scratchpad window, or a fault (R156). -/
def tableLocs (s : State) (w : Nat) (a : Nat) : Except Cause (List Loc) :=
  if a % 8 ≠ 0 then .error .malign
  else
    match s.teamOf w with
    | none => .error .spbound
    | some t =>
      if 0xFF00000000000000 ≤ a ∧ a + 2056 ≤ 0xFF00000000000000 + t.spSize then
        .ok ((List.range 257).map fun j => .share (bankOf w) (a - 0xFF00000000000000 + 8 * j))
      else if 0xFF10000000000000 ≤ a ∧ a + 2056 ≤ 0xFF10000000000000 + t.clSize ∧
          ((List.range 257).all fun j => s.clOpen t (a - 0xFF10000000000000 + 8 * j)) = true then
        .ok ((List.range 257).map fun j => t.clLoc (a - 0xFF10000000000000 + 8 * j))
      else .error .spbound

/-- TBLLD (R156): the words are read and written into the inactive generation when it completes. -/
def execTblld (t : TableId) (a : SReg) (s : State) : Out :=
  issue s { Info.mem 4 with feat := some 1, stages := [5, 7] } fun u =>
    match tableLocs u u.cur.1 (u.S a).toNat with
    | .error c => u.trapCur c (u.S a)
    | .ok locs =>
      let b := bankOf u.cur.1
      if locs.any fun l => u.poisonLoc l 8 then u.consume u.cur.1 u.cur.2 (instrTrap .poison (u.S a) u.cs.pc) else
      let words := locs.flatMap fun l =>
        let q := u.readLoc u.cur.1 l 8
        [BitVec.ofNat 32 q, BitVec.ofNat 32 (q / 2 ^ 32)]
      (u.setBank b { u.bank b with
        loads := (u.bank b).loads ++ [{ wave := u.cur.1, launch := u.launchKey u.cur.1, table := t.toNat, words := words }] }).advance 4

/-- The oldest load of a bank may write: no XV in flight has latched its generation (R156), nor is to write the table
before it (R159). -/
def State.loadReady (s : State) (b : Nat) : Bool :=
  match (s.bank b).loads with
  | [] => false
  | l :: _ => !(s.latched b l.table).contains (1 - ((s.bank b).table l.table).cur) && !s.tblwOpen b l.table

/-- A load completes: 514 words in the inactive generation, LOADED. -/
def completeLoad (s : State) (b : Nat) : State :=
  match (s.bank b).loads with
  | [] => s
  | l :: rest =>
    if !s.loadReady b then s
    else
      let B := s.bank b
      let t := B.table l.table
      let words := l.words.zipIdx.foldl (fun m e => SMap.set zeros m (1024 * (1 - t.cur) + e.2) e.1) t.words
      s.setBank b { (B.setTable l.table { t with loaded := true, words := words }) with loads := rest }

/-- TBLLD_COMPLETE (R156). -/
def execTblldComplete (bank : Nat) (s : State) : Out := .next (completeLoad s bank)

/-- Table instructions that change no memory enter the scalar stage. -/
def infoTbl : Info := { Info.scalar 4 with feat := some 1 }

/-- TBLSW (R157) waits for the loads of its table and for XVs in flight that write it. -/
def execTblsw (t : TableId) (s : State) : Out :=
  issue s infoTbl fun u =>
    let b := bankOf u.cur.1
    let B := u.bank b
    if u.loadOpen b t.toNat || u.tblwOpen b t.toNat then s
    else (u.gated.setBank b (B.setTable t.toNat { B.table t.toNat with cur := 1 - (B.table t.toNat).cur, loaded := false })).advance 4

/-- TBLGEN (R158) waits for the wave's own loads. -/
def execTblgen (d : SReg) (t : TableId) (s : State) : Out :=
  issue s infoTbl fun u =>
    let b := bankOf u.cur.1
    let B := u.bank b
    let T := B.table t.toNat
    if B.loads.any fun l => l.wave == u.cur.1 then s
    else
      let busy := (u.latched b t.toNat).contains (1 - T.cur)
      (u.setS d (BitVec.ofNat 64 (T.cur + (if T.loaded then 2 else 0) + (if busy then 4 else 0)))).advance 4

end Sys2Proof.Machine
end

