-- ==== Sys2Proof/Machine/Place.lean ====
section
/-! DEFINITION. Machine/Place.lean: bank shares and owners (R39, R42, R51, R238), what fits where, and the move of a team
from one bank to another (R245, R313). -/
namespace Sys2Proof.Machine

/-- Bytes of a bank's share (R39): SPLIT × 64 KiB in bank 0, the rest of the 512 KiB in bank 1. -/
def State.shareSize (s : State) (b : Nat) : Nat :=
  let sp := match s.partOfCore (coreOfBank b) with | some p => s.regBits (partOff p) 16 4 | none => 4
  if b % 2 = 0 then 0x10000 * sp else 0x80000 - 0x10000 * sp

/-- The footprint of a team (R18). -/
def Team.footprint (t : Team) : Nat := t.clBase + t.clPart

/-- The other bank of a core. -/
def otherBank (b : Nat) : Nat := if b % 2 = 0 then b + 1 else b - 1

/-- Whether two owners match: one that is absent matches either (R238). -/
def ownersMatch (a b : Option Nat) : Bool := a.isNone || b.isNone || a == b

/-- Nothing that a team which has retired had issued still reads or writes what a bank would pass to a VF: a bank does not
change its owner under such effects (R51; log 53). -/
def State.passable (s : State) (b vf : Nat) : Bool :=
  (s.bank b).owner == some vf ||
    (!(s.core (coreOfBank b)).queue.any (fun m => m.bank == b || (s.bank m.bank).team.isNone)
      && !s.xfers.any (fun x => bankOf x.wave == b || x.team.setBanks.contains b || x.receivers.contains b)
      && !s.waves.any fun e => e.2.gateHits (.share b 0) 0x80000)

/-- A free bank that may take a team of a VF (R238): its share, its core, and the ownership rule. -/
def State.fits (s : State) (b vf fp : Nat) : Bool :=
  let o := s.bank (otherBank b)
  s.bankFree b && s.passable b vf && decide (fp ≤ s.shareSize b)
    && (ownersMatch (s.bank b).owner o.owner == ownersMatch (some vf) o.owner || o.team.isNone)

/-- Whether a team of the VF in this bank sees the whole of each typed buffer (R42). -/
def State.wholeView (s : State) (b vf : Nat) : Bool := ownersMatch (some vf) (s.bank (otherBank b)).owner

/-- Who last saw a half of a core's typed buffers (R42). -/
def State.halfOwner (s : State) (core h : Nat) : Option Nat :=
  match (s.bank (2 * core)).owner, (s.bank (2 * core + 1)).owner with
  | some a, some b => if a = b ∨ h = 0 then some a else some b
  | some a, none => some a
  | none, o => o

/-- Zero halves of the typed buffers. -/
def Core.zeroHalf (c : Core) (h : Nat) : Core :=
  { c with
    wbuf := SMap.clear c.wbuf (0x20000 * h) 0x20000
    abuf := SMap.clear c.abuf (0x20000 * h) 0x20000
    cbuf := SMap.clear c.cbuf (0x20000 * h) 0x20000 }

/-- Clear the marks of halves of the typed buffers. -/
def State.clearHalf (s : State) (core h : Nat) : State :=
  ((s.clearMarks (Loc.wbuf core (0x20000 * h)).markKey 0x20000).clearMarks (Loc.abuf core (0x20000 * h)).markKey
    0x20000).clearMarks (Loc.cbuf core (0x20000 * h)).markKey 0x20000

/-- The registers of a bank's waves zeroed: register files, operand stacks, generator states (R51, R59). -/
def State.zeroRegs (s : State) (b : Nat) : State :=
  (List.range 8).foldl (fun t i => t.setWave (8 * b + i) { t.wave (8 * b + i) with
    sregs := [], kregs := [], vregs := [], ostacks := [], depths := [], gens := [], rndseed := 0 }) s

/-- A bank passes to a VF: storage that another owner has had is zeroed first (R51). -/
def State.giveBank (s : State) (b vf : Nat) : State :=
  let B := s.bank b
  if B.owner = some vf then s
  else
    let core := coreOfBank b
    let halves := (if s.wholeView b vf then [0, 1] else [b % 2]).filter fun h => s.halfOwner core h != some vf
    let s1 := (halves.foldl (fun t h => t.clearHalf core h) s).setCore core (halves.foldl Core.zeroHalf (s.core core))
    let s2 := (s1.clearMarks (Loc.share b 0).markKey 0x80000).setBank b { Bank.zero with owner := some vf, gated := B.gated, order := B.order }
    s2.zeroRegs b

/-- Records of the capsules that a bank's waves hold become adoptable (R214). -/
def State.stopCapsules (s : State) (b : Nat) : State :=
  (bankWaves b).foldl (fun t w => if (t.wave w).resident then t.markAdoptable w else t) s

/-- A bank's waves are restored: MWAITs wake (R172), and capsules are taken up again or displaced (R214) but for waves in
handler mode or parked for the service. -/
def State.resumeWaves (s : State) (b : Nat) : State :=
  (bankWaves b).foldl (fun t w =>
    let W := t.wave w
    if !W.resident then t
    else if W.handler || W.service.isSome then t.rearm w
    else (t.rearm w).resumeActive w) s

/-- The XVs that failed checks have held run again where a bank's waves have come to (R313). -/
def State.rerunXvs (s : State) (b : Nat) : State :=
  (bankWaves b).foldl (fun t w => match (t.wave w).pend with | .xv _ _ p => if p.held then t.rerunXv w else t | _ => t) s

/-- A wave's slots as they stop for a move: at chain heads, parked accesses cancelled (R36, R48), and with the generations that
have been found for AWWAITs (R327). -/
def State.stoppedWave (s : State) (w : Nat) : Wave :=
  let a (t : Slot) : Slot := t.keepFound (s.foundGen w .a)
  let b (t : Slot) : Slot := t.keepFound (s.foundGen w .b)
  { s.wave w with
    slotA := a (s.stopped w .a), slotB := b (s.stopped w .b), frozen := (s.wave w).frozen.map fun p => (a p.1, b p.2) }

/-- A matrix operation as another bank takes it on. -/
def MatrixOp.moveTo (m : MatrixOp) (b' : Nat) : MatrixOp :=
  { m with
    bank := b', wave := 8 * b' + waveNo m.wave, failed := false
    target := match m.target with | .inl (w, r) => .inl (8 * b' + waveNo w, r) | t => t }
/-- The matrix operations of a bank. -/
def Core.opsOf (c : Core) (b : Nat) : List MatrixOp := c.queue.filter fun m => m.bank == b
/-- The matrix order without a bank's operations. -/
def Core.dropOps (c : Core) (b : Nat) : Core := { c with queue := c.queue.filter fun m => !(m.bank == b) }
def State.addOps (s : State) (core : Nat) (ops : List MatrixOp) : State :=
  s.setCore core { s.core core with queue := (s.core core).queue ++ ops }
def State.dropOps (s : State) (b : Nat) : State := s.setCore (coreOfBank b) ((s.core (coreOfBank b)).dropOps b)
/-- No instance of a bank is under check. -/
def State.dropChecks (s : State) (b : Nat) : State :=
  let c := s.core (coreOfBank b)
  s.setCore (coreOfBank b) { c with checks := c.checks.filter fun k => bankOf k.wave != b }

/-- A hardware wave that its context has left; its registers keep what was there (R21). -/
def Wave.vacate (W : Wave) : Wave :=
  { Wave.idle with
    sregs := W.sregs, kregs := W.kregs, vregs := W.vregs, ostacks := W.ostacks, depths := W.depths, gens := W.gens
    rndseed := W.rndseed }

/-- A bank that its team has left. -/
def Bank.vacate (b : Bank) : Bank := { b with team := none, deque := [], rvs := [], loads := [], yields := [], waitQ := [] }

/-- Whether a transfer was started by a wave that is now in bank `b`. -/
def State.xferOf (s : State) (b : Nat) (x : Xfer) : Bool :=
  x.kind != .recv && bankOf x.wave == b && (match (s.bank b).team with | some t => t.launch == x.launch | none => false)

/-- Whether a transfer belongs to a bank: to a team that is or has been there (R197). -/
def Xfer.inBank (x : Xfer) (b : Nat) : Bool := bankOf x.wave == b

/-- Whether a core's matrix order is stopped at an operation that failed at step 0 (R313). -/
def Core.stuck (c : Core) : Bool := match c.queue with | m :: _ => m.failed | [] => false

/-- Whether an ICINV of a wave has issued and is not complete (R333). -/
def Wave.icinvOpen (W : Wave) : Bool :=
  let is (p : Park) : Bool := match p with | .op (.icinv ..) => true | _ => false
  is (W.opSlot .a).park || is (W.opSlot .b).park

/-- A wave has nothing outstanding but what a failed check holds for another core: an XV of a quarantined core, an MMAD
in a matrix order that has stopped. -/
def Wave.quiet (W : Wave) (quar stuck : Bool) : Bool :=
  W.gates == [] && !W.icinvOpen &&
    match W.pend with
    | .none => true
    | .xv _ _ p => quar && p.held
    | .mmad _ => stuck
    | _ => false

/-- A bank whose outstanding work is complete: no access, XV, table load, ICINV, matrix operation or transfer, and no
instance under check (R245, R248, R313, R333). On a quarantined core, a table load may wait for an XV that a failed check
holds. -/
def State.bankQuiet (s : State) (b : Nat) : Bool :=
  let core := coreOfBank b
  let c := s.core core
  let quar := s.quarantined core
  (bankWaves b).all (fun w => (s.wave w).quiet quar c.stuck) && ((s.bank b).loads == [] || quar && !s.loadReady b)
    && (quar || !c.checks.any fun k => bankOf k.wave == b && k.phase != .passed)
    && (c.stuck || !c.queue.any fun m => m.bank == b) && !s.xfers.any fun x => x.inBank b && !(c.stuck && decide (0 < x.cbufWait))

/-- What a slice of a map becomes in another map. -/
def SMap.copy (src : SMap Byte) (lo n : Nat) (dst : SMap Byte) (at_ : Nat) : SMap Byte :=
  SMap.unslice dst at_ n (SMap.slice src lo n)

/-- The parts of the typed buffers that a team saw, `size` bytes from `base`, into bank `b'`. -/
def State.copyBuffers (s : State) (b' : Nat) (size base : Nat) (from_ : Core) : State :=
  let core := coreOfBank b'
  let c := s.core core
  let base' := s.bufBase b'
  s.setCore core { c with
    wbuf := SMap.copy from_.wbuf base size c.wbuf base'
    abuf := SMap.copy from_.abuf base size c.abuf base'
    cbuf := SMap.copy from_.cbuf base size c.cbuf base' }

/-- The offsets in an image of a team's footprint and of its buffer parts (R245), with the bytes they stand for. -/
def State.imageParts (s : State) (b : Nat) (t : Team) (size : Nat) : List (Nat × Loc × Nat) :=
  let core := coreOfBank b
  let base := s.bufBase b
  [(0x60000, .share b 0, t.footprint), (0xC0000, .wbuf core base, size), (0xC0000 + size, .abuf core base, size),
    (0xC0000 + 2 * size, .cbuf core base, size)]
/-- The poisoned bytes of a team, as offsets in its image. -/
def State.teamMarks (s : State) (b : Nat) (t : Team) (size : Nat) : List Nat :=
  (s.imageParts b t size).flatMap fun e => (s.marksIn e.2.1.markKey e.2.2).map fun o => e.1 + o
/-- The marks of a team put back. -/
def State.putMarks (s : State) (b : Nat) (t : Team) (size : Nat) (marks : List Nat) : State :=
  let parts := s.imageParts b t size
  let s1 := parts.foldl (fun (u : State) e => u.clearMarks e.2.1.markKey e.2.2) s
  marks.foldl (fun (u : State) o =>
    match parts.find? fun e => decide (e.1 ≤ o) && decide (o < e.1 + e.2.2) with
    | some e => u.markPoison (e.2.1.markKey + (o - e.1)) 1
    | none => u) s1

/-- Names of a bank's waves and of the bank itself after a move. -/
def renameBank (b b' n : Nat) : Nat := if n = b then b' else n
def renameWave (b b' w : Nat) : Nat := if bankOf w = b then 8 * b' + waveNo w else w

/-- A table load of a moved bank. -/
def TableLoad.rename (b b' : Nat) (l : TableLoad) : TableLoad := { l with wave := renameWave b b' l.wave }

/-- Set lists after a move. -/
def Team.rename (u : Team) (b b' : Nat) : Team := { u with setBanks := u.setBanks.map (renameBank b b') }

/-- A location in the moved stripes (R41). -/
def Loc.rename (l : Loc) (b b' : Nat) : Loc :=
  match l with
  | .share c o => .share (renameBank b b' c) o
  | l => l
def Effect.rename (e : Effect) (b b' : Nat) : Effect :=
  match e with
  | .read es => .read (es.map fun e => { e with loc := e.loc.rename b b' })
  | .store es => .store (es.map fun e => { e with loc := e.loc.rename b b' })
  | .atomic op es => .atomic op (es.map fun e => { e with loc := e.loc.rename b b' })

/-- The designator of a bank (R244). -/
def designator (b : Nat) : Word := BitVec.ofNat 64 (coreOfBank b + b % 2 * 2 ^ 9)

/-- A pending swap, spill or migration of the moved bank acts on the bank that it has come to (R324). -/
def Park.rename (p : Park) (b b' : Nat) : Park :=
  let des (v : Word) : Word := if desBank v = b then designator b' else v
  match p with
  | .op (.banksw v) => .op (.banksw (des v))
  | .op (.spill v a) => .op (.spill (des v) a)
  | .op (.migr v v') => .op (.migr (des v) v')
  | p => p
def Slot.rename (t : Slot) (b b' : Nat) : Slot := { t with park := t.park.rename b b' }
def Wave.rename (W : Wave) (b b' : Nat) : Wave :=
  { W with
    slotA := W.slotA.rename b b', slotB := W.slotB.rename b b'
    frozen := W.frozen.map fun p => (p.1.rename b b', p.2.rename b b')
    gates := W.gates.map fun g => { g with effect := g.effect.rename b b' } }

/-- Whoever names the moved bank or its waves names the new ones (R41): set lists, accesses in the commit gate, parked
operations, waiters, service records, transfers. -/
def State.renameTeam (s : State) (t : Team) (b b' : Nat) : State :=
  { s with
    banks := s.banks.map fun e => (e.1, match e.2.team with
      | some u => if u.launch = t.launch then
          { e.2 with team := some (u.rename b b') } else e.2
      | none => e.2)
    waves := s.waves.map fun e => (e.1, e.2.rename b b')
    waiters := s.waiters.map fun e =>
      { e with
        wave := renameWave b b' e.wave
        line := if e.line.1 = 1 + b ∧ e.line.2 < (t.footprint + 127) / 128 then (1 + b', e.line.2) else e.line }
    parts := s.parts.map fun e => (e.1, { e.2 with
      ringWait := e.2.ringWait.map fun r => if r.ticket = 0 then { r with wave := renameWave b b' r.wave } else r })
    xfers := s.xfers.map fun x =>
      if x.launch = t.launch ∨ x.inBank b = true then
        { x with
          team := x.team.rename b b', wave := renameWave b b' x.wave, receivers := x.receivers.map (renameBank b b')
          chainDue := x.chainDue.map (renameBank b b') }
      else x }

/-- Write-outs of a moved bank that still wait for its matrix operations wait for the new core's order (R183, R313). -/
def State.rewait (s : State) (b b' : Nat) : State :=
  { s with xfers := s.xfers.map fun x =>
      if x.inBank b = true ∧ 0 < x.cbufWait then
        { x with cbufWait := (s.core (coreOfBank b')).queue.length + (((s.core (coreOfBank b)).queue.take x.cbufWait).filter
            fun m => m.bank == b).length }
      else x }

/-- MOVE a team from bank `b` to the free bank `b'` (R245, R313): its footprint, buffer parts, registers and bank state. -/
def State.moveTeam (s : State) (b b' : Nat) : State :=
  match (s.bank b).team with
  | none => s
  | some t =>
    let B := s.bank b
    let size := s.bufSize b
    let base := s.bufBase b
    let from_ := s.core (coreOfBank b)
    let marks := s.teamMarks b t size
    let moved := (List.range 8).map fun i => s.stoppedWave (8 * b + i)
    let s0 := (s.giveBank b' t.vf).copyBuffers b' size base from_
    let s1 := (((s0.rewait b b').dropOps b).dropChecks b).addOps (coreOfBank b') ((from_.opsOf b).map fun m => m.moveTo b')
    let B' := s1.bank b'
    let s2 := s1.setBank b' { B with
      owner := B'.owner, gated := B'.gated, waitQ := [], yields := [], loads := B.loads.map (TableLoad.rename b b'), share := SMap.copy B.share 0 t.footprint B'.share 0 }
    let s3 := s2.setBank b (s2.bank b).vacate
    let s4 := moved.zipIdx.foldl (fun u e =>
      (u.setWave (8 * b + e.2) e.1.vacate).setWave (8 * b' + e.2) e.1) s3
    ((s4.putMarks b' t size marks).renameTeam t b b').rerunXvs b'

/-- Whether a core holds another team of a team's cluster set (R19). -/
def State.setOn (s : State) (core : Nat) (t : Team) : Bool :=
  [2 * core, 2 * core + 1].any fun b => b != t.bank && s.holdsSet t b

end Sys2Proof.Machine
end

