-- ==== Sys2Proof/Machine/Xlat.lean ====
section
/-! DEFINITION. Machine/Xlat.lean: LANE (R280) and XLAT (R302–R304). -/
namespace Sys2Proof.Machine

/-! ### LANE (R280): every execution mask is ignored -/

/-- A lane number: bits 6:0. -/
def laneOf (v : Word) : Nat := v.toNat % 128
/-- The record of a lane at the last trap. -/
def State.laneRec (s : State) (v : Word) : LaneRec := SMap.get (fun _ => LaneRec.zero) s.cw.trap.lanes (laneOf v)

/-- LGET (R280). -/
def execLget (d : SReg) (v : VReg) (b : SReg) (s : State) : Out :=
  issue s (Info.scalar 4) fun u => (u.setS d ((u.cw.v v.toNat (laneOf (u.S b))).setWidth 64)).advance 4
/-- LPUT writes no latch (R280). -/
def execLput (v : VReg) (a b : SReg) (s : State) : Out :=
  issue s (Info.scalar 4) fun u => (u.setCw (u.cw.setV v.toNat (laneOf (u.S b)) ((u.S a).setWidth 32))).advance 4
/-- TLCAUSE (R280). -/
def execTlcause (d a : SReg) (s : State) : Out :=
  issue s (Info.scalar 4) fun u => (u.setS d ((u.laneRec (u.S a)).cause.setWidth 64)).advance 4
/-- TLADDR (R280). -/
def execTladdr (d a : SReg) (s : State) : Out :=
  issue s (Info.scalar 4) fun u => (u.setS d (u.laneRec (u.S a)).addr).advance 4
/-- TLSTEP (R280). -/
def execTlstep (d a : SReg) (s : State) : Out :=
  issue s (Info.scalar 4) fun u => (u.setS d ((u.laneRec (u.S a)).step.setWidth 64)).advance 4

/-! ### XLAT (R303) -/

/-- A level-S operation on the VF that S[sa] names: ILL for a nonzero reserved bit, PROT for a VF that is not enabled in
the issuing partition. -/
def xlatOp (s : State) (a : SReg) (k : State → Nat → Bool → State) : Out :=
  issue s { Info.scalar 4 with sLevel := true } fun u =>
    let v := (u.S a).toNat
    let vf := v % 256
    if 512 ≤ v then u.trapCur .ill 0
    else if 192 ≤ vf ∨ !u.vfEn vf ∨ u.vfPart vf ≠ u.partOf u.cur.1 then u.trapCur .prot (u.S a)
    else k u vf (v / 256 == 1)

/-- The issuing slot parks until its operation completes. -/
def State.parkOp (s : State) (o : SlotOp) : State := s.setCs { s.cs with park := .op o, chain := none }

/-- TLBINV (R303): all entries of a VF, which stands as 256 beside the VF's number, or those of an address. -/
def execTlbinv (a b : SReg) (s : State) : Out :=
  xlatOp s a fun u vf all => u.parkOp (.tlbinv (u.S b).toNat (vf + if all then 256 else 0))
/-- XLREPLAY (R303). -/
def execXlreplay (a : SReg) (s : State) : Out := xlatOp s a fun u vf _ => u.parkOp (.xlreplay vf)

/-- A record's 128 bits (R48). -/
def FaultRec.value (r : FaultRec) : Nat :=
  let bit (b : Bool) (n : Nat) : Nat := if b then 2 ^ n else 0
  r.vaddr.toNat + r.vf * 2 ^ 64 + bit r.rd 72 + bit r.wr 73 + bit r.at_ 74 + bit r.eng 75 + r.gsz * 2 ^ 76
    + r.wave * 2 ^ 80 + r.seq.toNat * 2 ^ 96

/-- FBPOP (R303): the oldest record, 0 in both registers where there is none. -/
def execFbpop (d a : SReg) (s : State) : Out :=
  xlatOp s a fun u vf _ =>
    let f := u.fbuf vf
    let v := match f.recs with | r :: _ => r.value | [] => 0
    (((u.setFbuf vf { f with recs := f.recs.drop 1 }).setS d (BitVec.ofNat 64 v)).setS (d + 1)
      (BitVec.ofNat 64 (v / 2 ^ 64))).advance 4

/-- FBSTAT (R303). -/
def execFbstat (d a : SReg) (s : State) : Out :=
  xlatOp s a fun u vf clear =>
    let f := u.fbuf vf
    let v := f.recs.length + (if f.dropped then 2 ^ 16 else 0) + f.nextSeq.toNat * 2 ^ 32
    ((u.setFbuf vf (if clear then { f with dropped := false } else f)).setS d (BitVec.ofNat 64 v)).advance 4

/-- Whether a held translation of a cluster and VF is of the VF, and translates the address. -/
def tlbHit (vf va : Nat) (all : Bool) (key : Nat) (e : Nat × Leaf) : Bool :=
  key % 192 == vf && (all || e.1 == va / 2 ^ e.2.bits)

/-- Drop held translations in every cluster (R46, R303). -/
def State.tlbInvalidate (s : State) (vf va : Nat) (all : Bool) : State :=
  { s with tlb := (s.tlb.map fun e => (e.1, e.2.filter fun l => !tlbHit vf va all e.1 l)).filter fun e => e.2 ≠ [] }

/-- Every parked access of a VF leaves its park list and is made again (R303). -/
def State.replay (s : State) (vf : Nat) : State :=
  let go (t : Slot) : Slot := match t.park with | .granule _ => { t with park := .none } | _ => t
  { s with
    waves := s.waves.map fun e =>
      if e.2.resident && s.vfOf e.1 == vf then (e.1, { e.2 with slotA := go e.2.slotA, slotB := go e.2.slotB }) else e
    xfers := s.xfers.map fun x => if x.vf = vf then { x with granule := none } else x }

/-- Accesses of a VF that have been translated and not performed: TLBINV completes after them (R303). -/
def State.accessOpen (s : State) (vf : Nat) : Bool :=
  s.waves.any fun e => e.2.resident && s.vfOf e.1 == vf &&
    (e.2.gates != [] || match e.2.pend with | .load .. => true | _ => false)

/-- An XLAT operation of a slot completes. -/
def xlatDone (s : State) (w : Nat) (x : SlotId) : State :=
  match ((s.wave w).opSlot x).park with
  | .op (.tlbinv va n) =>
    if s.accessOpen (n % 256) then s else (s.tlbInvalidate (n % 256) va (decide (256 ≤ n))).finishOp w x
  | .op (.xlreplay vf) => (s.replay vf).finishOp w x
  | _ => s

/-- XLAT_COMPLETE (R303). -/
def execXlatComplete (w : Nat) (x : SlotId) (s : State) : Out := .next (xlatDone s w x)

end Sys2Proof.Machine
end

