-- ==== Sys2Proof/Machine/Image.lean ====
section
/-! DEFINITION. Machine/Image.lean: the spill image of a team as its bytes (R245). How the header is laid out is the
model's choice (log 15): numbers, each as a byte that says how many bytes follow and those bytes; then the tables' words
and the weight set. -/
namespace Sys2Proof.Machine

/-! ### Numbers -/

/-- A number of the header, and the numbers that bytes hold. -/
def numBytes (v : Nat) : List Byte :=
  let n := Nat.log2 v / 8 + 1
  BitVec.ofNat 8 n :: leBytes n v
def bytesNums : Nat → List Byte → List Nat
  | 0, _ => []
  | _ + 1, [] => []
  | n + 1, k :: bs => leValue (bs.take k.toNat) :: bytesNums n (bs.drop k.toNat)

/-- A reader of numbers. -/
abbrev Rd (α : Type) := StateM (List Nat) α
def Rd.nat : Rd Nat := fun l => (l.headD 0, l.tail)
def Rd.bits (n : Nat) : Rd (BitVec n) := do return BitVec.ofNat n (← Rd.nat)
def Rd.bool : Rd Bool := do return (← Rd.nat) == 1
def Rd.times {α : Type} (r : Rd α) : Nat → Rd (List α)
  | 0 => return []
  | n + 1 => do
    let a ← r
    let as ← Rd.times r n
    return a :: as
def Rd.list {α : Type} (r : Rd α) : Rd (List α) := do r.times (← Rd.nat)
def Rd.opt {α : Type} (r : Rd α) : Rd (Option α) := do
  if (← Rd.nat) = 0 then return none else return some (← r)

def boolNum (b : Bool) : Nat := if b then 1 else 0
def listNums {α : Type} (f : α → List Nat) (l : List α) : List Nat := l.length :: l.flatMap f
def optNums {α : Type} (f : α → List Nat) : Option α → List Nat
  | none => [0]
  | some a => 1 :: f a
/-- A vector or a word as one number. -/
def bitNums {n : Nat} (v : BitVec n) : List Nat := [v.toNat]

/-! ### Slots -/

def slotNum : SlotId → Nat
  | .a => 0
  | .b => 1
def Rd.slotId : Rd SlotId := do return if (← Rd.nat) = 1 then .b else .a

def SlotOp.nums : SlotOp → List Nat
  | .tlbinv va n => [0, va, n]
  | .xlreplay vf => [1, vf]
  | .banksw a => [2, a.toNat]
  | .spill a b => [3, a.toNat, b.toNat]
  | .fill a b => [4, a.toNat, b.toNat]
  | .migr a b => [5, a.toNat, b.toNat]
  | .icinv scope core va n => [6, scope.code.toNat, core, va, n]
def Rd.slotOp : Rd SlotOp := do
  match ← Rd.nat with
  | 0 => return .tlbinv (← Rd.nat) (← Rd.nat)
  | 1 => return .xlreplay (← Rd.nat)
  | 2 => return .banksw (← Rd.bits 64)
  | 3 => return .spill (← Rd.bits 64) (← Rd.bits 64)
  | 4 => return .fill (← Rd.bits 64) (← Rd.bits 64)
  | 5 => return .migr (← Rd.bits 64) (← Rd.bits 64)
  | _ => return .icinv ((scopeOf (← Rd.bits 3)).getD .wave) (← Rd.nat) (← Rd.nat) (← Rd.nat)

/-- A slot that has stopped is parked on no granule. -/
def Park.nums : Park → List Nat
  | .none | .granule _ => [0]
  | .mwait t len addr wide deadline => [1, t.toNat, len, addr.toNat, boolNum wide] ++ optNums (fun n => [n]) deadline
  | .barwait rv gen => [2, rv, gen.toNat]
  | .awwait addr gen d found => [3, addr.toNat, gen.toNat, d.toNat] ++ optNums bitNums found
  | .op o => 4 :: o.nums
def Rd.park : Rd Park := do
  match ← Rd.nat with
  | 0 => return .none
  | 1 => return .mwait (← Rd.bits 6) (← Rd.nat) (← Rd.bits 64) (← Rd.bool) (← Rd.opt Rd.nat)
  | 2 => return .barwait (← Rd.nat) (← Rd.bits 32)
  | 3 => return .awwait (← Rd.bits 64) (← Rd.bits 32) (← Rd.bits 6) (← Rd.opt (Rd.bits 32))
  | _ => return .op (← Rd.slotOp)

/-- A slot that has stopped stands in no chain. -/
def Slot.nums (t : Slot) : List Nat :=
  [boolNum t.live, t.pc.toNat, t.mask.toNat, t.depth.toNat, boolNum t.waiting] ++ t.park.nums
    ++ optNums (fun p => [p.1.toNat, p.2.toNat]) t.xvres
def Rd.slot : Rd Slot := do
  let live ← Rd.bool
  let pc ← Rd.bits 64
  let mask ← Rd.bits 128
  let depth ← Rd.bits 8
  let waiting ← Rd.bool
  let park ← Rd.park
  let xvres ← Rd.opt do return (← Rd.bits 128, ← Rd.bits 128)
  return { live, pc, mask, depth, waiting, park, chain := none, latches := [], xvres }

/-! ### Waves -/

def TrapRegs.nums (r : TrapRegs) : List Nat :=
  [r.tpc.toNat, r.tcause.toNat, r.taddr.toNat, r.tinfo.toNat, r.tmask.toNat, r.tlane.toNat, r.tchain.toNat, r.tslot.toNat,
   r.thndl.toNat, r.tpc2.toNat, r.tnext.toNat]
/-- The per-lane records stand in the wave's part. -/
def Rd.trapRegs : Rd TrapRegs := do
  let tpc ← Rd.bits 64
  let tcause ← Rd.bits 8
  let taddr ← Rd.bits 64
  let tinfo ← Rd.bits 12
  let tmask ← Rd.bits 128
  let tlane ← Rd.bits 8
  let tchain ← Rd.bits 64
  let tslot ← Rd.bits 32
  let thndl ← Rd.bits 64
  let tpc2 ← Rd.bits 64
  let tnext ← Rd.bits 64
  return { tpc, tcause, taddr, tinfo, tmask, tlane, tchain, tslot, thndl, tpc2, tnext, lanes := [] }

/-- A buffered store lies in physical memory (R211). -/
def StoreElem.nums (e : StoreElem) : List Nat :=
  [e.addr.toNat, match e.loc with | .phys a => a | _ => 0, e.size, e.value.toNat, boolNum e.norep]
def Rd.storeElem : Rd StoreElem := do
  let addr ← Rd.bits 64
  let a ← Rd.nat
  let size ← Rd.nat
  let value ← Rd.bits 64
  let norep ← Rd.bool
  return { addr, loc := .phys a, size, value, norep }

def Capsule.nums (c : Capsule) : List Nat :=
  [boolNum c.adopter, slotNum c.x, c.record.toNat, c.enterPc.toNat, c.sd.toNat, c.displaced.toNat, c.holder.toNat, c.seq.toNat]
    ++ listNums bitNums c.saved ++ [c.instrs, c.ssts] ++ listNums StoreElem.nums c.buffer ++ [boolNum c.committed]
def Rd.capsule : Rd Capsule := do
  let adopter ← Rd.bool
  let x ← Rd.slotId
  let record ← Rd.bits 64
  let enterPc ← Rd.bits 64
  let sd ← Rd.bits 6
  let displaced ← Rd.bits 64
  let holder ← Rd.bits 40
  let seq ← Rd.bits 16
  let saved ← Rd.list (Rd.bits 64)
  let instrs ← Rd.nat
  let ssts ← Rd.nat
  let buffer ← Rd.list Rd.storeElem
  let committed ← Rd.bool
  return { adopter, x, record, enterPc, sd, displaced, holder, seq, saved, instrs, ssts, buffer, committed }

/-- The lanes of an XV that run a step. -/
def XvIns.lanesOf (i : XvIns) (step : Nat) : Mask := laneMask fun n => i.lanes.any fun l => l.1 == n && l.2.contains step
def xvLaneList (zero one : Mask) : List (Nat × List Nat) :=
  (laneList.filter fun i => (zero ||| one).getLsbD i).map fun i =>
    (i, (if zero.getLsbD i then [0] else []) ++ (if one.getLsbD i then [1] else []))

/-- What a saved wave has outstanding: an XV that a failed check holds for another core, or an MMAD (R313). -/
def Pend.nums : Pend → List Nat
  | .xv x pc p => [1, slotNum x, pc.toNat, p.ins.p.toNat, p.ins.x.toNat, p.ins.y.toNat, (p.ins.lanesOf 0).toNat,
      (p.ins.lanesOf 1).toNat] ++ listNums (fun n => [n]) p.gens
  | .mmad x => [2, slotNum x]
  | _ => [0]
/-- The XV runs again where its wave has come to. -/
def Rd.pend : Rd Pend := do
  match ← Rd.nat with
  | 0 => return .none
  | 1 => do
    let x ← Rd.slotId
    let pc ← Rd.bits 64
    let p ← Rd.bits 6
    let a ← Rd.bits 6
    let b ← Rd.bits 6
    let zero ← Rd.bits 128
    let one ← Rd.bits 128
    let gens ← Rd.list Rd.nat
    return .xv x pc { ins := { p := p, x := a, y := b, lanes := xvLaneList zero one }, ostacks := [], depths := [], tblw := []
                      fails := [], gens, due := 0, held := true }
  | _ => return .mmad (← Rd.slotId)

/-- A tenant cause by its code. -/
def causeOf (c : BitVec 8) : Cause :=
  ([Cause.ill, .priv, .miss, .fmask, .latch, .xvop, .xvpriv, .xvund, .xvovf, .malign, .spbound, .bufbound, .prot, .xlate,
    .poison, .caplim, .capill, .caprec, .ovftrap, .divstk, .timing, .quar, .swtrap, .machine].find? fun e =>
      e.code == c).getD .machine

def SyncRec.nums (e : SyncRec) : List Nat := [e.place, e.mask.toNat, e.pc.toNat, e.rv, e.gen.toNat]
def Rd.syncRec : Rd SyncRec := do
  let place ← Rd.nat
  let mask ← Rd.bits 128
  let pc ← Rd.bits 64
  let rv ← Rd.nat
  let gen ← Rd.bits 32
  return { place, mask, pc, rv, gen }

def Wave.nums (W : Wave) : List Nat :=
  [boolNum W.resident, W.rndseed.toNat, slotNum W.last, W.liveLanes.toNat, W.dsp.toNat, W.dslim.toNat, W.entries,
   boolNum W.system, boolNum W.handler, W.adopts.toNat, W.mwtimeo.toNat] ++ W.slotA.nums ++ W.slotB.nums ++ W.trap.nums
    ++ optNums (fun p => p.1.nums ++ p.2.nums) W.frozen
    ++ optNums (fun v => [boolNum v.nested, boolNum v.timing]) W.service
    ++ optNums (fun f => [slotNum f.x, f.cause.code.toNat, f.addr.toNat]) W.heldFault
    ++ optNums Capsule.nums W.capsule
    ++ listNums SyncRec.nums W.syncs ++ W.pend.nums
def Rd.wave : Rd Wave := do
  let resident ← Rd.bool
  let rndseed ← Rd.bits 32
  let last ← Rd.slotId
  let liveLanes ← Rd.bits 128
  let dsp ← Rd.bits 64
  let dslim ← Rd.bits 64
  let entries ← Rd.nat
  let system ← Rd.bool
  let handler ← Rd.bool
  let adopts ← Rd.bits 32
  let mwtimeo ← Rd.bits 32
  let slotA ← Rd.slot
  let slotB ← Rd.slot
  let trap ← Rd.trapRegs
  let frozen ← Rd.opt do return (← Rd.slot, ← Rd.slot)
  let service ← Rd.opt do
    let nested ← Rd.bool
    return { nested, timing := ← Rd.bool }
  let heldFault ← Rd.opt do
    let x ← Rd.slotId
    let c ← Rd.bits 8
    return { x, cause := causeOf c, addr := ← Rd.bits 64 }
  let capsule ← Rd.opt Rd.capsule
  let syncs ← Rd.list Rd.syncRec
  let pend ← Rd.pend
  return { Wave.idle with
    resident, rndseed, last, liveLanes, dsp, dslim, entries, system, handler, adopts, mwtimeo, slotA, slotB, trap, frozen
    service, heldFault, capsule, syncs, pend }

/-! ### The header -/

def Rv.nums (r : Rv) : List Nat := [boolNum r.init, r.n, r.exp, r.arr, r.memb.toNat, r.gen.toNat, r.who.toNat]
def Rd.rv : Rd Rv := do
  let init ← Rd.bool
  let n ← Rd.nat
  let exp ← Rd.nat
  let arr ← Rd.nat
  let memb ← Rd.bits 8
  let gen ← Rd.bits 32
  let who ← Rd.bits 8
  return { init, n, exp, arr, memb, gen, who }

def Team.nums (t : Team) : List Nat :=
  [t.launch, t.vf, t.teamId, t.setIx] ++ listNums (fun n => [n]) t.setBanks
    ++ [t.waves, t.spSize, t.clPart, t.retired.toNat, boolNum t.sampled, boolNum t.rerun, t.span]
def Rd.team : Rd Team := do
  let launch ← Rd.nat
  let vf ← Rd.nat
  let teamId ← Rd.nat
  let setIx ← Rd.nat
  let setBanks ← Rd.list Rd.nat
  let waves ← Rd.nat
  let spSize ← Rd.nat
  let clPart ← Rd.nat
  let retired ← Rd.bits 8
  let sampled ← Rd.bool
  let rerun ← Rd.bool
  let span ← Rd.nat
  return { launch, vf, teamId, setIx, setBanks, waves, spSize, clPart, retired, sampled, rerun, span }

/-- What an image's first number is. -/
def imageMagic : Nat := 0x3958564C4C495053

/-- The numbers of the header. -/
def SavedTeam.nums (v : SavedTeam) : List Nat :=
  [imageMagic, v.view, v.rollbacks] ++ v.team.nums
    ++ (List.range 24).flatMap (fun n => (v.bank.rv n).nums)
    ++ listNums bitNums v.bank.deque
    ++ (List.range 4).flatMap (fun t => [(v.bank.table t).cur, boolNum (v.bank.table t).loaded])
    ++ [v.bank.weights.fmt.code.toNat]
    ++ listNums Wave.nums v.waves

/-- The bytes of the header's numbers, of its tables, of its weight set. -/
def headEnd : Nat := 0x3F00
def tablesEnd : Nat := headEnd + 8 * 514 * 4
/-- Word `k` of the tables in the header: table, generation, word. -/
def tableKey (k : Nat) : Nat × Nat := (k / 1028, 1024 * (k / 514 % 2) + k % 514)

/-- A byte of a word store. -/
def wordByte {n : Nat} (m : SMap (BitVec n)) (o : Nat) : Byte :=
  BitVec.ofNat 8 ((SMap.get zeros m (o / (n / 8))).toNat / 256 ^ (o % (n / 8)))
/-- A word store from its bytes, keys 0 to `count − 1`. -/
def wordsFrom (n count : Nat) (rd : Nat → Byte) : SMap (BitVec n) :=
  (List.range count).foldl (fun m k =>
    SMap.set zeros m k (BitVec.ofNat n (leValue ((List.range (n / 8)).map fun i => rd (n / 8 * k + i))))) []
/-- A byte store from its bytes. -/
def bytesFrom (count : Nat) (rd : Nat → Byte) : SMap Byte :=
  (List.range count).foldl (fun m k => SMap.set zeros m k (rd k)) []

/-- A byte of the header. -/
def SavedTeam.headByte (v : SavedTeam) (o : Nat) : Byte :=
  if o < headEnd then (v.nums.flatMap numBytes).getD o 0
  else if o < tablesEnd then
    let e := tableKey ((o - headEnd) / 4)
    BitVec.ofNat 8 ((SMap.get zeros (v.bank.table e.1).words e.2).toNat / 256 ^ ((o - headEnd) % 4))
  else if 0x8000 ≤ o then SMap.get zeros v.bank.weights.bytes (o - 0x8000)
  else 0

/-- The words of a table in the header. -/
def tableFrom (rd : Nat → Byte) (t : Nat) : SMap W32 :=
  (List.range 1028).foldl (fun m i =>
    SMap.set zeros m (tableKey i).2 (BitVec.ofNat 32 (leValue ((List.range 4).map fun j => rd (headEnd + 4 * (1028 * t + i) + j))))) []

/-- The header of an image, if it is one: but for the tables' words and the weights' bytes. -/
def Rd.saved : Rd (Option SavedTeam) := do
  if (← Rd.nat) ≠ imageMagic then return none
  else
    let view ← Rd.nat
    let rollbacks ← Rd.nat
    let team ← Rd.team
    let rvs ← Rd.rv.times 24
    let deque ← Rd.list (Rd.bits 64)
    let tables ← Rd.times (do return (← Rd.nat, ← Rd.bool)) 4
    let fmt ← Rd.bits 4
    let waves ← Rd.list Rd.wave
    let bank := rvs.zipIdx.foldl (fun b e => b.setRv e.2 e.1) { Bank.zero with deque }
    let bank := tables.zipIdx.foldl (fun b e => b.setTable e.2 { cur := e.1.1, loaded := e.1.2, words := [] }) bank
    return some {
      team, view, rollbacks, waves, wbuf := [], abuf := [], cbuf := [], ops := [], marks := []
      bank := { bank with weights := { fmt := (arrayFmtOf fmt).getD .f16, bytes := [] } } }

/-! ### The image -/

/-- Bytes of an area. -/
def areaSize : Nat := 0x180000

/-- A byte of a wave's part of an image: the layout of its context window, with operand-stack depths and per-lane trap
records behind its generator states. -/
def Wave.imageByte (W : Wave) (o : Nat) : Byte :=
  let r := SMap.get (fun _ => LaneRec.zero) W.trap.lanes ((o - 0x9280) / 16)
  if o < 0x7800 then wordByte W.vregs o
  else if o < 0x7A00 then wordByte W.sregs (o - 0x7800)
  else if o < 0x7B00 then wordByte W.kregs (o - 0x7A00)
  else if 0x8000 ≤ o ∧ o < 0x9000 then wordByte W.ostacks (o - 0x8000)
  else if 0x9000 ≤ o ∧ o < 0x9200 then wordByte W.gens (o - 0x9000)
  else if 0x9200 ≤ o ∧ o < 0x9280 then BitVec.ofNat 8 (W.depth (o - 0x9200))
  else if 0x9280 ≤ o ∧ o < 0x9A80 then
    BitVec.ofNat 8 ((r.cause.toNat + r.step.toNat * 2 ^ 8 + r.addr.toNat * 2 ^ 64) / 256 ^ (o % 16))
  else 0
/-- A wave with the registers of its part of an image. -/
def Wave.fromImage (W : Wave) (rd : Nat → Byte) : Wave :=
  let le (o n : Nat) : Nat := leValue ((List.range n).map fun i => rd (o + i))
  { W with
    vregs := wordsFrom 32 7680 rd
    sregs := SMap.set zeros (wordsFrom 64 64 fun o => rd (0x7800 + o)) 0 0
    kregs := SMap.set zeros (wordsFrom 128 16 fun o => rd (0x7A00 + o)) 0 0
    ostacks := wordsFrom 32 1024 fun o => rd (0x8000 + o)
    gens := wordsFrom 32 128 fun o => rd (0x9000 + o)
    depths := laneList.foldl (fun m i => SMap.set (fun _ => 0) m i (min 8 (rd (0x9200 + i)).toNat)) []
    trap := { W.trap with lanes := laneList.foldl (fun m i => SMap.set (fun _ => LaneRec.zero) m i
      { cause := rd (0x9280 + 16 * i), step := rd (0x9281 + 16 * i), addr := BitVec.ofNat 64 (le (0x9288 + 16 * i) 8) }) [] } }

/-- A byte of an image (R245). -/
def SavedTeam.imageByte (v : SavedTeam) (o : Nat) : Byte :=
  if o < 0x10000 then v.headByte o
  else if o < 0x60000 then (v.waves.getD ((o - 0x10000) / 0xA000) Wave.idle).imageByte ((o - 0x10000) % 0xA000)
  else if o < 0xC0000 then SMap.get zeros v.bank.share (o - 0x60000)
  else if o < 0xC0000 + v.view then SMap.get zeros v.wbuf (o - 0xC0000)
  else if o < 0xC0000 + 2 * v.view then SMap.get zeros v.abuf (o - 0xC0000 - v.view)
  else if o < 0xC0000 + 3 * v.view then SMap.get zeros v.cbuf (o - 0xC0000 - 2 * v.view)
  else 0

/-- The header that an image's bytes hold. -/
def headOf (rd : Nat → Byte) : Option SavedTeam :=
  (Rd.saved.run (bytesNums headEnd ((List.range headEnd).map rd))).1

/-- A saved team from its header with the rest of its image's bytes. -/
def SavedTeam.fromImage (v : SavedTeam) (rd : Nat → Byte) : SavedTeam :=
  let bank := (List.range 4).foldl (fun b t => b.setTable t { b.table t with words := tableFrom rd t }) v.bank
  { v with
    bank := { bank with
      share := bytesFrom v.team.footprint fun o => rd (0x60000 + o)
      weights := { bank.weights with bytes := bytesFrom 0x8000 fun o => rd (0x8000 + o) } }
    waves := v.waves.zipIdx.map fun e => e.1.fromImage fun o => rd (0x10000 + 0xA000 * e.2 + o)
    wbuf := bytesFrom v.view fun o => rd (0xC0000 + o)
    abuf := bytesFrom v.view fun o => rd (0xC0000 + v.view + o)
    cbuf := bytesFrom v.view fun o => rd (0xC0000 + 2 * v.view + o) }

/-- What the machine itself keeps of a team whose image stands in memory: its name, its matrix operations, its table loads that
wait for an XV which a failed check holds (R313), and the holder ids of its waves (R205). -/
def SavedTeam.strip (v : SavedTeam) : SavedTeam :=
  { v with
    bank := { Bank.zero with loads := v.bank.loads }, waves := v.waves.map fun W => { Wave.idle with capsule := W.capsule }
    wbuf := [], abuf := [], cbuf := [], marks := [] }

end Sys2Proof.Machine
end

