-- ==== Sys2Proof/Machine/Ctx.lean ====
section
/-! DEFINITION. Machine/Ctx.lean: bank swaps (R243), CTX (R244, R245), partition swaps (R246, R264). -/
namespace Sys2Proof.Machine

/-! ### Bank swaps (R243) -/

/-- The cores that swap together: those that teams of sets tie to a core (R32, R243). -/
def State.swapGroup (s : State) (core : Nat) : List Nat :=
  let grow (cs : List Nat) : List Nat :=
    (cs ++ cs.flatMap fun c => [2 * c, 2 * c + 1].flatMap fun b =>
      (s.setOf b).map coreOfBank).eraseDups
  (List.range 8).foldl (fun cs _ => grow cs) [core]

/-- The banks that a swap of a core to bank `n` makes active: those of the set of the team there. -/
def State.swapTargets (s : State) (core n : Nat) : List Nat :=
  match s.setOf (2 * core + n) with
  | [] => [2 * core + n]
  | bs => bs

/-- Banks that leave issue while `bs` become active: the active banks of their cores, those of the same sets, and those that
leave for the sets which come in with them. -/
def State.swapOut (s : State) (bs : List Nat) : List Nat :=
  let active (b : Nat) : Bool := (s.core (coreOfBank b)).active == b % 2
  let first := (bs.map otherBank).filter active
  let leaving (b : Nat) : List Nat := (s.setOf b).filter fun e => active e && !bs.contains e
  let entering (b : Nat) : List Nat := ((s.setOf (otherBank b)).map otherBank).filter active
  let grow (l : List Nat) : List Nat := (l ++ l.flatMap fun b => leaving b ++ entering b).eraseDups
  (List.range 8).foldl (fun l _ => grow l) first

/-- A swap begins on every core that it concerns: those that a cluster set ties together swap in the same cycle. -/
def State.startSwap (s : State) (core n : Nat) : State :=
  (s.swapOut (s.swapTargets core n)).foldl (fun t b =>
    t.setCore (coreOfBank b) { t.core (coreOfBank b) with swapTo := some (1 - b % 2), swapAt := s.cycle }) s

/-- Whether the open chains of a bank go on to their ends, were it active: no move, no partition swap (R36, R246, R264). A GATE
lets them end (R29; log 64). -/
def State.bankLive (s : State) (b : Nat) : Bool :=
  !s.moving b && (match (s.bank b).team with | some t => s.partState (s.vfPart t.vf) == 0 | none => false)

/-- Whether a bank may issue at all, were it active: no GATE, no move, no partition swap (R244, R246, R264). -/
def State.bankOpen (s : State) (b : Nat) : Bool := !(s.bank b).gated && s.bankLive b

/-- Whether the team of a bank issues: every bank that holds its set is active and open, but for one whose core is
quarantined (R32). -/
def State.ganged (s : State) (b : Nat) : Bool :=
  (s.setOf b).all fun e =>
    s.quarantined (coreOfBank e) || ((s.core (coreOfBank e)).active == e % 2 && s.bankOpen e)

/-- Whether every chain of a bank has ended and every XV has retired (R29, R152); in a bank that is being moved or saved no chain
goes on. -/
def State.bankStill (s : State) (b : Nat) : Bool :=
  (bankWaves b).all fun w => (!s.bankLive b || (!s.inChain w .a && !s.inChain w .b)) && (match (s.wave w).pend with | .xv .. => false | _ => true)

/-- The cores of a group that have a swap to make; a quarantined one makes none (R324). -/
def State.swapping (s : State) (core : Nat) : List Nat :=
  (s.swapGroup core).filter fun c => (s.core c).swapTo.isSome && !s.quarantined c

/-- Whether the waves of a bank that are in capsule mode have their loads (R214). -/
def State.capsulesIdle (s : State) (b : Nat) : Bool :=
  (bankWaves b).all fun w => (s.wave w).capsule.isNone || (s.wave w).pend == .none

/-- Whether a swap that has begun may gate the active banks of its group: chains and XVs have ended (R243), and no core of
the group has an instance under check (R248). -/
def State.swapReady (s : State) (core : Nat) : Bool :=
  (s.core core).swapTo.isSome && decide ((s.core core).active < 2) && !s.quarantined core
    && (s.swapping core).all fun c =>
      s.bankStill (2 * c + (s.core c).active) && s.capsulesIdle (2 * c + (s.core c).active) && (s.core c).checks.all fun k => k.phase == .passed

/-- A bank's waves as they leave issue: parked accesses are cancelled, and their instructions issue again whole (R48); latches are
invalid, and a slot that stands in a chain resumes at its head (R36). -/
def State.stopWaves (s : State) (b : Nat) : State :=
  (bankWaves b).foldl (fun t w => t.setWave w (t.stoppedWave w)) s

/-- Issue on the active banks of the group is gated. -/
def gateSwap (s : State) (core : Nat) : State :=
  if !s.swapReady core then s
  else (s.swapping core).foldl (fun t c =>
    let b := 2 * c + (t.core c).active
    let u := (t.stopCapsules b).stopWaves b
    u.setCore c { u.core c with active := 2 }) s

/-- The other banks are ungated 32 cycles after the swap began: their waves resume. -/
def ungateSwap (s : State) (core : Nat) : State :=
  if (s.core core).active ≠ 2 ∨ s.cycle < (s.core core).swapAt + 32 then s
  else ((s.swapping core).filter fun c => (s.core c).active == 2).foldl (fun t c =>
    let C := t.core c
    match C.swapTo with
    | some n => (t.setCore c { C with active := n, swapTo := none, since := t.cycle - t.withheld }).resumeWaves (2 * c + n)
    | none => t) s

/-- BANK_SWAP (R243). -/
def execBankSwap (core : Nat) (s : State) : Out := .next (gateSwap s core)
/-- BANK_UNGATE (R243). -/
def execBankUngate (core : Nat) (s : State) : Out := .next (ungateSwap s core)

/-! ### Designators and checks (R244, R297) -/

/-- The core lies in the issuing partition. -/
def State.ownCore (s : State) (core : Nat) : Bool := s.coreIn core (s.partOf s.cur.1)

def infoCtx : Info := { Info.scalar 4 with sLevel := true }

/-- BANKSW (R244): no effect if the bank is active already; a swap that has begun goes on first. -/
def execBanksw (a : SReg) (s : State) : Out :=
  issue s infoCtx fun u =>
    let v := u.S a
    if 2 ^ 10 ≤ v.toNat then u.trapCur .ill 0
    else if !u.ownCore (desCore v) then u.trapCur .prot v
    else if (u.core (desCore v)).active = desBank v % 2 then u.advance 4
    else if (u.core (desCore v)).active < 2 ∧ (u.core (desCore v)).swapTo.isNone = true then
      (u.startSwap (desCore v) (desBank v % 2)).parkOp (.banksw v)
    else u.parkOp (.banksw v)

/-- GATE (R244). -/
def execGate (a : SReg) (s : State) : Out :=
  issue s infoCtx fun u =>
    let v := u.S a
    if 2 ^ 11 ≤ v.toNat then u.trapCur .ill 0
    else if !u.ownCore (desCore v) then u.trapCur .prot v
    else (u.setBank (desBank v) { u.bank (desBank v) with gated := v.getLsbD 10 }).advance 4

/-- SPILL (R244, R245): the set's capsules become adoptable, and the operation waits; nothing to do for a bank without a
team. -/
def execSpill (a b : SReg) (s : State) : Out :=
  issue s infoCtx fun u =>
    let v := u.S a
    if 2 ^ 10 ≤ v.toNat then u.trapCur .ill 0
    else if !u.ownCore (desCore v) then u.trapCur .prot v
    else if (u.S b).toNat % 0x10000 ≠ 0 then u.trapCur .malign (u.S b)
    else if u.setOf (desBank v) = [] then u.advance 4
    else ((u.setOf (desBank v)).foldl State.stopCapsules u).parkOp (.spill v (u.S b))

/-- FILL (R244, R245). -/
def execFill (a b : SReg) (s : State) : Out :=
  issue s infoCtx fun u =>
    let v := u.S a
    if 2 ^ 10 ≤ v.toNat ∨ !u.bankFree (desBank v) then u.trapCur .ill 0
    else if !u.ownCore (desCore v) then u.trapCur .prot v
    else if (u.S b).toNat % 0x10000 ≠ 0 then u.trapCur .malign (u.S b)
    else u.parkOp (.fill v (u.S b))

/-- Whether a team may come to bank `b'`, free but for bank `b` (R238, R244): the share, the view, and no other team's
view changed. -/
def State.mayTake (s : State) (b' : Nat) (vf fp view : Nat) : Bool :=
  let o := s.bank (otherBank b')
  s.bankFree b' && s.passable b' vf && decide (fp ≤ s.shareSize b') && decide (view ≤ if s.wholeView b' vf then 0x40000 else 0x20000)
    && (ownersMatch (s.bank b').owner o.owner == ownersMatch (some vf) o.owner || o.team.isNone)

/-- Whether MIGR's banks fit each other; a set keeps its teams on distinct cores (R19). A source without a team fits every free
bank (log 59). -/
def State.migrOk (s : State) (b b' : Nat) : Bool :=
  match (s.bank b).team with
  | none => s.bankFree b'
  | some t => s.mayTake b' t.vf t.footprint (s.bufSize b) && !s.setOn (coreOfBank b') t

/-- MIGR (R244, R245). -/
def execMigr (a b : SReg) (s : State) : Out :=
  issue s infoCtx fun u =>
    let v := u.S a
    let v' := u.S b
    if 2 ^ 10 ≤ v.toNat ∨ 2 ^ 10 ≤ v'.toNat ∨ clusterOf (desCore v) ≠ clusterOf (desCore v')
      ∨ !u.migrOk (desBank v) (desBank v') then u.trapCur .ill 0
    else if !u.ownCore (desCore v) ∨ !u.ownCore (desCore v') then u.trapCur .prot v
    else u.parkOp (.migr v v')

/-! ### Saving and restoring a team (R245) -/

/-- The team of a bank as it is saved: each slot at its chain's head, no access parked (R36, R48). -/
def State.saved (s : State) (b : Nat) (t : Team) : SavedTeam :=
  let c := s.core (coreOfBank b)
  let size := s.bufSize b
  let base := s.bufBase b
  { team := t
    bank := { s.bank b with waitQ := [], yields := [], share := SMap.slice (s.bank b).share 0 t.footprint }
    waves := (List.range 8).map fun i => s.stoppedWave (8 * b + i)
    wbuf := SMap.slice c.wbuf base size, abuf := SMap.slice c.abuf base size, cbuf := SMap.slice c.cbuf base size
    view := size, rollbacks := match s.launchOf t.launch with | some l => l.rollbacks | none => 0
    ops := c.opsOf b, marks := s.teamMarks b t size }

/-- What stands in the area of a team of the set that has retired: a team of no waves. -/
def State.noTeam (s : State) (t : Team) (b : Nat) : SavedTeam :=
  { team := { t with waves := 0, setIx := t.setBanks.idxOf b }
    bank := Bank.zero, waves := List.replicate 8 Wave.idle, wbuf := [], abuf := [], cbuf := [], view := 0x20000
    rollbacks := match s.launchOf t.launch with | some l => l.rollbacks | none => 0
    ops := [], marks := [] }

/-- The bank that a saved team has left is free. -/
def State.vacateBank (s : State) (b : Nat) : State :=
  let s1 := ((s.dropOps b).dropChecks b).setBank b (s.bank b).vacate
  let s2 := (bankWaves b).foldl (fun u w => u.setWave w (u.wave w).vacate) s1
  { s2 with waiters := s2.waiters.filter fun e => bankOf e.wave ≠ b }

/-- The waiting service records of a bank's waves go with its team's image, and come back with it (R287). -/
def State.sendRecords (s : State) (b ticket : Nat) : State :=
  { s with parts := s.parts.map fun e => (e.1, { e.2 with
      ringWait := e.2.ringWait.map fun r => if r.ticket = 0 ∧ bankOf r.wave = b then { r with ticket := ticket } else r }) }
def State.recallRecords (s : State) (b ticket : Nat) : State :=
  { s with parts := s.parts.map fun e => (e.1, { e.2 with
      ringWait := e.2.ringWait.map fun r =>
        if r.ticket = ticket then { r with ticket := 0, wave := 8 * b + waveNo r.wave } else r }) }

/-- Keep the saved team of a bank under the next ticket. -/
def State.keep (s : State) (b : Nat) (v : SavedTeam) : State :=
  { s.sendRecords b s.nextTicket with images := SMap.insert s.images s.nextTicket v, nextTicket := s.nextTicket + 1 }

/-- Put a saved team into a free bank, among the banks `set` (R245, R36). -/
def State.restoreTeam (s : State) (b : Nat) (set : List Nat) (v : SavedTeam) : State :=
  let s1 := s.giveBank b v.team.vf
  let B := s1.bank b
  let from_ : Core := { Core.zero with wbuf := v.wbuf, abuf := v.abuf, cbuf := v.cbuf }
  let s2 := (s1.copyBuffers b v.view 0 from_).addOps (coreOfBank b) (v.ops.map fun m => m.moveTo b)
  let s3 := s2.setBank b { v.bank with
    owner := B.owner, gated := B.gated, team := some { v.team with setBanks := set }
    loads := v.bank.loads.map fun l => { l with wave := 8 * b + waveNo l.wave }
    share := SMap.unslice B.share 0 v.team.footprint v.bank.share }
  let s4 := v.waves.zipIdx.foldl (fun u e => u.setWave (8 * b + e.2) e.1) s3
  ((s4.putMarks b v.team v.view v.marks).rerunXvs b).resumeWaves b

/-! ### The operations complete -/

/-- An operation that its target turns out not to admit: ILL (R297). -/
def State.opIll (s : State) (w : Nat) (x : SlotId) : State :=
  let back : State := { s.undoOp w x with cur := (w, x) }
  if (s.wave w).opFrozen x then back else back.trapCur .ill 0

/-- The lines of an area, resolved for a wave: a fault with its address, granules, or the locations. -/
def State.areaLines (s : State) (w : Nat) (acc : Acc) (base : Word) : List (Word × Res) :=
  (List.range (areaSize / 128)).map fun i =>
    let a := base + BitVec.ofNat 64 (128 * i)
    (a, match resolve s w acc a 8 with | .ok (.win _) _ => .fault .prot | r => r)

/-- Continue with the locations of areas, or trap or park in place of the operation (R297). One that a trap of its wave has
frozen is then issued again behind the handler. -/
def State.onAreas (s : State) (w : Nat) (x : SlotId) (acc : Acc) (bases : List Word) (undo : State → State)
    (k : State → List (List (Word × Res)) → State) : State :=
  let areas := bases.map fun b => s.areaLines w acc b
  let all := areas.flatten
  let frozen := (s.wave w).opFrozen x
  let back (t : State) : State := undo { t.undoOp w x with cur := (w, x) }
  match all.find? fun e => e.2.isFault with
  | some e =>
    let t := back (s.logFault w acc e.2.cause e.1)
    if frozen then t else t.trapCur e.2.cause e.1
  | none =>
    let gs := all.filterMap fun e => e.2.granule
    if gs = [] then k s areas else if frozen then back s else (back s).parkAll gs (!acc.writes) acc.writes false

/-- The key of a byte of an image at its resolved lines. -/
def lineKey (lines : List (Word × Res)) (o : Nat) : Nat :=
  match lines[o / 128]? with
  | some e => e.2.loc.markKey + o % 128
  | none => 2 ^ 62

/-- The poisoned bytes of an image at its resolved lines (R320). -/
def State.imageMarks (s : State) (lines : List (Word × Res)) : List Nat :=
  lines.zipIdx.flatMap fun e => (s.marksIn e.1.2.loc.markKey 128).map fun o => 128 * e.2 + o

/-- Write an image through its resolved lines; poison marks go with their bytes. -/
def State.writeImage (s : State) (w : Nat) (lines : List (Word × Res)) (byte : Nat → Byte) (marks : List Nat) : State :=
  marks.foldl (fun (t : State) o => t.markPoison (lineKey lines o) 1) <| lines.zipIdx.foldl (fun t e =>
    (t.holdRes w e.1.1 e.1.2).writeLoc w e.1.2.loc ((List.range 128).map fun i => byte (128 * e.2 + i)) e.1.2.norep) s

/-- A byte of an image at its resolved lines. -/
def State.imageAt (s : State) (w : Nat) (lines : List (Word × Res)) (o : Nat) : Byte :=
  match lines[o / 128]? with
  | some e => BitVec.ofNat 8 (s.readLoc w e.2.loc 128 / 256 ^ (o % 128))
  | none => 0

/-- The areas of a set. -/
def setAreas (base : Word) (n : Nat) : List Word := (List.range n).map fun j => base + BitVec.ofNat 64 (areaSize * j)

/-- SPILL completes: every team of the set is written and its bank freed; its capsules are adoptable (R214). -/
def spillDone (s : State) (w : Nat) (x : SlotId) (v base : Word) : State :=
  let set := s.setOf (desBank v)
  match (s.bank (desBank v)).team with
  | none => s.finishOp w x
  | some t0 =>
    if !set.all s.bankQuiet then s
    else
      s.onAreas w x .store (setAreas base t0.setBanks.length) (fun t => set.foldl State.resumeWaves t) fun s areas =>
        let s1 := set.foldl State.stopCapsules (s.finishOp w x)
        (t0.setBanks.zip areas).foldl (fun t e =>
          if !s.holdsSet t0 e.1 then t.writeImage w e.2 (s1.noTeam t0 e.1).imageByte []
          else
            match (s1.bank e.1).team with
            | none => t
            | some team =>
              let sv := s1.saved e.1 team
              ((t.writeImage w e.2 sv.imageByte sv.marks).keep e.1 sv.strip).vacateBank e.1) s1

/-- What the machine keeps of a team whose image stands in memory, with its name among the images. -/
def State.keptOf (s : State) (t : Team) : Option (Nat × SavedTeam) :=
  List.find? (fun e => e.2.team.launch == t.launch && e.2.team.teamId == t.teamId && e.2.team.rerun == t.rerun) s.images

/-- Whether a header is that of a team which may be restored: its launch is live and has not been rolled back since, and
its place in its set is one (log 15). -/
def State.imageOk (s : State) (v : SavedTeam) : Bool :=
  (match s.launchOf v.team.launch with | some l => l.rollbacks == v.rollbacks | none => false)
    && [1, 2, 4, 8].contains v.team.setBanks.length && decide (v.team.setIx < v.team.setBanks.length)
    && decide (v.team.footprint ≤ 0x60000) && (v.view == 0x20000 || v.view == 0x40000) && v.waves.length == 8

/-- The headers that areas hold, from SETIX 0. -/
def State.imageSet (s : State) (w : Nat) (areas : List (List (Word × Res))) : List SavedTeam :=
  areas.filterMap fun lines => (headOf (s.imageAt w lines)).bind fun v => if s.imageOk v then some v else none

/-- A team whose image stands in memory comes back into bank `b`: its bytes, and what the machine has kept of it. -/
def State.restoreImage (s : State) (b : Nat) (set : List Nat) (v : SavedTeam) (byte : Nat → Byte) (marks : List Nat) :
    State :=
  let kept := s.keptOf v.team
  let ops := match kept with | some e => e.2.ops | none => []
  let v1 := v.fromImage byte
  let loads := match kept with | some e => e.2.bank.loads | none => []
  let t := s.restoreTeam b set { v1 with ops := ops, marks := marks, bank := { v1.bank with loads := loads } }
  match kept with
  | some e => { t.recallRecords b e.1 with images := SMap.erase t.images e.1 }
  | none => t

/-- FILL completes, or is ILL for banks that cannot take the set. An area that holds no image, or that of a team whose VF is
another partition's, restores nothing (log 15). -/
def fillDone (s : State) (w : Nat) (x : SlotId) (v base : Word) : State :=
  s.onAreas w x .load [base] id fun s areas =>
    match s.imageSet w areas with
    | [] => s.finishOp w x
    | sv0 :: _ =>
      let n := sv0.team.setBanks.length
      s.onAreas w x .load (setAreas base n) id fun s areas =>
        let svs := s.imageSet w areas
        let set := (List.range n).map fun j => desBank v + 2 * j
        let whole := svs.length = n ∧ s.vfPart sv0.team.vf = s.partOf w ∧
          (svs.zipIdx.all fun e => e.1.team.launch == sv0.team.launch && e.1.team.setIx == e.2) = true
        let fits := desCore v % 8 + n ≤ 8 ∧
          ((set.zip svs).all fun e => e.2.team.waves == 0 || s.mayTake e.1 e.2.team.vf e.2.team.footprint e.2.view) = true
        if !decide whole then s.finishOp w x
        else if !decide fits then s.opIll w x
        else
          (set.zip (svs.zip areas)).foldl (fun t e =>
            if e.2.1.team.waves = 0 then t else t.restoreImage e.1 set e.2.1 (s.imageAt w e.2.2) (s.imageMarks e.2.2)) (s.finishOp w x)

/-- MIGR completes; of a bank without a team it moves nothing (log 59). -/
def migrDone (s : State) (w : Nat) (x : SlotId) (v v' : Word) : State :=
  let b := desBank v
  if (s.bank b).team.isNone then s.finishOp w x
  else if !s.bankQuiet b then s
  else if !s.migrOk b (desBank v') then s.opIll w x
  else ((s.finishOp w x).moveTeam b (desBank v')).resumeWaves (desBank v')

/-- A CTX operation of a slot completes. -/
def ctxDone (s : State) (w : Nat) (x : SlotId) : State :=
  match ((s.wave w).opSlot x).park with
  | .op (.banksw v) =>
    let C := s.core (desCore v)
    if C.active = desBank v % 2 then s.finishOp w x
    else if C.active < 2 ∧ C.swapTo.isNone = true then s.startSwap (desCore v) (desBank v % 2)
    else s
  | .op (.spill v a) => spillDone s w x v a
  | .op (.fill v a) => fillDone s w x v a
  | .op (.migr v v') => migrDone s w x v v'
  | _ => s

/-- CTX_COMPLETE (R244). -/
def execCtxComplete (w : Nat) (x : SlotId) (s : State) : Out := .next (ctxDone s w x)

/-! ### Partition swaps (R246, R264) -/

/-- The banks of a partition, and those that hold a team. -/
def State.partBanks (s : State) (p : Nat) : List Nat := (partRange (s.reg (partOff p))).flatMap clusterBanks
def State.partTeams (s : State) (p : Nat) : List Nat := (s.partBanks p).filter fun b => (s.bank b).team.isSome

/-- How many images of 1.5 MiB the shadow storage of a die holds. -/
def State.shadowRoom (s : State) (p : Nat) : Nat := s.regBits (partOff p) 56 5 * 0x100000 / areaSize

/-- The place in memory of a bank's image. -/
def State.spillArea (s : State) (p b : Nat) : Nat :=
  (s.reg (partOff p + 8)).toNat + areaSize * (b - 16 * s.partBase p)

/-- A line of a bank's image written to the spill area from the bank's die (R225), or refused: on a page that the root of trust
guards, or by another world's die (R261, R266). -/
def State.saveLine (s : State) (p core pa : Nat) (bs : List Byte) : State :=
  if s.guarded pa || s.portRefuses (dieOf core) (s.partWorld p) pa then s.logRefused core (s.partWorld p) none true pa
  else (s.crossFrom (dieOf core) pa none).pokeBytes pa bs

/-- Save one bank: in shadow storage while its die has room, else in its spill area, with SLOW. -/
def State.saveBank (s : State) (p b : Nat) : State :=
  match (s.bank b).team with
  | none => s
  | some t =>
    let sv := s.saved b t
    let here := ((s.part p).shadows.filter fun e => e.area.isNone && e.bank / 128 == b / 128).length
    let area := if here < s.shadowRoom p then none else some (s.spillArea p b)
    let s1 := match area with
      | none => s.keep b sv
      | some a =>
        let u := (List.range (areaSize / 128)).foldl (fun (u : State) i =>
          u.saveLine p (coreOfBank b) (a + 128 * i) ((List.range 128).map fun k => sv.imageByte (128 * i + k))) s
        let ok (o : Nat) : Bool :=
          !s.guarded (a + o) && !s.portRefuses (dieOf (coreOfBank b)) (s.partWorld p) (a + o)
        let v := (sv.marks.filter ok).foldl (fun (v : State) o => v.markPoison (a + o) 1) u
        (v.setRegBits (ctlOff p) 4 1 1).keep b sv.strip
    let s2 := s1.setPart p { s1.part p with
      shadows := (s1.part p).shadows ++ [{ bank := b, ticket := s.nextTicket, area := area }] }
    s2.vacateBank b

/-- PARTITION_SAVE_DONE: every bank of the partition is quiet, saved and free; a RESUME that waits starts the restore. -/
def saveDone (s : State) (p : Nat) : State :=
  let bs := s.partTeams p
  if s.partState p ≠ 1 ∨ !bs.all s.bankQuiet then s
  else
    let s1 := bs.foldl State.stopCapsules (s.setRegBits (ctlOff p) 4 1 0)
    let s2 := (bs.foldl (fun t b => t.saveBank p b) s1).setPartState p 2
    if (s2.part p).resumeDue then
      (s2.setPart p { s2.part p with resumeDue := false }).setPartState p 3
    else s2

/-- The lines of a bank's area that its die may not read: another world's die refuses them (R266). -/
def State.shutLines (s : State) (p b a : Nat) : List Nat :=
  ((List.range (areaSize / 128)).map fun i => a + 128 * i).filter (s.portRefuses (dieOf (coreOfBank b)) (s.partWorld p))
/-- The header of a bank's saved image: none where a line of its area may not be read (log 20). -/
def State.shadowHead (s : State) (p : Nat) (e : Shadow) : Option SavedTeam :=
  match e.area with
  | none => SMap.find? s.images e.ticket
  | some a =>
    if s.shutLines p e.bank a = [] then (headOf fun o => s.byte (a + o)).bind fun v => if s.imageOk v then some v else none
    else none
/-- A bank takes its image back under FILL's rules (R246). -/
def State.shadowFits (s : State) (p : Nat) (e : Shadow) : Bool :=
  match s.shadowHead p e with
  | none => true
  | some v => s.mayTake e.bank v.team.vf v.team.footprint v.view
def State.restoreShadow (p : Nat) (s : State) (e : Shadow) : State :=
  match s.shadowHead p e, e.area with
  | none, none => s
  | none, some a => (s.shutLines p e.bank a).foldl (fun t pa => t.refuseWorld (Config.homeDie pa % 8) pa none) s
  | some v, none =>
    let t := s.restoreTeam e.bank v.team.setBanks v
    { t.recallRecords e.bank e.ticket with images := SMap.erase t.images e.ticket }
  | some v, some a => s.restoreImage e.bank v.team.setBanks v (fun o => s.byte (a + o)) (s.marksIn a areaSize)
/-- Whether a partition's images may go back. -/
def State.restoreReady (s : State) (p : Nat) : Bool := s.partState p == 3 && (s.part p).shadows.all (s.shadowFits p)

/-- PARTITION_RESTORE_DONE: every image is back in its bank; a HALT that waits starts the next save. -/
def restoreDone (s : State) (p : Nat) : State :=
  if !s.restoreReady p then s
  else
    let s1 := (s.part p).shadows.foldl (State.restoreShadow p) s
    let s2 := (s1.setPart p { s1.part p with shadows := [] }).setPartState p 0
    if (s2.part p).haltDue then (s2.setPart p { s2.part p with haltDue := false }).setPartState p 1 else s2

/-- PARTITION_SAVE_DONE (R246). -/
def execPartitionSaveDone (p : Nat) (s : State) : Out := .next (saveDone s p)
/-- PARTITION_RESTORE_DONE (R246). -/
def execPartitionRestoreDone (p : Nat) (s : State) : Out := .next (restoreDone s p)

end Sys2Proof.Machine
end

