-- ==== Sys2Proof/Machine/Matrix.lean ====
section
/-! DEFINITION. Machine/Matrix.lean: the matrix array (R65–R67, R180–R193): weight sets, tiles, MX instructions, the
matrix order and its events. -/
namespace Sys2Proof.Machine

/-! ### Formats (R65, R188, R189) -/

/-- Sixteen-bit floats, 8-bit floats and Q4, and i8: formats of one class pair with each other (R65). -/
def ArrayFmt.cls (f : ArrayFmt) : Nat := match f with | .f16 | .bf16 => 0 | .e4m3 | .e5m2 | .q4 => 1 | .i8 => 2
/-- Bits of an element. -/
def ArrayFmt.bits (f : ArrayFmt) : Nat := match f with | .f16 | .bf16 => 16 | .q4 => 4 | _ => 8
/-- The float format of an element that is no Q4 code. -/
def ArrayFmt.float (f : ArrayFmt) : FFmt := match f with | .bf16 => .bf16 | .e4m3 => .e4m3 | .e5m2 => .e5m2 | _ => .f16

/-- The tile depth of a weight format (R180). -/
def depthOf (f : ArrayFmt) : Nat := if f = .q4 then 256 else 128
/-- Bytes of a weight tile (R188), and of M activation rows of K elements (R189). -/
def tileBytes (f : ArrayFmt) : Nat := match f with | .f16 | .bf16 => 32768 | .q4 => 17408 | _ => 16384
def rowBytes (f : ArrayFmt) (k m : Nat) : Nat :=
  match f with | .f16 | .bf16 => 2 * k * m | .q4 => k / 2 * m + k / 32 * m | _ => k * m

/-- Element `n` of contiguous elements of a format at `base`, with its scale byte at `scale`. -/
def elemAt (f : ArrayFmt) (bytes : SMap Byte) (base n scale : Nat) : Num :=
  match f with
  | .q4 => q4Value (readBytes bytes scale 1) (readBytes bytes (base + n / 2) 1 / 16 ^ (n % 2) % 16)
  | .i8 => Num.ofInt false (IFmt.value ⟨8, true⟩ (readBytes bytes (base + n) 1)) 0
  | f => let b := ArrayFmt.bits f / 8; (ArrayFmt.float f).value (readBytes bytes (base + b * n) b)

/-- Weight (k, j) (R188), from the bytes latched. -/
def Weights.elem (w : Weights) (k j : Nat) : Num :=
  elemAt w.fmt w.bytes (if w.fmt = .q4 then 128 * j else 128 * j * (ArrayFmt.bits w.fmt / 8)) k (16384 + 8 * j + k / 32)

/-- Activation (m, k) of M rows of K elements (R189). -/
def actElem (f : ArrayFmt) (bytes : SMap Byte) (kk rows m k : Nat) : Num :=
  elemAt f bytes (kk * m * ArrayFmt.bits f / 8) k (kk / 2 * rows + kk / 32 * m + k / 32)

/-! ### Results (R66, R67) -/

/-- The exact sum of a group's products; an exact zero is +0. -/
def groupSum (a w : Nat → Num) (ks : List Nat) : Num :=
  ks.foldl (fun p k => Num.add .rne p (Num.mul (a k) (w k))) (.fin false 0 0)

/-- R66: group by group in ascending k, each sum and each addition rounded once. -/
def floatResult (a w : Nat → Num) (depth g : Nat) (acc : W32) : W32 :=
  (List.range (depth / g)).foldl (fun acc i =>
    let p := FFmt.f32.roundInf .rne (groupSum a w ((List.range g).map fun n => g * i + n))
    BitVec.ofNat 32 (FFmt.f32.roundInf .rne (Num.add .rne (FFmt.f32.value acc.toNat) (FFmt.f32.value p)))) acc

/-- R67: the exact sum into INT32, modulo 2^32. -/
def intResult (a w : Nat → Num) (depth : Nat) (acc : W32) : W32 :=
  acc + BitVec.ofInt 32 ((List.range depth).foldl (fun s k => s + signedInt (a k) * signedInt (w k)) 0)
where
  signedInt (x : Num) : Int := match x with | .fin neg m _ => if neg then -(m : Int) else m | _ => 0

/-- The result for row m and column j, from a starting value. -/
def MatrixOp.result (o : MatrixOp) (m j : Nat) (acc : W32) : W32 :=
  let kk := depthOf o.weights.fmt
  let a := actElem o.fmt o.acts kk o.rows m
  let w (k : Nat) := o.weights.elem k j
  if o.fmt = .i8 then intResult a w kk acc else floatResult a w kk (if ArrayFmt.bits o.fmt = 16 then 8 else 32) acc

/-! ### Tiles (R43) -/

/-- The offset in the core's CBUF of row m of a tile of a bank. -/
def State.tileOff (s : State) (b : Nat) (t : Tile) (m : Nat) : Nat := s.bufBase b + 0x10000 * t.toNat + 512 * m
/-- Whether a bank has a tile. -/
def State.hasTile (s : State) (b : Nat) (t : Tile) : Bool := decide (0x10000 * (t.toNat + 1) ≤ s.bufSize b)
/-- Tile element and row access. -/
def State.tileElem (s : State) (b : Nat) (t : Tile) (m j : Nat) : W32 :=
  BitVec.ofNat 32 (readBytes (s.core (coreOfBank b)).cbuf (s.tileOff b t m + 4 * j) 4)
/-- A row written over poisoned bytes clears their marks (R320). -/
def State.setTileRow (s : State) (b : Nat) (t : Tile) (m : Nat) (f : Nat → W32) : State :=
  let core := coreOfBank b
  let c := s.core core
  (s.setCore core { c with
    cbuf := laneList.foldl (fun buf j => writeBytes buf (s.tileOff b t m + 4 * j) (leBytes 4 (f j).toNat)) c.cbuf }).clearMarks
      (Loc.cbuf core (s.tileOff b t m)).markKey 512
/-- Whether one of `n` rows of a tile holds poisoned bytes. -/
def State.tilePoisoned (s : State) (b : Nat) (t : Tile) (m n : Nat) : Bool :=
  s.marksIn (Loc.cbuf (coreOfBank b) (s.tileOff b t m)).markKey (512 * n) != []

/-- An operation of the matrix order on the same tile bytes (R183). -/
def State.tileBusy (s : State) (b : Nat) (t : Tile) : Bool :=
  (s.core (coreOfBank b)).queue.any fun o => match o.target with
    | .inr u => s.tileOff o.bank u 0 == s.tileOff b t 0
    | .inl _ => false

/-! ### Entering the matrix order -/

/-- A matrix command that enters the matrix order: a chained one, or MMAD. -/
inductive MxCmd where
  | wload (f : ArrayFmt) (index : Nat)
  | mma (f : ArrayFmt) (acc : Bool) (t : Tile) (index rows : Nat)
  | mmad (f : ArrayFmt) (w : Nat) (d : VReg) (index rows : Nat)
  | czero (t : Tile)
deriving DecidableEq, Repr

/-- Bytes of a core's buffer, from a bank's offset, counted from 0. -/
def State.bufSlice (s : State) (b : Nat) (buf : SMap Byte) (off n : Nat) : SMap Byte := SMap.slice buf (s.bufBase b + off) n

/-- BUFBOUND of R187 at a bank: a row count above 128, a tile or bytes that the bank does not have. -/
def MxCmd.bad (c : MxCmd) (s : State) (b : Nat) : Bool :=
  let size := s.bufSize b
  let act (f : ArrayFmt) (index rows : Nat) : Bool :=
    decide (size < 64 * index + rowBytes f (depthOf (s.bank b).weights.fmt) rows)
  match c with
  | .wload f i => decide (size < 64 * i + tileBytes f)
  | .mma f _ t i m => decide (128 < m) || !s.hasTile b t || act f i m
  | .mmad f _ _ i m => act f i m
  | .czero t => !s.hasTile b t

/-- Poisoned bytes among those that the array would read (R320): those of a tile that it adds to as well (log 32). -/
def MxCmd.poisoned (c : MxCmd) (s : State) (b : Nat) : Bool :=
  let core := coreOfBank b
  let at_ (i : Nat) : Nat := s.bufBase b + 64 * i
  let act (f : ArrayFmt) (i m : Nat) : Bool :=
    s.marksIn (Loc.abuf core (at_ i)).markKey (rowBytes f (depthOf (s.bank b).weights.fmt) m) != []
  match c with
  | .wload f i => s.marksIn (Loc.wbuf core (at_ i)).markKey (tileBytes f) != []
  | .mma f acc t i m => act f i m || acc && s.tilePoisoned b t 0 m
  | .mmad f _ _ i m => act f i m
  | .czero _ => false

/-- A pair that R65 forbids. -/
def MxCmd.forbidden (c : MxCmd) (s : State) (b : Nat) : Bool :=
  let ok (f : ArrayFmt) : Bool := ArrayFmt.cls f == ArrayFmt.cls (s.bank b).weights.fmt
  match c with
  | .mma f .. => !ok f
  | .mmad f .. => !ok f
  | _ => false

/-- The tile interlock at a bank (R183). -/
def MxCmd.waits (c : MxCmd) (s : State) (b : Nat) : Bool :=
  match c with
  | .mma _ _ t _ _ => s.tileBusy b t
  | .czero t => s.tileBusy b t
  | _ => false

/-- The command enters: WLOAD and CZERO act, MMA and MMAD take their operands and join the order. What the wave's transfers
have still to read of a tile is kept as it was (R200). -/
def MxCmd.enter (c : MxCmd) (s : State) (b w launch : Nat) (pc : Word) (sys : Bool) : State :=
  let core := coreOfBank b
  let C := s.core core
  let op (target : (Nat × VReg) ⊕ Tile) (f : ArrayFmt) (acc : Bool) (i m : Nat) : State :=
    let ws := (s.bank b).weights
    s.setCore core { C with queue := C.queue ++ [
      { wave := w, launch := launch, bank := b, target := target, fmt := f, acc := acc, rows := m, done := 0, weights := ws
        acts := s.bufSlice b C.abuf (64 * i) (rowBytes f (depthOf ws.fmt) m), pc := pc, sys := sys, failed := false }] }
  match c with
  | .wload f i => s.setBank b { s.bank b with weights := { fmt := f, bytes := s.bufSlice b C.wbuf (64 * i) (tileBytes f) } }
  | .mma f acc t i m => op (.inr t) f acc i m
  | .mmad f v d i m => op (.inl (v, d)) f false i m
  | .czero t => ((s.capture w).setCore core { C with cbuf := SMap.clear C.cbuf (s.tileOff b t 0) 0x10000 }).clearMarks
      (Loc.cbuf core (s.tileOff b t 0)).markKey 0x10000

/-- A chained command's word and values (R199), or `none` for any other. -/
def chainCmd (v : BitVec 64) : Option MxCmd :=
  let w := v.toNat % 2 ^ 32
  let sa := bitsOf v.toNat 32 16
  let sb := bitsOf v.toNat 48 16
  let t := BitVec.ofNat 2 (bitsOf w 8 2)
  let f : Option ArrayFmt := [.f16, .bf16, .e4m3, .e5m2, .i8, .q4][bitsOf w 22 4]?
  if bitsOf w 0 8 ≠ 0xC4 ∨ bitsOf w 10 12 ≠ 0 then none
  else
    match bitsOf w 28 4, f with
    | 0, some f => if t = 0 ∧ bitsOf w 26 2 = 0 ∧ sb = 0 then some (.wload f sa) else none
    | 1, some f => if bitsOf w 26 2 ≤ 1 then some (.mma f (bitsOf w 26 2 == 1) t sa (sb + 1)) else none
    | 5, _ => if bitsOf w 22 6 = 0 ∧ sa = 0 ∧ sb = 0 then some (.czero t) else none
    | _, _ => none

/-! ### MX instructions (R187–R193) -/

/-- A CPY of the issuing wave whose chained command has still to enter this core's matrix order (R182). -/
def State.chainPending (s : State) (w : Nat) : Bool :=
  s.xfers.any fun x => s.xferOf (bankOf w) x && x.wave == w && x.chainDue.contains (bankOf w)

/-- An MX instruction: FMASK for FMT4 5, the wait of R182, then its own checks and effect. -/
def mxOp (s : State) (f : ArrayFmt) (k : State → State) : Out :=
  issue s { Info.scalar 4 with feat := if f = .q4 then some 0 else none, stages := [] } fun u =>
    if u.chainPending u.cur.1 then s else k u

/-- The command of an MX instruction: BUFBOUND, the interlock, ILL for a forbidden pair, then the entry (R187, R297). -/
def mxEnter (s u : State) (c : MxCmd) (badField : Bool) (k : State → State) : State :=
  let b := bankOf u.cur.1
  if badField || c.bad u b then u.trapCur .bufbound 0
  else if c.poisoned u b then u.consume u.cur.1 u.cur.2 (instrTrap .machine 0 u.cs.pc)
  else if c.waits u b then s
  else if c.forbidden u b then u.trapCur .ill 0
  else k (c.enter u b u.cur.1 (u.launchKey u.cur.1) u.cs.pc u.cw.system)

/-- WLOAD (R188). -/
def execWload (f : ArrayFmt) (a : SReg) (s : State) : Out :=
  mxOp s f fun u =>
    let v := (u.S a).toNat
    mxEnter s u (.wload f v) (decide (2 ^ 16 ≤ v)) fun t => t.advance 4
/-- MMA (R190). -/
def execMma (f : ArrayFmt) (acc : Bool) (t : Tile) (a b : SReg) (s : State) : Out :=
  mxOp s f fun u =>
    let v := (u.S a).toNat
    let m := (u.S b).toNat
    mxEnter s u (.mma f acc t v (m + 1)) (decide (2 ^ 16 ≤ v) || decide (128 ≤ m)) fun t => t.advance 4
/-- MMAD (R191): the scoreboard holds the wave until its rows are written. -/
def execMmad (f : ArrayFmt) (r : BitVec 2) (d : VReg) (a : SReg) (s : State) : Out :=
  mxOp s f fun u =>
    let v := (u.S a).toNat
    mxEnter s u (.mmad f u.cur.1 d v (r.toNat + 1)) (decide (2 ^ 16 ≤ v)) fun t => t.pendOn 4 (.mmad t.cur.2)

/-- MDRAIN and MFILL: the rows' bounds, then the interlock (R183, R187). -/
def rowsOp (s : State) (r : BitVec 2) (t : Tile) (a : SReg) (k : State → Nat → Nat → State) : Out :=
  mxOp s .f16 fun u =>
    let b := bankOf u.cur.1
    let m := (u.S a).toNat
    if 128 ≤ m ∨ 128 < m + r.toNat + 1 ∨ !u.hasTile b t then u.trapCur .bufbound 0
    else if u.tileBusy b t then s
    else k u b m
/-- MDRAIN (R192); poisoned bytes of the rows raise MACHINE (R320; log 32). -/
def execMdrain (r : BitVec 2) (d : VReg) (t : Tile) (a : SReg) (s : State) : Out :=
  rowsOp s r t a fun u b m =>
    if u.tilePoisoned b t m (r.toNat + 1) then u.consume u.cur.1 u.cur.2 (instrTrap .machine 0 u.cs.pc)
    else ((List.range (r.toNat + 1)).foldl (fun v q =>
      v.setCw (v.cw.setVs (d.toNat + q) (BitVec.allOnes 128) fun j => u.tileElem b t (m + q) j)) u).advance 4
/-- MFILL (R192). -/
def execMfill (r : BitVec 2) (t : Tile) (v : VReg) (a : SReg) (s : State) : Out :=
  rowsOp s r t a fun u b m =>
    ((List.range (r.toNat + 1)).foldl (fun x q =>
      x.setTileRow b t (m + q) fun j => u.cw.v (v.toNat + q) j) (u.capture u.cur.1)).advance 4

/-- CZERO (R193). -/
def execCzero (t : Tile) (s : State) : Out :=
  mxOp s .f16 fun u => mxEnter s u (.czero t) false fun v => v.advance 4
/-- CWAIT (R193). -/
def execCwait (t : Tile) (s : State) : Out :=
  mxOp s .f16 fun u =>
    if !u.hasTile (bankOf u.cur.1) t then u.trapCur .bufbound 0
    else if u.tileBusy (bankOf u.cur.1) t then s
    else u.advance 4

/-! ### The draining edge (R186) -/

/-- The wave is live and waits for the rows of an MMAD. -/
def Wave.waitsMmad (W : Wave) : Bool := W.resident && (match W.pend with | .mmad _ => true | _ => false)

/-- A row of the first operation of the order leaves the draining edge: one entry of stage 6, one event 0x04. -/
def drainRow (s : State) (core : Nat) : State :=
  let C := s.core core
  match C.queue with
  | [] => s
  | o :: rest =>
    if o.rows ≤ o.done ∨ o.failed then s
    else
      let s1 := s.setCore core { C with queue := { o with done := o.done + 1 } :: rest }
      let s2 := { (s1.countEvent core 4 (some o.sys)) with stages := [{ core := core, stage := 6, pc := o.pc }] }
      match o.target with
      | .inr t => s2.setTileRow o.bank t o.done fun j =>
          o.result o.done j (if o.acc then s.tileElem o.bank t o.done j else 0)
      | .inl (w, d) =>
        if (s2.wave w).waitsMmad then
          s2.setWave w ((s2.wave w).setVs (d.toNat + o.done) (BitVec.allOnes 128) fun j => o.result o.done j 0)
        else s2

/-- ARRAY_ROW_DRAIN (R186). -/
def execArrayRowDrain (core : Nat) (s : State) : Out := .next (drainRow s core)

/-- The first operation of the order retires. -/
def retireOp (s : State) (core : Nat) : State :=
  let C := s.core core
  match C.queue with
  | [] => s
  | o :: rest =>
    if o.done < o.rows then s
    else
      let s1 := (s.setCore core { C with queue := rest }).cbufReady core
      match o.target with
      | .inr _ => s1
      | .inl (w, _) =>
        if (s1.wave w).waitsMmad then (s1.setWave w { s1.wave w with pend := .none }).endDying w else s1

/-- MATRIX_OP_RETIRE (R186). -/
def execMatrixOpRetire (core : Nat) (s : State) : Out := .next (retireOp s core)

end Sys2Proof.Machine
end

