-- ==== Sys2Proof/Machine/Copy.lean ====
section
/-! DEFINITION. Machine/Copy.lean: CPY (R196–R201), NSEND and NPOST (R202–R204), the checks of R305, R306 and R310, and
the steps of the copy and network engines (R286, R298). -/
namespace Sys2Proof.Machine

/-! ### Checks at issue (R305, R306, R310) -/

/-- The first check that fails. -/
abbrev Chk := Option (Cause × Word)

def firstOf (l : List Chk) : Chk := l.findSome? id
def checkIf (b : Bool) (c : Cause) (a : Word) : Chk := if b then some (c, a) else none

/-- A record's address: check 1. -/
def recCheck (s : State) (w : Nat) (a : Word) : Chk :=
  if a.toNat % 32 ≠ 0 then some (.malign, a)
  else if spaceOf a ≠ .team then some (.prot, a)
  else
    match s.teamOf w with
    | none => some (.spbound, a)
    | some t => checkIf (decide (t.spSize < spaceOff a + 32)) .spbound a

/-- An arrival word's address: check 1; s0 names none. -/
def awCheck (s : State) (w : Nat) (r : SReg) (a : Word) : Chk :=
  if r = 0 then none
  else
    match awResolve s w a with
    | .fault c => some (c, a)
    | _ => none

/-- The record at a checked address. -/
def readRec (s : State) (w : Nat) (a : Word) : BufRec := BufRec.ofNat (s.readLoc w (.share (bankOf w) (spaceOff a)) 32)

/-- Check 2 of a record. -/
def BufRec.check2 (r : BufRec) (a : Word) : Chk :=
  firstOf [
    checkIf (decide (r.fmt < 16) && !r.q4 &&
      (r.base.toNat % r.size != 0 || r.stride1 % r.size != 0 || r.stride2 % r.size != 0)) .malign a,
    checkIf (r.reserved != 0 || r.bounds == 3 || decide (16 ≤ r.fmt) ||
      (r.bounds == 2 && (r.extent == 0 || (!r.q4 && r.extent % r.size != 0)))) .bufbound a]

/-- The dense rule of R195 broken. -/
def BufRec.sparse (r : BufRec) : Bool :=
  r.q4 && (r.stride1 != 0 || r.stride2 != 0 || r.count % 32 != 0 || decide (r.extent < r.dense))

/-- Check 3 of two records. -/
def pairBad (kind : XferKind) (d r : BufRec) : Bool :=
  d.count != r.count || (kind == .copy && d.fmt != r.fmt)
    || (kind == .convert && d.fmt != r.fmt && (d.fmt == 0x0F || r.fmt == 0x0F)) || d.sparse || r.sparse

/-- Spaces that R197 forbids. -/
def Space.noSource : Space → Bool
  | .wbuf | .abuf | .system => true
  | _ => false
def Space.noDest : Space → Bool
  | .cbuf | .system => true
  | _ => false

/-- An element of the record lies on a CONF page. -/
def confTouch (s : State) (w : Nat) (r : BufRec) : Bool :=
  spaceOf r.base == .tenant && r.addrs.any fun a =>
    match translate s (clusterOf (coreOf w)) (s.vfOf w) a with | .leaf l => l.conf | _ => false

/-- The address of the first element that check 5 refuses, with `room` bytes in each receiver's part where the record lies
in a typed buffer. -/
def BufRec.check5 (r : BufRec) (room : Option Nat) : Chk :=
  let past (o n : Nat) : Bool := match room with | some m => decide (m < spaceOff r.base + o + n) | none => false
  let at_ (o : Nat) : Word := r.base + BitVec.ofNat 64 o
  if r.q4 then
    ((List.range r.dense).find? fun o => past o 1).map fun o => (.bufbound, at_ o)
  else
    ((List.range r.count).find? fun e =>
      (r.bounds == 0 && !r.inBounds e) || (match r.place e with | some o => past o r.size | none => false)).map fun e =>
        (.bufbound, at_ (if r.inBounds e then r.offset e else (r.place e).getD 0))

/-- The smallest part that banks see of the typed buffer in which a record lies. -/
def roomOf (s : State) (banks : List Nat) (r : BufRec) : Option Nat :=
  if (spaceOf r.base).typed then some ((banks.map s.bufSize).foldl Nat.min 0x40000) else none

/-- Banks that a multicast mask names; the issuing bank for mask 0 (R198). A re-run reaches itself alone. -/
def receiversOf (t : Team) (own : Nat) (mc : BitVec 8) : List Nat :=
  if mc = 0 then [own]
  else if t.rerun then (if mc.getLsbD t.setIx then [own] else [])
  else (List.range t.setBanks.length).filterMap fun j => if mc.getLsbD j then t.setBanks[j]? else none

/-- The checks of a CPY after those of R297 (R305). -/
def copyChecks (s : State) (w : Nat) (t : Team) (kind : XferKind) (da sa : Word) (awr : SReg) (mc : BitVec 8) : Chk :=
  let d := readRec s w da
  let r := readRec s w sa
  firstOf [
    recCheck s w da, recCheck s w sa, awCheck s w awr (s.S awr),
    d.check2 da, r.check2 sa,
    checkIf (pairBad kind d r) .bufbound da,
    checkIf ((spaceOf d.base).noDest || (mc != 0 && !(spaceOf d.base == .team || spaceOf d.base == .wbuf ||
      spaceOf d.base == .abuf))) .prot da,
    checkIf (spaceOf r.base).noSource .prot sa,
    checkIf (confTouch s w r && !(spaceOf d.base).inner) .prot sa,
    checkIf (confTouch s w d && !(spaceOf r.base).inner) .prot da,
    checkIf (s.bounceBad (s.vfOf w) false (s.recPages (coreOf w) (s.vfOf w) r)) .prot sa,
    checkIf (s.bounceBad (s.vfOf w) true (s.recPages (coreOf w) (s.vfOf w) d)) .prot da,
    d.check5 (roomOf s (receiversOf t (bankOf w) mc) d),
    r.check5 (roomOf s [bankOf w] r)]

/-! ### The 32 transfers of a bank (R197) -/

/-- CPY and NSEND of a bank that are outstanding, whichever team of the bank has issued them; an NPOST is not counted
(log 47). -/
def State.outstanding (s : State) (b : Nat) : Nat := (s.xfers.filter fun x => x.inBank b && x.kind != .recv).length

/-- A waiting instruction still stands at issue. -/
def State.stillWaits (s : State) (e : Nat × SlotId × Word) : Bool :=
  let W := s.wave e.1
  W.resident && W.service.isNone && (W.slot e.2.1).live && (W.slot e.2.1).pc == e.2.2

/-- Whether the issuing transfer may enter: fewer than 32 are outstanding, and none has waited longer. -/
def State.mayEnter (s : State) : Bool :=
  let b := bankOf s.cur.1
  let q := (s.bank b).waitQ.filter s.stillWaits
  decide (s.outstanding b < 32) && (q == [] || q.head? == some (s.cur.1, s.cur.2, s.cs.pc))

/-- The issuing transfer waits in its bank's queue, or leaves it. -/
def State.joinQueue (s : State) : State :=
  let b := bankOf s.cur.1
  let e := (s.cur.1, s.cur.2, s.cs.pc)
  let q := (s.bank b).waitQ.filter s.stillWaits
  s.setBank b { s.bank b with waitQ := if q.contains e then q else q ++ [e] }
def State.leaveQueue (s : State) : State :=
  let b := bankOf s.cur.1
  s.setBank b { s.bank b with waitQ := (s.bank b).waitQ.filter fun e => s.stillWaits e && e != (s.cur.1, s.cur.2, s.cs.pc) }

/-! ### Issue -/

/-- A transfer of the issuing slot, with nothing read. -/
def newXfer (s : State) (t : Team) (kind : XferKind) (strm : BitVec 4) (src dst : BufRec) (aw : Option Word) : Xfer :=
  { key := s.nextKey, kind := kind, team := t, wave := s.cur.1, x := s.cur.2, mask := s.cs.mask, pc := s.cs.pc
    sys := s.cw.system, launch := t.launch, vf := t.vf, strm := strm, src := src, dst := dst, units := 0, data := []
    early := [], landed := [], got := [], aw := aw, chain := none, receivers := [], chainDue := [], cbufWait := 0
    fault := none, granule := none, bounce := [], unmapped := [], flow := 0 }

/-- Units of a pair of records. -/
def Xfer.sized (x : Xfer) : Xfer := { x with units := if x.blk then x.src.count / 32 else x.src.count }

/-- The operations of the matrix order that a write-out waits for: up to the last one that writes its bytes (R183). -/
def cbufWaitOf (s : State) (b : Nat) (r : BufRec) : Nat :=
  if spaceOf r.base ≠ .cbuf then 0
  else
    let lo := s.bufBase b + spaceOff r.base
    let hit (m : MatrixOp) : Bool := match m.target with
      | .inr t => decide (lo < s.tileOff m.bank t 0 + 0x10000) && decide (s.tileOff m.bank t 0 < lo + r.extent)
      | .inl _ => false
    ((s.core (coreOfBank b)).queue.zipIdx.foldl (fun n e => if hit e.1 then e.2 + 1 else n) 0)

/-- A transfer enters its engine and reads what it may. -/
def State.startXfer (s : State) (x : Xfer) : State :=
  let (s1, x1) := readSource { s with nextKey := s.nextKey + 1 } x
  { s1 with xfers := s1.xfers ++ [x1] }

/-- A CPY that has passed its checks. -/
def State.startCopy (s : State) (t : Team) (kind : XferKind) (strm : BitVec 4) (da sa : Word) (aw : Option Word)
    (chain : Option (BitVec 64)) (mc : BitVec 8) : State :=
  let w := s.cur.1
  let d := readRec s w da
  let r := readRec s w sa
  let rs := receiversOf t (bankOf w) mc
  let x := newXfer s t kind strm r d aw
  s.startXfer { x.sized with
    landed := rs.map fun _ => 0, got := rs.map fun _ => 0, chain := chain, receivers := rs
    chainDue := if chain.isSome then rs else [], cbufWait := cbufWaitOf s (bankOf w) r
    bounce := s.touched false (s.recPages (coreOf w) (s.vfOf w) r) ++ s.touched true (s.recPages (coreOf w) (s.vfOf w) d)
    unmapped := s.unmappedPages (coreOf w) (s.vfOf w) r ++ s.unmappedPages (coreOf w) (s.vfOf w) d }

/-- Instructions of the copy and network engines; they enter stage 5. -/
def infoEng : Info := { Info.scalar 8 with stages := [5] }

/-- CPY (R196–R200): ILL for a multicast bit at or above SPAN or a chain command outside R199, then the wait at 32
outstanding transfers, then R305. -/
def cpyOp (s : State) (kind : XferKind) (dst src saw chain : SReg) (strm : BitVec 4) (mc : BitVec 8) : Out :=
  issue s infoEng fun u =>
    let w := u.cur.1
    match u.teamOf w with
    | none => u.illOp
    | some t =>
      if 2 ^ 2 ^ t.span ≤ mc.toNat then u.illOp
      else if chain ≠ 0 ∧ (chainCmd (u.S chain)).isNone = true then u.illOp
      else if !u.mayEnter then s.joinQueue
      else
        match copyChecks u w t kind (u.S dst) (u.S src) saw mc with
        | some (c, a) => u.leaveQueue.trapCur c a
        | none =>
          ((u.leaveQueue.gated.startCopy t kind strm (u.S dst) (u.S src) (if saw = 0 then none else some (u.S saw))
            (if chain = 0 then none else some (u.S chain)) mc)).advance 8

/-- CPY, KIND 00 (R197). -/
def execCpy (dst src saw chain : SReg) (strm : BitVec 4) (_scope : Scope) (mc : BitVec 8) (s : State) : Out :=
  cpyOp s .copy dst src saw chain strm mc
/-- CPY.CVT, KIND 01 (R197). -/
def execCpyCvt (dst src saw chain : SReg) (strm : BitVec 4) (_scope : Scope) (mc : BitVec 8) (s : State) : Out :=
  cpyOp s .convert dst src saw chain strm mc

/-! ### Network instructions (R202–R204, R306) -/

/-- A flow of a partition, as one number. -/
def flowKey (p f : Nat) : Nat := 4096 * p + f

/-- The flow that a handle names is not the issuing VF's. -/
def State.flowBad (s : State) (w : Nat) (h : Word) : Bool :=
  let off := flowOff (s.partOf w) (h.toNat % 4096)
  decide (4096 ≤ h.toNat) || s.regBits off 0 1 == 0 || s.regBits off 8 8 != s.vfOf w

/-- A network instruction: FMASK, the wait of R197, check 1, the checks of R306 and the rest of R305. -/
def netOp (s : State) (send : Bool) (flow rec saw : SReg) (k : State → Team → BufRec → State) : Out :=
  issue s { infoEng with feat := some 3 } fun u =>
    let w := u.cur.1
    match u.teamOf w with
    | none => u.illOp
    | some t =>
      if !u.mayEnter then s.joinQueue
      else
        let ra := u.S rec
        let r := readRec u w ra
        let checks := firstOf [
          recCheck u w ra, awCheck u w saw (u.S saw),
          checkIf (u.flowBad w (u.S flow)) .prot (u.S flow),
          checkIf (send && decide (0x1000000 < r.bytes)) .bufbound ra,
          checkIf (confTouch u w r || (!send && (spaceOf r.base).typed)) .prot ra,
          r.check2 ra, checkIf r.sparse .bufbound ra,
          checkIf (if send then (spaceOf r.base).noSource else (spaceOf r.base).noDest) .prot ra,
          r.check5 (roomOf u [bankOf w] r)]
        match checks with
        | some (c, a) => u.leaveQueue.trapCur c a
        | none => (k u.leaveQueue.gated t r).advance 8

/-- The bytes of a message: a q4 record's codes, then its scales. -/
def Xfer.message (x : Xfer) : List (Byte × Bool) :=
  if x.src.q4 then (x.data.flatMap fun u => u.take 16) ++ x.data.flatMap fun u => u.drop 16 else x.data.flatten

/-- NSENDs of a flow whose messages have left and are not accepted. -/
def State.unplaced (s : State) (flow : Nat) : Nat :=
  (s.xfers.filter fun x => x.kind == .nsend && x.flow == flow && x.landed != []).length

/-- A message leaves, through its flow's port, once it is read whole, while the flow has credits (R203, R204, R265). -/
def State.sendMessage (s : State) (x : Xfer) : State :=
  let off := flowOff (x.flow / 4096) (x.flow % 4096)
  if x.kind ≠ .nsend ∨ x.fault.isSome ∨ x.landed ≠ [] ∨ x.data.length < x.units
    ∨ s.regBits (off + 16) 0 16 ≤ s.unplaced x.flow then s
  else
    let s1 := (s.out (.message x.flow (s.regBits off 16 4) x.message)).setXfer { x with landed := [x.units] }
    match s1.launchOf x.launch with
    | some l => s1.setLaunch { l with sentNet := true }
    | none => s1

/-- NSEND (R203). -/
def execNsend (flow rec saw : SReg) (strm : BitVec 4) (s : State) : Out :=
  netOp s true flow rec saw fun u t r =>
    let x := newXfer u t .nsend strm r BufRec.empty (if saw = 0 then none else some (u.S saw))
    u.startXfer { x.sized with
      flow := flowKey (u.partOf u.cur.1) ((u.S flow).toNat % 4096), cbufWait := cbufWaitOf u (bankOf u.cur.1) r }

/-- NPOST (R204): the record joins the flow's posted buffers. A FENCE on its stream waits while a message fills the buffer
(log 47). -/
def execNpost (flow rec saw : SReg) (strm : BitVec 4) (s : State) : Out :=
  netOp s false flow rec saw fun u t r =>
    let key := flowKey (u.partOf u.cur.1) ((u.S flow).toNat % 4096)
    let p : Posted := { team := t, waveIx := waveNo u.cur.1, x := u.cur.2, mask := u.cs.mask, strm := strm, dst := r,
                        aw := if saw = 0 then none else some (u.S saw) }
    { u with posted := SMap.set (fun _ => []) u.posted key (SMap.get (fun _ => []) u.posted key ++ [p]) }

/-! ### Conversion (R197) -/

/-- The format of a record's elements. -/
def recKind (fmt : Nat) : FFmt ⊕ IFmt :=
  match fmt with
  | 0x00 => .inl .f32
  | 0x01 => .inl .f16
  | 0x02 => .inl .bf16
  | 0x03 => .inl .e4m3
  | 0x04 => .inl .e5m2
  | 0x05 => .inr ⟨32, true⟩
  | 0x06 => .inr ⟨32, false⟩
  | 0x07 => .inr ⟨16, true⟩
  | 0x08 => .inr ⟨16, false⟩
  | 0x09 => .inr ⟨8, true⟩
  | _ => .inr ⟨8, false⟩
/-- The block type that a q4 code writes. -/
def recBlock (fmt : Nat) : BlockType :=
  match fmt with | 0x0B => .int | 0x0C => .e2m1 | 0x0D => .pow2 | _ => .hyb

/-- Which elements of a unit come from poisoned bytes (R320). -/
def unitMarks (r : BufRec) (bs : List (Byte × Bool)) : List Bool :=
  let bad (i : Nat) : Bool := (bs.getD i (0, false)).2
  if r.q4 then (List.range 32).map fun k => bad (k / 2) || bad 16
  else (List.range (bs.length / r.size)).map fun i => (List.range r.size).any fun j => bad (i * r.size + j)

/-- The exact values of a unit's elements. -/
def unitValues (r : BufRec) (bs : List Byte) : List Num :=
  if r.q4 then
    (List.range 32).map fun k => q4Value (bs.getD 16 0).toNat ((bs.getD (k / 2) 0).toNat / 16 ^ (k % 2) % 16)
  else
    (List.range (bs.length / r.size)).map fun i => laneValue (recKind r.fmt) (leValue ((bs.drop (i * r.size)).take r.size))

/-- A value in an element's format, with RNE and SAT; a NaN is the canonical one, or 0 in an integer. -/
def encodeValue (k : FFmt ⊕ IFmt) (v : Num) : Nat :=
  match k with
  | .inl f => (f.finish .sat (f.round .rne v)).getD 0
  | .inr t => (t.ofNum .rne .sat none v).getD 0

/-- The codes of a block, two a byte. -/
def blockCodes (cs : List Nat) : List Byte :=
  (List.range 16).map fun i => BitVec.ofNat 8 (cs.getD (2 * i) 0 + 16 * cs.getD (2 * i + 1) 0)

/-- The bytes that a unit lands as. -/
def Xfer.landBytes (x : Xfer) (bs : List (Byte × Bool)) : List (Byte × Bool) :=
  if x.kind ≠ .convert ∨ x.dst.fmt = 0x0F then bs
  else
    let vs := unitValues x.src (bs.map (·.1))
    let marks := unitMarks x.src bs
    if x.dst.q4 then
      let (scale, cs) := quantise (recBlock x.dst.fmt) vs
      (blockCodes cs ++ [BitVec.ofNat 8 scale]).map fun b => (b, marks.any id)
    else
      (vs.zip marks).flatMap fun e =>
        (leBytes x.dst.size (encodeValue (recKind x.dst.fmt) e.1)).map fun b => (b, e.2)

/-! ### Landing (R198–R200, R286) -/

/-- A bank still holds the transfer's set, or what its team has left. -/
def State.engLive (s : State) (x : Xfer) (b : Nat) : Bool :=
  match (s.bank b).team with
  | none => (s.bank b).owner == some x.vf
  | some t => t.launch == x.launch && t.teamId - t.setIx == x.team.teamId - x.team.setIx

/-- Where the pieces of a unit land. -/
inductive Landing where
  | ok (l : List (Option (Loc × Bool)))
  | fault (c : Cause) (addr : Word)
  | park (base gsz : Nat)
deriving DecidableEq, Repr

def landPieces (s : State) (x : Xfer) (b : Nat) : List (Option Nat × Nat) → Landing
  | [] => .ok []
  | (none, _) :: ps =>
    match landPieces s x b ps with
    | .ok l => .ok (none :: l)
    | r => r
  | (some o, n) :: ps =>
    match engLoc s x.team b true x.openDst x.dst.base o n with
    | .fault c => .fault c (x.dst.base + BitVec.ofNat 64 o)
    | .park g z => .park g z
    | .ok l leaf =>
      match landPieces s x b ps with
      | .ok ls => .ok (some (l, match leaf with | some e => e.noreplay | none => false) :: ls)
      | r => r

/-- Whether bytes that land there are kept. -/
def State.landsAt (s : State) (x : Xfer) (b : Nat) (l : Loc) : Bool :=
  match l with
  | .phys _ | .conf _ => true
  | .share b' _ => s.engLive x b'
  | _ => s.engLive x b

/-- Write one piece. -/
def State.landPiece (s : State) (x : Xfer) (b : Nat) (l : Loc) (norep : Bool) (bs : List (Byte × Bool)) : State :=
  if !s.landsAt x b l then s
  else
    let s1 := match l with
      | .phys a => s.writeTeam (some x.team) none a (bs.map (·.1)) norep
      | .conf a => s.writeTeam (some x.team) (some (s.keyOf x.vf)) a (bs.map (·.1)) norep
      | l => s.writeLoc x.wave l (bs.map (·.1)) norep
    if x.team.rerun then s1
    else bs.zipIdx.foldl (fun (t : State) e => if e.1.2 then t.markPoison (l.markKey + e.2) 1 else t) s1

/-- Write a unit's bytes at its pieces. -/
def landAll (x : Xfer) (b : Nat) : List (Option (Loc × Bool)) → List (Option Nat × Nat) → List (Byte × Bool) → State → State
  | some (l, norep) :: ls, (_, n) :: ps, bs, s => landAll x b ls ps (bs.drop n) (s.landPiece x b l norep (bs.take n))
  | none :: ls, (_, n) :: ps, bs, s => landAll x b ls ps (bs.drop n) s
  | _, _, _, s => s

/-- Bytes of a unit of `m` bytes that land: those of the elements that no clamp drops, in banks that the set still
holds. -/
def landCount (s : State) (x : Xfer) (b : Nat) : List (Option (Loc × Bool)) → List (Option Nat × Nat) → Nat → Nat
  | some (l, _) :: ls, (_, n) :: ps, m => (if s.landsAt x b l then Nat.min n m else 0) + landCount s x b ls ps (m - n)
  | none :: ls, (_, n) :: ps, m => landCount s x b ls ps (m - n)
  | _, _, _ => 0

/-- Count bytes at a transfer's arrival word for receiver `b` (R49, R198). -/
def State.countAt (s : State) (x : Xfer) (b n : Nat) : State :=
  match x.aw with
  | none => s
  | some a =>
    let l : Loc := if spaceOf a = .team then .share b (spaceOff a) else x.team.clLoc (spaceOff a)
    if n = 0 ∨ !s.landsAt x b l then s else s.writeArrival x.wave l ((s.readArrival x.wave l).add n)

/-- The bytes landed and not counted are counted at each receiver. -/
def State.countAll (s : State) (x : Xfer) : State × Xfer :=
  ((x.receivers.zip x.got).foldl (fun t e => t.countAt x e.1 e.2) s, { x with got := x.got.map fun _ => 0 })

/-- The transfer stops on a fault: what has landed is counted, no command enters, a bounce channel halts (R182, R286,
R310). -/
def State.stopXfer (s : State) (x : Xfer) (c : Cause) (a : Word) : State :=
  let (s1, x1) := s.countAll x
  (s1.abortBounce x.bounce).setXfer { x1 with fault := some (c, a), chainDue := [], bounce := [] }

/-- The receiver that has had the fewest units. -/
def Xfer.nextReceiver (x : Xfer) : Nat :=
  let m := x.landed.foldl Nat.min (x.landed.headD 0)
  (x.landed.findIdx? fun n => n == m).getD 0

/-- A group has landed: its bytes are counted, unless a chained command is to enter first (R199). -/
def State.groupDone (s : State) (x : Xfer) : State :=
  if x.chain.isSome then s.setXfer x else let (s1, x1) := s.countAll x; s1.setXfer x1

/-- Land up to `fuel` units at receiver number `r`. -/
def landUnits (r : Nat) : Nat → State → Xfer → State
  | 0, s, x => s.groupDone x
  | fuel + 1, s, x =>
    let b := x.receivers.getD r 0
    let e := x.landed.getD r 0
    match x.data[e]? with
    | none => s.groupDone x
    | some bs =>
      let ps := x.dst.pieces x.blk e
      match landPieces s x b ps with
      | .fault c a =>
        (if c = .prot then s.logPortAt x.vf (coreOfBank b) (some x.sys) true x.openDst a else s).stopXfer x c a
      | .park g z => (s.parkEngine x b (g, z) false).groupDone { x with granule := some (g, z) }
      | .ok ls =>
        match x.reach s true b ps with
        | none => s.stopXfer x .prot (x.dst.base + BitVec.ofNat 64 (firstOff ps))
        | some y =>
        let cs := x.landBytes bs
        let s1 := landAll x b ls ps cs (s.holdPieces x.team b true x.openDst x.dst.base ps)
        landUnits r fuel s1 { y with
          landed := x.landed.set r (e + 1), got := x.got.set r (x.got.getD r 0 + landCount s x b ls ps cs.length) }

/-- Units of one group of at most 512 bytes. -/
def Xfer.groupUnits (x : Xfer) : Nat :=
  Nat.max 1 (512 / (if x.dst.q4 then 17 else Nat.max 1 (x.dst.size * (if x.blk then 32 else 1))))

def State.xferBy (s : State) (key : Nat) : Option Xfer := s.xfers.find? fun x => x.key == key

/-- The engine goes on with a transfer: the rest of the source, then a group of bytes. What earlier transfers of the wave
have still to read is kept as it was (R200). -/
def landXfer (s : State) (key : Nat) : State :=
  match s.xferBy key with
  | none => s
  | some x =>
    if x.stopped ∨ x.granule.isSome ∨ x.cbufWait ≠ 0 then s
    else
      let (s1, x1) := readSource s x
      let s2 := s1.setXfer x1
      if x1.data.length < x1.units then s2
      else if x1.kind = .nsend then s2.sendMessage x1
      else landUnits x1.nextReceiver x1.groupUnits (if x1.kind = .recv then s2 else s2.capture x1.wave) x1

/-- COPY_LANDING (R200). -/
def execCopyLanding (t : Nat) (s : State) : Out := .next (landXfer s t)

/-- Every unit has been read and has landed at receiver number `r`. -/
def Xfer.landedAt (x : Xfer) (r : Nat) : Bool :=
  x.fault.isNone && decide (x.units ≤ x.data.length) && decide (x.units ≤ x.landed.getD r 0)
def Xfer.allLanded (x : Xfer) : Bool := (List.range x.receivers.length).all x.landedAt

/-- A chained command that would read poisoned bytes: MACHINE for the issuing wave (R320). -/
def State.machineOf (s : State) (x : Xfer) : State :=
  let W := s.wave x.wave
  if W.resident && s.xferOf (bankOf x.wave) x then
    s.consume x.wave x.x (instrTrap .machine 0 (s.stopped x.wave x.x).pc)
  else s.rollback x.launch false

/-- A chained command enters a receiving core's matrix order, or is discarded (R298); then its bytes are counted (R199).
It waits for its tile before it enters (log 48). A discard stops the copy: its bounce channels halt (R310). -/
def chainEnter (s : State) (key b : Nat) : State :=
  match s.xferBy key with
  | none => s
  | some x =>
    match x.receivers.findIdx? (· == b), x.chain.bind chainCmd with
    | some r, some c =>
      let landed := decide (x.units ≤ x.data.length) && decide (x.units ≤ x.landed.getD r 0)
      if !x.chainDue.contains b ∨ !landed then s
      else
        let gone := !s.engLive x b
        let fault : Chk := if gone then none else if c.bad s b then some (.bufbound, 0)
          else if c.forbidden s b then some (.ill, 0) else none
        if !gone ∧ fault.isNone = true ∧ c.poisoned s b = true then s.machineOf x
        else if !gone ∧ fault.isNone = true ∧ c.waits s b = true then s
        else
          let s1 := if gone then s else if fault.isSome then s.abortBounce x.bounce
            else c.enter s b x.wave x.launch x.pc x.sys
          let s2 := s1.countAt x b (x.got.getD r 0)
          s2.setXfer { x with
            chainDue := x.chainDue.filter fun e => e != b, got := x.got.set r 0, fault := x.fault.orElse fun _ => fault
            bounce := if fault.isSome then [] else x.bounce }
    | _, _ => s

/-- Whether a receiver's command may enter, or is dropped, now. -/
def State.chainReady (s : State) (x : Xfer) (b : Nat) : Bool :=
  match x.receivers.findIdx? (· == b), x.chain.bind chainCmd with
  | some r, some c =>
    decide (x.units ≤ x.data.length) && decide (x.units ≤ x.landed.getD r 0)
      && (!s.engLive x b || c.poisoned s b || c.bad s b || c.forbidden s b || !c.waits s b)
  | _, _ => false

/-- CHAINED_COMMAND_ENTRY (R199). -/
def execChainedCommandEntry (t bank : Nat) (s : State) : Out := .next (chainEnter s t bank)

/-- The copy is complete: every byte, command and update (R200). -/
def Xfer.complete (x : Xfer) : Bool := x.kind != .nsend && x.allLanded && x.chainDue == []

/-- The transfer leaves its engine. -/
def State.dropXfer (s : State) (key : Nat) : State := { s with xfers := s.xfers.filter fun x => x.key != key }

/-- A copy completes; a consuming one advances DSEQ of its channels (R310). -/
def completeXfer (s : State) (key : Nat) : State :=
  match s.xferBy key with
  | none => s
  | some x =>
    if !x.complete then s
    else
      x.bounce.foldl (fun t c => t.setRegBits (bounceOff c.1 c.2 + 16) 32 32 (s.dseq c + 1)) (s.dropXfer key)

/-- COPY_COMPLETION (R200). -/
def execCopyCompletion (t : Nat) (s : State) : Out := .next (completeXfer s t)

/-- A message is accepted whole: its bytes are counted (R203). -/
def acceptMessage (s : State) (key : Nat) : State :=
  match s.xferBy key with
  | none => s
  | some x =>
    if x.kind ≠ .nsend ∨ x.landed = [] then s
    else (s.countAt x (bankOf x.wave) x.message.length).dropXfer key

/-- REMOTE_ACCEPTANCE (R203). -/
def execRemoteAcceptance (t : Nat) (s : State) : Out := .next (acceptMessage s t)

/-! ### Arriving messages (R204) -/

/-- The bank of a team. -/
def State.bankOfTeam (s : State) (t : Team) : Option Nat :=
  ((s.banks.filter fun e => match e.2.team with
    | some u => u.launch == t.launch && u.teamId == t.teamId
    | none => false).map (·.1)).head?

/-- The buffer lies in a window, or its arrival word does, so that its team must be resident. -/
def Posted.needsTeam (p : Posted) : Bool := p.aw.isSome || (spaceOf p.dst.base).inner

/-- A record as bytes: a dense q4 record holds its codes and scales. -/
def BufRec.raw (r : BufRec) : BufRec :=
  if r.q4 then { BufRec.empty with base := r.base, extent := r.extent, count0 := r.dense, count1 := 1, count2 := 1, fmt := 0x0F }
  else r

/-- Bytes in chunks of `n`, at most `fuel`. -/
def chunks (n : Nat) : Nat → List Byte → List (List Byte)
  | 0, _ => []
  | _ + 1, [] => []
  | fuel + 1, bs => bs.take n :: chunks n fuel (bs.drop n)

/-- A message goes into the oldest posted buffer of a flow. The fill stands in the NPOST's stream (log 47). -/
def State.fillPosted (s : State) (flow : Nat) (p : Posted) (bs : List Byte) : State :=
  let b := (s.bankOfTeam p.team).getD p.team.bank
  let t := ((s.bank b).team).getD p.team
  let r := p.dst.raw
  let units := (chunks r.size r.count bs).map fun u => u.map fun b => (b, false)
  let x : Xfer :=
    { key := s.nextKey, kind := .recv, team := t, wave := 8 * b + p.waveIx, x := p.x, mask := p.mask, pc := 0, sys := false
      launch := t.launch, vf := t.vf, strm := p.strm, src := BufRec.empty, dst := r, units := units.length, data := units
      early := [], landed := [0], got := [0], aw := p.aw, chain := none, receivers := [b], chainDue := [], cbufWait := 0
      fault := none, granule := none, bounce := [], unmapped := [], flow := flow }
  { s with
    nextKey := s.nextKey + 1, xfers := s.xfers ++ [x]
    posted := SMap.set (fun _ => []) s.posted flow ((SMap.get (fun _ => []) s.posted flow).drop 1) }

/-- ORDERED of a flow. -/
def State.orderedFlow (s : State) (flow : Nat) : Bool := s.regBits (flowOff (flow / 4096) (flow % 4096)) 1 1 == 1
/-- Whether a message of a flow is filling a buffer. -/
def State.filling (s : State) (flow : Nat) : Bool := s.xfers.any fun x => x.kind == .recv && x.flow == flow

/-- The oldest posted buffer of a flow, if a message may go into it now: on an ordered flow, once the message before it has
been placed. -/
def State.freeBuffer (s : State) (flow : Nat) : Option Posted :=
  match SMap.get (fun _ => []) s.posted flow with
  | [] => none
  | p :: _ =>
    if p.needsTeam && (s.bankOfTeam p.team).isNone then none
    else if s.orderedFlow flow && s.filling flow then none
    else some p

/-- Messages that wait at the receiving interface. -/
def State.waiting (s : State) (flow : Nat) : List (List Byte) := SMap.get (fun _ => []) s.arrived flow
def State.setWaiting (s : State) (flow : Nat) (ms : List (List Byte)) : State :=
  { s with arrived := SMap.set (fun _ => []) s.arrived flow ms }

/-- A message is placed, or waits. One that has waited leaves its place in the queue; on an ordered flow only the first
may be placed. -/
def placeMessage (s : State) (flow : Nat) (bs : List Byte) : State :=
  let ms := s.waiting flow
  let mine := if s.orderedFlow flow then ms.head? == some bs else ms.contains bs
  match s.freeBuffer flow with
  | none => if mine then s else s.setWaiting flow (ms ++ [bs])
  | some p =>
    if mine then (s.setWaiting flow (ms.erase bs)).fillPosted flow p bs
    else if s.orderedFlow flow ∧ ms ≠ [] then s.setWaiting flow (ms ++ [bs])
    else s.fillPosted flow p bs

/-- NETWORK_MESSAGE_PLACEMENT (R204). -/
def execNetworkMessagePlacement (flow : Nat) (data : List Byte) (s : State) : Out := .next (placeMessage s flow data)

/-! ### Engine faults (R286) -/

/-- The wave that started a transfer, where its team now is. -/
def State.xferHome (s : State) (x : Xfer) : Option Nat :=
  (s.bankOfTeam x.team).map fun b => 8 * b + waveNo x.wave

/-- The team is out of its bank, to come back. -/
def State.teamAway (s : State) (t : Team) : Bool :=
  s.images.any fun e => e.2.team.launch == t.launch && e.2.team.teamId == t.teamId

/-- The slot that takes a wave's engine fault. -/
def Wave.engSlot (W : Wave) (x : SlotId) : SlotId := if W.handler then W.trap.slot else x

/-- Whether a slot stands at an instruction boundary at which an engine fault may be taken. -/
def State.atBoundary (s : State) (w : Nat) (x : SlotId) : Bool :=
  let W := s.wave w
  W.pend == .none && !s.inChain w (W.engSlot x) && (match (W.slot (W.engSlot x)).park with | .op _ => false | _ => true)

/-- Whether the slot that started a transfer has ended. -/
def Wave.ended (W : Wave) (x : SlotId) : Bool :=
  !W.resident || !((W.slot x).live || (match W.frozenSlot x with | some t => t.live | none => false))

/-- A slot that has ended: the fault goes to the service, and the launch does not complete normally. -/
def State.endedFault (s : State) (w : Nat) (x : Xfer) (c : Cause) : State :=
  let s1 := s.ringAdd w c.code false true
  if c = .poison then s1.rollback x.launch false
  else
    match s1.launchOf x.launch with
    | some l => s1.setLaunch { l with killed := true }
    | none => s1

/-- A stopped transfer reports its fault to its slot, and leaves its engine. -/
def engineFault (s : State) (key : Nat) : State :=
  match s.xferBy key with
  | none => s
  | some x =>
    match x.fault with
    | none => s
    | some (c, a) =>
      if x.chainDue ≠ [] ∨ s.teamAway x.team then s
      else
        let f : EngFault := { x := x.x, cause := c, addr := a }
        match s.xferHome x with
        | none => (s.dropXfer key).endedFault x.wave x c
        | some w =>
          let W := s.wave w
          if W.ended x.x then (s.dropXfer key).endedFault w x c
          else if c = .poison then ((s.dropXfer key).takeEngine w f).rollback x.launch false
          else if W.service.isSome then
            (if W.heldFault.isSome then s else (s.dropXfer key).setWave w { W with heldFault := some f })
          else if !s.atBoundary w x.x then s
          else (s.dropXfer key).takeEngine w f

/-- ENGINE_FAULT (R286). -/
def execEngineFault (t : Nat) (s : State) : Out := .next (engineFault s t)

end Sys2Proof.Machine
end

