-- ==== Sys2Proof/Machine/Margin.lean ====
section
/-! DEFINITION. Machine/Margin.lean: running below the guaranteed margin (R247–R254), escalation and quarantine
(R311–R316, R345–R347). A late transition is an instance's next stage entry whose check fails: its effects are discarded,
and its slot issues it again, from the words and the registers that it had, once a check passes. What an
instance has issued and not yet delivered (an XV, a load, an effect in the commit gate, a row of the array) waits for its check where it stands (log 33). -/
namespace Sys2Proof.Machine

def State.setMargin (s : State) (core : Nat) (m : Margin) : State := s.setCore core { s.core core with margin := m }
def State.margin (s : State) (core : Nat) : Margin := (s.core core).margin

/-! ### Counting (R252, R254, R311, R312) -/

/-- MGN_LOG of an event (R250). -/
def logWord (pc : Word) (stage : Nat) (inj : Bool) : Word :=
  BitVec.ofNat 64 (pc.toNat % 2 ^ 56 + stage * 2 ^ 56 + (if inj then 2 ^ 60 else 0))
/-- STAGE of MGN_LOG. -/
def Margin.logStage (m : Margin) : Nat := bitsOf m.log.toNat 56 4

/-- STEP := max(STEP − RAISE, 0) (R252). -/
def Margin.raiseStep (m : Margin) : Margin := m.moveTo (m.step - m.raise)
/-- ERUN (R316). -/
def Margin.erun (m : Margin) : Nat := bitsOf m.qinfo.toNat 0 8

/-- A reroll: REROLLS, MGN_LOG, the governor's count (R254). Of two in one cycle MGN_LOG keeps the higher stage code. The
governor keeps no cycle from before the longest window that may hold the present one. -/
def Margin.reroll (m : Margin) (cycle : Nat) (pc : Word) (stage : Nat) (inj : Bool) : Margin :=
  let keep := m.logAt == some cycle && decide (stage < m.logStage)
  let old := m.errs.filter fun c => c / 2 ^ 25 == cycle / 2 ^ 25
  let m1 := { m with
    rerolls := m.rerolls + 1, log := if keep then m.log else logWord pc stage inj, logAt := some cycle
    errs := if m.gov then cycle :: old else old }
  if m.gov then m1.govern cycle else m1

/-- The governor's raise, with a new count (R252): where MGN_CTL has been written in the cycle in which it fell due, STEP keeps
what was written. -/
def Margin.govRaise (m : Margin) : Margin :=
  let m1 := { m with errs := [], raiseDue := false }
  if m.ctlAt.isSome && m.ctlAt == m.raiseAt then m1 else m1.raiseStep

/-- An escalation: ESCAL, MGN_LOG, ERUN, a raise where GOV = 1, and the move to step 0 (R311, R312). Of an escalation and a
reroll in one cycle, MGN_LOG keeps the one whose step comes later (log 58). -/
def Margin.escalate (m0 : Margin) (cycle : Nat) (pc : Word) (stage : Nat) (inj : Bool) : Margin :=
  let m := m0.expire cycle
  let m1 := { m with
    escal := m.escal + 1, log := logWord pc stage inj, logAt := none, escAt := some cycle, seen := cycle
    qinfo := putBits m.qinfo 0 8 (Nat.min (m.erun + 1) 255) }
  { (if m1.gov then m1.raiseStep else m1) with state := 1 }

/-- The injection that MGN_INJ holds has fired: without PERS, EN clears (R253). -/
def Margin.fired (m : Margin) (c : Check) : Margin :=
  if c.inj && c.armed && !c.pers then { m with inj := m.inj &&& ~~~0x20000#64 } else m

/-! ### The instances under check -/

/-- Two checks follow one instance: a row of the array, or the instruction of a slot. -/
def Check.same (c d : Check) : Bool :=
  if c.stage = 6 ∨ d.stage = 6 then c.stage == d.stage else c.wave == d.wave && c.x == d.x
def State.setCheck (s : State) (core : Nat) (c : Check) : State :=
  s.setCore core { s.core core with checks := c :: (s.core core).checks.filter fun d => !d.same c }
def State.dropCheck (s : State) (core : Nat) (c : Check) : State :=
  s.setCore core { s.core core with checks := (s.core core).checks.filter fun d => !d.same c }

/-- What a slot has issued and not delivered: its address, if it can fail a check in that stage, which it has entered. -/
def State.inFlight (s : State) (w : Nat) (x : SlotId) (stage : Nat) : Option Word :=
  let W := s.wave w
  let gated := (W.gate x).bind fun g => if g.stages.contains stage then some g.pc else none
  if stage = 4 then match W.pend with | .xv y pc _ => if y = x then some pc else none | _ => none
  else if stage ≠ 5 ∧ stage ≠ 7 then none
  else match W.pend with
    | .load y pc stages _ => if y = x ∧ stages.contains stage = true then some pc else gated
    | _ => gated

/-- The instance that a check follows is no more: its slot no longer stands at it, or what it issued has been delivered. -/
def State.gone (s : State) (c : Check) : Bool :=
  let W := s.wave c.wave
  if c.stage = 6 then false
  else if c.again then !W.resident || W.service.isSome || !(W.slot c.x).live || (W.slot c.x).pc != c.pc
  else s.inFlight c.wave c.x c.stage != some c.pc

/-- The check of a slot's instruction, and that of the row at the draining edge. -/
def State.slotCheck (s : State) (w : Nat) (x : SlotId) : Option Check :=
  (s.core (coreOf w)).checks.find? fun c => c.stage != 6 && c.wave == w && c.x == x && !s.gone c
def Core.rowCheck (C : Core) : Option Check := C.checks.find? fun c => c.stage == 6
/-- The row at the draining edge is under check. -/
def Core.rowHeld (C : Core) : Bool := C.checks.any fun c => c.stage == 6 && c.phase != .passed

/-- What a slot has issued and not delivered is under check. -/
def State.pendHeld (s : State) (w : Nat) (x : SlotId) : Bool :=
  match s.slotCheck w x with
  | some c => !c.again && c.phase != .passed
  | none => false

/-- The words of a slot's next instruction, if that is an instance to be issued again; else none. -/
def State.againWords (s : State) (w : Nat) (x : SlotId) : List W32 :=
  match s.slotCheck w x with
  | some c => if c.again then c.words else []
  | none => []
/-- The words at an address, as a fetch of them finds them. -/
def State.wordsAt (s : State) (w : Nat) (pc : Word) : List W32 :=
  match fetchWord s w pc with
  | none => []
  | some w0 => w0 :: ((List.range (fetchWords w0 - 1)).filterMap fun i => fetchWord s w (pc + BitVec.ofNat 64 (4 * i + 4)))
/-- The words of the issuing instance: those it had, or those at its address. -/
def State.instanceWords (s : State) (w : Nat) (x : SlotId) (pc : Word) : List W32 :=
  let ws := s.againWords w x
  if ws = [] then s.wordsAt w pc else ws

/-- A check of the instance fails: a reroll, or an escalation past the replay limit. -/
def failCheck (s : State) (core : Nat) (c : Check) : State :=
  let m := (s.margin core).fired c
  let sys := some (s.wave c.wave).system
  if c.rerolls < m.limit then
    ((s.setMargin core (m.reroll s.cycle c.pc c.stage c.inj)).setCheck core
      { c with rerolls := c.rerolls + 1, inj := c.inj && c.pers, armed := c.armed && c.pers, fired := true }).countEvent core (0x10 + c.stage) sys
  else
    ((s.setMargin core (m.escalate s.cycle c.pc c.stage c.inj)).setCheck core { c with phase := .step0 }).countEvent
      core 0x18 sys

/-- The instance has passed: an XV that was held retires in its time. -/
def State.release (s : State) (c : Check) : State :=
  let W := s.wave c.wave
  match W.pend with
  | .xv x pc p => if c.stage = 4 ∧ x = c.x ∧ c.again = false
      then s.setWave c.wave { W with pend := .xv x pc { p with held := false } } else s
  | _ => s
def passCheck (s : State) (core : Nat) (c : Check) : State := (s.setCheck core { c with phase := .passed }).release c

/-- What an instance has issued and not delivered, or its row, keeps the count of its rerolls (R248). -/
def State.keepCount (s : State) (core : Nat) (c : Check) : State :=
  match (if c.stage = 6 then some 6 else [4, 5, 7].find? fun st => s.inFlight c.wave c.x st == some c.pc) with
  | some st => s.setCheck core { c with again := false, stage := st, inj := false, armed := false, words := [], phase := .passed }
  | none => s.dropCheck core c

/-- Checks of instances that are no more are over: of those that were no more in `s`. -/
def State.purgeFrom (t s : State) (core : Nat) : State :=
  let C := t.core core
  t.setCore core { C with checks := C.checks.filter fun c => !(s.gone c && (c.phase == .passed || c.phase == .failing)) }
def State.purgeChecks (s : State) (core : Nat) : State := s.purgeFrom s core

/-! ### Injections (R253) -/

/-- MGN_INJ (R250). -/
def injStage (v : Word) : Nat := bitsOf v.toNat 0 4
def injCount (v : Word) : Nat := bitsOf v.toNat 4 12
def injPers (v : Word) : Bool := v.getLsbD 16
def injEn (v : Word) : Bool := v.getLsbD 17

/-- Entries pass an armed injection: COUNT falls with each entry into its stage, and at 0 the next one is caught. `n` counts
the entries. -/
def injPass (v : Word) (n : Nat) : List StageEntry → Word × Option (Nat × StageEntry)
  | [] => (v, none)
  | e :: es =>
    if injEn v && injStage v == e.stage then
      (if injCount v = 0 then (v, some (n, e)) else injPass (putBits v 4 12 (injCount v - 1)) (n + 1) es)
    else injPass v (n + 1) es

/-- Entries that a core's injection has not seen, from number `n`: while it has caught an instance it sees no other, and none
on a core that is quarantined or is about to be (R315, R346). -/
def Core.injSees (C : Core) (n : Nat) (es : List StageEntry) : Word × Option (Nat × StageEntry) :=
  if C.margin.state = 2 ∨ C.margin.qdue ≠ 0 ∨ C.checks.any (fun c => c.armed) = true then (C.margin.inj, none)
  else injPass C.margin.inj n (es.drop n)

/-- The check of an entry that an injection has caught: entry number `n` of its instance. -/
def caughtCheck (w : Nat) (x : SlotId) (again : Bool) (v : Word) (n rerolls : Nat) (words : List W32) (e : StageEntry) :
    Check :=
  { wave := w, x := x, again := again, stage := e.stage, pc := e.pc, entered := n + 1, rerolls := rerolls, inj := true
    pers := injPers v, fired := false, armed := true, words := words, phase := .failing }

/-! ### Late transitions (R247) -/

/-- An instance that a late transition meets: the check of it, with how many rerolls it has had. -/
def lateCheck (w : Nat) (x : SlotId) (again : Bool) (stage : Nat) (pc : Word) (entered rerolls : Nat) (words : List W32) :
    Check :=
  { wave := w, x := x, again := again, stage := stage, pc := pc, entered := entered, rerolls := rerolls, inj := false
    pers := false, fired := true, armed := false, words := words, phase := .failing }

/-- A late transition of an instance that is not under check. The next instruction of a slot has the entries that
`s.stages` lists; those up to the failing one are made now, so that an armed injection may catch one of them. -/
def openCheck (s : State) (w : Nat) (x : SlotId) (stage : Nat) : State :=
  let core := coreOf w
  let C := s.core core
  if stage = 6 then
    match C.queue with
    | o :: _ =>
      if o.wave ≠ w ∨ o.rows ≤ o.done ∨ o.failed = true then s
      else
        let entered := match C.rowCheck with | some c => c.entered | none => 0
        let rerolls := match C.rowCheck with | some c => c.rerolls | none => 0
        let (v, hit) := C.injSees entered [{ core := core, stage := 6, pc := o.pc }]
        let s1 := s.setMargin core { C.margin with inj := v }
        match hit with
        | some (n, e) => s1.setCheck core (caughtCheck w x false v n rerolls [] e)
        | none => failCheck s1 core (lateCheck w x false 6 o.pc 1 rerolls [])
    | [] => s
  else
    let entered := match s.slotCheck w x with | some c => c.entered | none => 0
    let rerolls := match s.slotCheck w x with | some c => c.rerolls | none => 0
    match s.inFlight w x stage with
    | some pc =>
      let W := s.wave w
      let s1 := match W.pend with
        | .xv y pc p => if stage = 4 then s.setWave w { W with pend := .xv y pc { p with held := true } } else s
        | _ => s
      failCheck s1 core (lateCheck w x false stage pc entered rerolls [])
    | none =>
      match s.stages.findIdx? fun e => e.core == core && e.stage == stage, s.stages.head? with
      | some i, some e =>
        let words := s.instanceWords w x e.pc
        let (v, hit) := C.injSees entered (s.stages.take (i + 1))
        let s1 := s.setMargin core { C.margin with inj := v }
        match hit with
        | some (n, e) => s1.setCheck core (caughtCheck w x true v n rerolls words e)
        | none => failCheck s1 core (lateCheck w x true stage e.pc (Nat.max entered (i + 1)) rerolls words)
      | _, _ => s

/-- A check that fails at step 0 on a quarantined core: what the instance has issued is discarded, MACHINE is raised for the
wave that issued it, unless that has ended, and its launch is rolled back (R315). -/
def State.machineAt (s : State) (w : Nat) (x : SlotId) (stage : Nat) : State :=
  let W := s.wave w
  if stage = 6 then
    match (s.core (coreOf w)).queue with
    | o :: _ =>
      let y : SlotId := if W.slotA.live then .a else .b
      if o.wave ≠ w ∨ o.rows ≤ o.done then s
      else if W.resident ∧ s.launchKey w = o.launch then s.consume w y (instrTrap .machine 0 (s.stopped w y).pc)
      else s.rollback o.launch false
    | [] => s
  else
    match s.inFlight w x stage with
    | none => s
    | some pc =>
      let W1 := match W.pend with
        | .xv .. => if stage = 4 then { W with pend := .none } else W.ungate x
        | .load y .. => if y = x then { W with pend := .none } else W.ungate x
        | _ => W.ungate x
      if W.resident then (s.setWave w W1).consume w x (instrTrap .machine 0 pc)
      else (s.setWave w W1).rollback (s.launchKey w) false

/-- A shadow latch compares (R247): a sample in time passes the check of an instance, a late one fails it or begins it. -/
def shadowCheck (s : State) (w : Nat) (x : SlotId) (stage : Nat) (late : Bool) : State :=
  let core := coreOf w
  let k := if stage = 6 then (s.core core).rowCheck.filter fun c => c.wave == w else s.slotCheck w x
  if s.quarantined core then (if late then s.machineAt w x stage else s)
  else
    match k with
    | some c =>
      if c.phase = .failing then
        (if c.stage ≠ stage then s else if late || c.inj then failCheck s core c else passCheck s core c)
      else if c.phase = .passed ∧ late = true then openCheck s w x stage
      else s
    | none => if late then openCheck s w x stage else s.purgeChecks core

/-- SHADOW_CHECK (R247). -/
def execShadowCheck (w : Nat) (x : SlotId) (stage : BitVec 4) (late : Bool) (s : State) : Out :=
  .next (shadowCheck s w x stage.toNat late)

/-- An injection fails a check of its instance (R253): without PERS that one, and EN clears. -/
def injectionFire (s : State) (core : Nat) : State :=
  match (s.core core).checks.find? fun c => c.inj && c.phase == .failing && !s.gone c with
  | some c => if s.quarantined core then s else failCheck s core c
  | none => s.purgeChecks core

/-- INJECTION_FIRE (R253). -/
def execInjectionFire (core : Nat) (s : State) : Out := .next (injectionFire s core)

/-! ### At an issue -/

/-- An instance that has passed at step 0 is complete: the supply moves back, or the run quarantines the core, whose supply then
stays at step 0 (R311–R313). -/
def finishStep0 (s : State) (core : Nat) (c : Check) : State :=
  let m := (s.margin core).expire s.cycle
  (s.setMargin core (if m.qcount ≠ 0 ∧ m.qcount ≤ m.erun then { m with qdue := 2 } else m.moveTo m.step)).keepCount core c

/-- An XV that an injection has caught keeps what it latched, and is held (R313). -/
def State.heldXv (s t : State) : Option State :=
  let w := s.cur.1
  match (s.wave w).pend, (t.wave w).pend with
  | .none, .xv x pc p => some (t.setWave w { t.wave w with pend := .xv x pc { p with held := true } })
  | _, _ => none

/-- The stage entries of an instruction that takes `s` to `t`: an armed injection counts those that are new, or catches one,
and then the instruction's effects are discarded. `swr` says that the instruction itself writes MGN_INJ. -/
def afterIssue (swr : Bool) (s t : State) : State :=
  let core := coreOf s.cur.1
  let C := s.core core
  let (w, x) := s.cur
  let k := s.slotCheck w x
  let entered := match k with
    | some c => if c.phase = .passed0 then t.stages.length else c.entered
    | none => 0
  let rerolls := match k with | some c => c.rerolls | none => 0
  let (v, hit) := C.injSees entered t.stages
  match hit with
  | some (n, e) =>
    let held := s.heldXv t
    let u := held.getD s
    { ((u.setMargin core { u.margin core with inj := v }).setCheck core
        (caughtCheck w x held.isNone v n rerolls (if held.isNone then s.instanceWords w x s.cs.pc else []) e)) with
      stages := [] }
  | none =>
    let t0 := t.purgeFrom s core
    let t1 := if swr then t0 else t0.setMargin core { t.margin core with inj := v }
    let t2 := match k with
      | some c => if c.phase = Phase.passed0 then finishStep0 t1 core c else t1.keepCount core c
      | none => t1
    { t2.purgeChecks core with stages := [] }

/-- The same for a row at the draining edge: a caught row does not leave it (R247). -/
def afterRow (s t : State) (core : Nat) : State :=
  let C := s.core core
  let entered := match C.rowCheck with | some c => c.entered | none => 0
  let rerolls := match C.rowCheck with | some c => c.rerolls | none => 0
  let (v, hit) := C.injSees entered t.stages
  match hit, C.queue with
  | some (n, e), o :: _ =>
    { ((s.setMargin core { s.margin core with inj := v }).setCheck core (caughtCheck o.wave .a false v n rerolls [] e)) with
      stages := [] }
  | _, _ =>
    let t1 := t.setMargin core { t.margin core with inj := v }
    { (match C.rowCheck with | some c => t1.dropCheck core c | none => t1) with stages := [] }

/-- Whether margin control keeps a slot from issuing (R311, R313): while an instance is to be issued again, the wave's other
slot too, so that the operands stay as its stage holds them (R247). -/
def State.holds (s : State) (w : Nat) (x : SlotId) : Bool :=
  let C := s.core (coreOf w)
  C.margin.qdue != 0 || C.margin.state == 2 ||
    C.checks.any fun k =>
      let again := k.stage != 6 && k.wave == w && k.again && !s.gone k
      match k.phase with
      | .failing => again
      | .passed => again && k.x != x
      | .passed0 => !(k.stage != 6 && k.wave == w && k.x == x)
      | _ => true

/-- Whether a slot is to complete the instance that has passed at step 0. -/
def State.completing (s : State) (w : Nat) (x : SlotId) : Bool :=
  match s.slotCheck w x with
  | some k => k.phase == .passed0 && k.again
  | none => false

/-! ### Step 0, the governor, the supply -/

/-- The instance executes once at step 0 (R311); a persistent injection fails it there too (R253). One that is no more needs no
completion. -/
def step0Reexecute (s : State) (core : Nat) (late : Bool) : State :=
  let m := s.margin core
  match (s.core core).checks.find? fun c => (c.phase == .step0 || c.phase == .passed0) && s.gone c with
  | some c => finishStep0 s core c
  | none =>
    match (s.core core).checks.find? fun c => c.phase == .step0 with
    | none => s
    | some c =>
      if m.cur ≠ 0 then s
      else if late || c.inj then
        (s.setMargin core { m.expire s.cycle with qdue := 1 }).setCheck core { c with phase := .failed0 }
      else if c.again then s.setCheck core { c with phase := .passed0 }
      else finishStep0 (s.release c) core c

/-- STEP0_REEXECUTE (R311). -/
def execStep0Reexecute (core : Nat) (late : Bool) (s : State) : Out := .next (step0Reexecute s core late)

/-- GOVERNOR_RAISE (R252): a raise, and a new count. -/
def execGovernorRaise (core : Nat) (s : State) : Out :=
  .next (let m := s.margin core
    if m.raiseDue then s.setMargin core m.govRaise else s)

/-- EVENT_WINDOW_EXPIRY (R252, R312). -/
def execEventWindowExpiry (core : Nat) (s : State) : Out :=
  .next (s.setMargin core ((s.margin core).expire s.cycle))

/-- The step that the supply moves to: 0 for an escalation or a quarantine that falls due, else STEP. -/
def Core.target (c : Core) : Nat :=
  if c.margin.qdue != 0 || c.checks.any fun k => k.phase == .step0 || k.phase == .failed0 || k.phase == .passed0 then 0 else c.margin.step

/-- MARGIN_SETTLE_COMPLETE (R251). -/
def execMarginSettleComplete (core : Nat) (s : State) : Out :=
  .next (let m := s.margin core
    if m.state ≠ 1 then s else s.setMargin core { m with cur := (s.core core).target, state := 0 })

/-! ### Quarantine (R312–R315) -/

/-- The operation whose row failed at step 0 waits for another core. -/
def Core.failHead (c : Core) : Core :=
  match c.rowCheck, c.queue with
  | some k, o :: rest => if k.phase = .failed0 then { c with queue := { o with failed := true } :: rest } else c
  | _, _ => c

/-- An access that failed its check at step 0 is discarded: its slot is at its instruction again (R313). What a slot issued
before a trap, or before its flow went onto the stack, stays in the gate and completes on the new core (R275; log 54). -/
def State.undoAccess (s : State) (c : Check) : State :=
  let W := s.wave c.wave
  let mine (g : Gated) : Bool := g.hand == W.handler && g.mask == (W.slot c.x).mask
  let back (V : Wave) (pc : Word) : State := s.setWave c.wave (V.setSlot c.x { V.slot c.x with pc := pc, chain := none })
  if c.again ∨ c.phase ≠ .failed0 ∨ (c.stage ≠ 5 ∧ c.stage ≠ 7) then s
  else
    match W.pend, W.gate c.x with
    | .load y pc .., g =>
      if y = c.x then back { W with pend := .none } pc
      else match g with | some g => if mine g then back (W.ungate c.x) g.pc else s | none => s
    | _, some g => if mine g then back (W.ungate c.x) g.pc else s
    | _, none => s

/-- QUARANTINE: steps 1 and 5 of R313. Accesses that failed at step 0 are discarded, and an XV under check stays held. -/
def quarantineCore (s : State) (core : Nat) : State :=
  let m := s.margin core
  if m.qdue = 0 then s
  else
    let q := putBits (putBits m.qinfo 32 32 s.cycle) (if m.qdue = 1 then 8 else 9) 1 1
    let c := (s.core core).failHead
    let s1 := (c.checks.foldl State.undoAccess s).setCore core { c with
      checks := [], margin := { m with state := 2, cur := 0, qinfo := q, qdue := 0, handled := [] } }
    (s1.stopCapsules (2 * core)).stopCapsules (2 * core + 1)

/-- QUARANTINE (R313). -/
def execQuarantine (core : Nat) (s : State) : Out := .next (quarantineCore s core)

/-- The target of a bank's team (R314). -/
def State.moveTarget (s : State) (b : Nat) (t : Team) : Option Nat :=
  let core := coreOfBank b
  let cores := (List.range 7).map fun i => core / 8 * 8 + (core % 8 + 1 + i) % 8
  (cores.flatMap fun c => [2 * c, 2 * c + 1]).find? fun b' =>
    s.mayTake b' t.vf t.footprint (s.bufSize b) && !s.setOn (coreOfBank b') t

/-- A wave of a quarantined core without a target is parked with TIMING (R314). -/
def State.timingPark (s : State) (w : Nat) : State :=
  let W := s.wave w
  if !W.resident then s
  else if W.service.isSome then s.ringAdd w Cause.timing.code W.handler false
  else if W.handler then
    (s.setWave w { W with service := some { nested := false, timing := true } }).ringAdd w Cause.timing.code true false
  else
    let x : SlotId := if W.slotA.live then .a else .b
    takeTrap s w x (instrTrap .timing 0 (s.stopped w x).pc)

/-- A team of a quarantined core that is still to be moved or parked: until then nothing else takes its bank (R324). -/
def State.awaitsMove (s : State) (b : Nat) : Bool :=
  s.quarantined (coreOfBank b) && (s.bank b).team.isSome && !(s.margin (coreOfBank b)).handled.contains b
/-- Those that are drained. -/
def State.toMove (s : State) (core : Nat) : List Nat :=
  [2 * core, 2 * core + 1].filter fun b => s.awaitsMove b && s.bankQuiet b

/-- A swap that was to make a moved bank active acts on the bank that it has come to (R324). -/
def State.moveSwap (s : State) (b b' : Nat) : State :=
  let C := s.core (coreOfBank b)
  let D := s.core (coreOfBank b')
  if C.swapTo = some (b % 2) ∧ D.active < 2 ∧ D.active ≠ b' % 2 ∧ D.swapTo.isNone = true then s.startSwap (coreOfBank b') (b' % 2)
  else s

/-- QUARANTINE_MOVE: steps 6 and 7 of R313 for each bank that is drained. -/
def quarantineMove (s : State) (core : Nat) : State :=
  (s.toMove core).foldl (fun u b =>
    match (u.bank b).team with
    | none => u
    | some t =>
      match u.moveTarget b t with
      | some b' =>
        let u1 := ((u.moveTeam b b').resumeWaves b').moveSwap b b'
        match (bankWaves b').find? fun w => (u1.wave w).resident with
        | some w => u1.ringAdd w Cause.quar.code false false
        | none => u1
      | none =>
        let m := u.margin core
        (bankWaves b).foldl State.timingPark (u.setMargin core { m with handled := b :: m.handled })) s

/-- QUARANTINE_MOVE (R314). -/
def execQuarantineMove (core : Nat) (s : State) : Out := .next (quarantineMove s core)

/-- The record of a quarantine's move of a bank's team is still to be written: until then its waves do not issue (R347). -/
def State.moveRecordWaits (s : State) (b : Nat) : Bool :=
  s.parts.any fun e => e.2.ringWait.any fun r => r.ticket == 0 && r.cause == Cause.quar.code && bankOf r.wave == b

end Sys2Proof.Machine
end

