-- ==== Sys2Proof/Machine/Launch.lean ====
section
/-! DEFINITION. Machine/Launch.lean: the front ends: packets and descriptors (R232–R235, R241, R308), launches from the
network (R236), choices and placement (R237–R239), wave start (R21), completion (R35, R228), and the audit's re-runs
(R317–R319). -/
namespace Sys2Proof.Machine

/-! ### Tenant memory as a front end reads and writes it -/

/-- The physical address behind a tenant address of a VF; none where the access faults. Queue reads never park (R308). A
write to a page that the root of trust guards is refused (R261). -/
def State.cfePa (s : State) (vf va : Nat) (write : Bool) : Option Nat :=
  if 2 ^ 56 ≤ va then none
  else
    match walk s vf va with
    | .leaf l => if l.conf || (write && (!l.w || s.guarded (l.pa va))) then none else some (l.pa va)
    | _ => none

/-- A byte, none where its read faults or it is poisoned. -/
def State.cfeByte (s : State) (vf va : Nat) : Option Byte :=
  match s.cfePa vf va false with
  | none => none
  | some pa => if s.poisoned pa 1 then none else some (s.byte pa)

/-- Eight bytes, little-endian. -/
def State.cfeWord (s : State) (vf va : Nat) : Option Word :=
  if va % 8 = 0 then
    match s.cfePa vf va false with
    | none => none
    | some pa => if s.poisoned pa 8 then none else some (BitVec.ofNat 64 (s.readPhys pa 8))
  else
    let bs := (List.range 8).filterMap fun i => s.cfeByte vf (va + i)
    if bs.length = 8 then some (BitVec.ofNat 64 (leValue bs)) else none

/-- `n` words from an address. -/
def State.cfeWords (s : State) (vf va n : Nat) : Option (List Word) :=
  let ws := (List.range n).filterMap fun i => s.cfeWord vf (va + 8 * i)
  if ws.length = n then some ws else none

/-! ### Packets (R17, R234, R308) -/

def Launch.type (l : Launch) : Nat := bitsOf (l.word 0) 0 8
def Launch.nwait (l : Launch) : Nat := bitsOf (l.word 0) 11 3
def Launch.sigop (l : Launch) : Nat := bitsOf (l.word 0) 20 2
def Launch.sigaddr (l : Launch) : Nat := l.word 4
def Launch.sigval (l : Launch) : Nat := l.word 5
def Launch.waitlist (l : Launch) : Nat := l.word 6
/-- A team's part of the cluster allocation, and its footprint (R18). -/
def Launch.clPart (l : Launch) : Nat := l.clspm / l.span
def Launch.footprint (l : Launch) : Nat := l.spm + l.clPart + 1024 * l.waves

/-- SPLIT of a partition (R259). -/
def State.splitOf (s : State) (p : Nat) : Nat := s.regBits (partOff p) 16 4
/-- The largest bank share of a partition. -/
def State.maxShare (s : State) (p : Nat) : Nat := 0x10000 * Nat.max (s.splitOf p) (8 - s.splitOf p)

/-- A packet that its queue refuses: another TYPE, a reserved field, a field outside its range (R17, R308). -/
def Launch.bad (l : Launch) (maxShare : Nat) : Bool :=
  l.type != 1 || bitsOf (l.word 0) 22 2 != 0 || bitsOf (l.word 0) 48 16 != 0 || l.word 7 != 0
    || decide (4 < l.nwait) || l.waves == 0 || decide (8 < l.waves) || l.sigop == 3
    || (l.sigop != 0 && l.sigaddr % 8 != 0)
    || l.teams == 0 || l.teams % l.span != 0
    || decide (0x40000 < l.spm) || l.spm % 128 != 0
    || decide (0x200000 < l.clspm) || l.clspm % (128 * l.span) != 0
    || l.word 2 % 64 != 0 || decide (2 ^ 56 ≤ l.word 2) || decide (maxShare < l.footprint)

/-- The kernel descriptor's first words, and the checks of R241 on them. -/
def descBad (d0 : Nat) : Bool :=
  bitsOf d0 0 32 != 0x52444B34 || bitsOf d0 32 8 != 4 || bitsOf d0 53 3 != 0
    || (bitsOf d0 57 1 == 1 && bitsOf d0 40 8 != 1)

/-- Whether a physical address is that of a valid entry of the partition's service image table (R261). -/
def State.imageValid (s : State) (p pa : Nat) : Bool :=
  (List.range 16).any fun i =>
    s.regBits (imageOff p i) 63 1 == 1 && s.regBits (imageOff p i) 0 56 == pa

/-- The descriptor of a launch, none if it is refused: ENTRY and LOADID. -/
def State.descriptor (s : State) (l : Launch) : Option (Word × Word) :=
  match s.cfeWords l.vf (l.word 1) 3 with
  | some [d0, entry, loadid] =>
    if descBad d0.toNat then none
    else if l.system then
      (match s.cfePa l.vf (l.word 1) false with
      | some pa => if s.imageValid l.part pa then some (entry, loadid) else none
      | none => none)
    else some (entry, loadid)
  | _ => none

/-- How many teams of a launch its partition holds with every bank free, quarantined cores apart (R239). -/
def State.capacity (s : State) (p : Nat) (l : Launch) : Nat :=
  let k := (if l.footprint ≤ 0x10000 * s.splitOf p then 1 else 0) + (if l.footprint ≤ 0x80000 - 0x10000 * s.splitOf p then 1 else 0)
  (partRange (s.reg (partOff p))).foldl (fun n c =>
    let cores := ((List.range 8).filter fun i => !s.quarantined (8 * c + i)).length
    if cores < l.span then n else n + k * cores / l.span * l.span) 0

/-- A CORES launch that is too large. -/
def State.tooLarge (s : State) (p : Nat) (l : Launch) : Bool := l.flagCores && decide (s.capacity p l < l.teams)

/-- RIDX goes on by one, modulo 2 × size. -/
def State.nextPacket (s : State) (vf q : Nat) : State :=
  s.setRegBits (queueOff vf q + 24) 0 17 ((s.qRidx vf q + 1) % (2 * s.qSize vf q))

/-- The launch of a packet. -/
def newLaunch (s : State) (vf q : Nat) (addr : Word) (packet : List Word) : Launch :=
  let l : Launch :=
    { key := s.nextKey, part := s.vfPart vf, vf := vf, q := q, packetAddr := addr, packet := packet, entry := 0, loadid := 0
      system := s.vfSvc vf, waited := false, placed := 0, retired := 0, rollbacks := 0, snapLost := false, sentNet := false
      killed := false, snaps := [], unsnapped := [] }
  { l with waited := l.nwait == 0 }

/-- Whether the CFE reads a packet of a queue (R233, R256, R308). -/
def State.fetchDue (s : State) (vf q : Nat) : Bool :=
  s.vfEn vf && s.partEn (s.vfPart vf) && s.qEn vf q && !s.qErr vf q && s.qPending vf q != 0 && (s.qHead vf q).isNone

/-- The packet at the head of a queue: fetched, checked and taken, or the queue in ERROR with RIDX at it (R308). -/
def packetFetch (s : State) (vf q : Nat) : State :=
  if !s.fetchDue vf q then s
  else
    let addr := s.reg (queueOff vf q) + BitVec.ofNat 64 (64 * (s.qRidx vf q % s.qSize vf q))
    match s.cfeWords vf addr.toNat 8 with
    | none => s.queueError vf q addr
    | some packet =>
      let l := newLaunch s vf q addr packet
      if l.type = 0 then s.nextPacket vf q
      else if l.bad (s.maxShare l.part) then s.queueError vf q addr
      else
        match s.descriptor l with
        | none => s.queueError vf q addr
        | some (entry, loadid) =>
          if s.tooLarge l.part l then s.queueError vf q addr
          else
            let s1 := s.nextPacket vf q
            { s1 with
              nextKey := s1.nextKey + 1, launches := s1.launches ++ [{ l with entry := entry, loadid := loadid }] }

/-- PACKET_FETCH (R233). -/
def execPacketFetch (vf q : Nat) (s : State) : Out := .next (packetFetch s vf q)

/-! ### Signals (R235) -/

/-- What reading a launch's wait list comes to. -/
inductive Signals where
  | satisfied | waiting
  | fault (addr : Nat)
deriving DecidableEq, Repr

/-- A word of a wait list or a signal; one that is not aligned faults. -/
def State.sigWord (s : State) (vf va : Nat) : Option Word := if va % 8 = 0 then s.cfeWord vf va else none

/-- Read the pairs from one on, in order. -/
def readSignals (s : State) (l : Launch) : Nat → Nat → Signals
  | 0, _ => .satisfied
  | n + 1, i =>
    let at_ := l.waitlist + 16 * i
    match s.sigWord l.vf at_, s.sigWord l.vf (at_ + 8) with
    | none, _ => .fault at_
    | _, none => .fault (at_ + 8)
    | some a, some v =>
      match s.sigWord l.vf a.toNat with
      | none => .fault a.toNat
      | some x =>
        match readSignals s l n (i + 1) with
        | .fault e => .fault e
        | .waiting => .waiting
        | .satisfied => if v.toNat ≤ x.toNat then .satisfied else .waiting

/-- The wait list of a launch. -/
def State.signals (s : State) (l : Launch) : Signals := readSignals s l l.nwait 0

/-- A launch goes, never placed whole. -/
def State.dropLaunch (s : State) (key : Nat) : State := { s with launches := s.launches.filter fun m => m.key ≠ key }

/-- The CFE reads the signals of a waiting launch again. -/
def signalReread (s : State) (vf q : Nat) : State :=
  match s.qHead vf q with
  | none => s
  | some l =>
    if l.waited then s
    else
      match s.signals l with
      | .waiting => s
      | .satisfied => s.setLaunch { l with waited := true }
      | .fault a => (s.dropLaunch l.key).queueError vf q (BitVec.ofNat 64 a)

/-- SIGNAL_REREAD (R235). -/
def execSignalReread (vf q : Nat) (s : State) : Out := .next (signalReread s vf q)

/-! ### Launches from the network (R236) -/

/-- Fields of a launch table entry. -/
structure TableEntry where
  valid : Bool
  vf : Nat
  queue : Nat
  maxTeams : Nat
  tenant : Nat
  credit : Nat
  credMax : Nat
  refill : Nat
  allowN : Nat
  allow : Nat
deriving DecidableEq, Repr

def State.tableEntry (s : State) (i : Nat) : TableEntry :=
  let o := launchTblOff i
  { valid := s.regBits o 0 1 == 1, vf := s.regBits o 8 8, queue := s.regBits o 16 3, maxTeams := s.regBits o 24 24
    tenant := s.regBits (o + 8) 0 32, credit := s.regBits (o + 8) 32 16, credMax := s.regBits (o + 8) 48 16
    refill := s.regBits (o + 16) 0 16, allowN := s.regBits (o + 16) 16 16
    allow := s.regBits (o + 16) 32 32 + s.regBits (o + 24) 0 32 * 2 ^ 32 }

def State.setCredit (s : State) (i n : Nat) : State := s.setRegBits (launchTblOff i + 8) 32 16 n

/-- Where a packet from the network goes, if its ring takes it: 64 bytes of writable tenant memory. -/
def State.ringSlot (s : State) (e : TableEntry) : Option Nat :=
  if s.qNet e.vf e.queue && s.qEn e.vf e.queue && decide (s.qPending e.vf e.queue < s.qSize e.vf e.queue) then
    s.cfePa e.vf ((s.reg (queueOff e.vf e.queue)).toNat + 64 * (s.qWidx e.vf e.queue % s.qSize e.vf e.queue)) true
  else none

/-- The code of the first check that a message fails; 0 for none. -/
def State.messageCode (s : State) (tenant : W32) (pre : Word) (packet : List Word) : Nat :=
  let e := s.tableEntry (pre.toNat % 256)
  let word (n : Nat) : Nat := (packet.getD n 0).toNat
  if !e.valid || decide (256 ≤ pre.toNat) then 1
  else if tenant.toNat ≠ e.tenant then 2
  else if !(List.range e.allowN).any fun k => s.readPhys (e.allow + 8 * k) 8 == word 1 then 3
  else if e.maxTeams < bitsOf (word 0) 24 24 then 4
  else if e.credit = 0 then 5
  else if (s.ringSlot e).isNone then 6
  else 0

/-- The I/O die of an Ethernet port (R8). -/
def portIo (port : Nat) : Nat := if port < 6 then 0 else 1

/-- A launch message at a port: refused with its code, or written into its ring. -/
def launchMessage (s : State) (tenant : W32) (port : Nat) (pre : Word) (packet : List Word) : State :=
  let i := pre.toNat % 256
  let e := s.tableEntry i
  match s.messageCode tenant pre packet with
  | 0 =>
    match s.ringSlot e with
    | none => s
    | some pa =>
      let s1 := s.setCredit i (e.credit - 1)
      let s2 := s1.pokeBytes pa (packet.flatMap fun v => leBytes 8 v.toNat)
      s2.setRegBits (queueOff e.vf e.queue + 16) 0 17 ((s.qWidx e.vf e.queue + 1) % (2 * s.qSize e.vf e.queue))
  | c => (s.logSys (ioDie (portIo port)) (BitVec.ofNat 64 i)).out (.nack c)

/-- HXT_LAUNCH_MESSAGE (R236). -/
def execHxtLaunchMessage (tenant : W32) (port : Nat) (pre : Word) (packet : List Word) (s : State) : Out :=
  .next (launchMessage s tenant port pre packet)

/-- CREDIT after a refill. -/
def TableEntry.refilled (e : TableEntry) : Nat :=
  if e.credMax ≤ e.credit then e.credit else Nat.min (e.credit + e.refill) e.credMax

/-- One refill of every entry, for each 65,536 cycles. -/
def refillCredits (s : State) : State :=
  if s.cycle / 65536 ≤ s.creditEpoch then s
  else
    { ((List.range 256).foldl (fun (t : State) i => t.setCredit i (t.tableEntry i).refilled) s) with
      creditEpoch := s.creditEpoch + 1 }

/-- LAUNCH_CREDIT_REFILL (R236). -/
def execLaunchCreditRefill (s : State) : Out := .next (refillCredits s)

/-! ### Placement (R238) and wave start (R21) -/

/-- Banks of a cluster in the order in which they are tried, but for those of a core: bank 0 of cores 0 to 7, then bank
1. -/
def clusterOrder (c : Nat) (not_ : Option Nat) : List Nat :=
  ([0, 1].flatMap fun k => (List.range 8).map fun n => 16 * c + 2 * n + k).filter fun b => some (coreOfBank b) != not_

/-- The first `n` banks in distinct cores, in rising core order. -/
def pickCores (n c : Nat) (bs : List Nat) : Option (List Nat) :=
  let picks := bs.foldl (fun (acc : List Nat) b =>
    if acc.length < n && !acc.any fun a => coreOfBank a == coreOfBank b then acc ++ [b] else acc) []
  if picks.length = n then
    some ((List.range 8).filterMap fun i => picks.find? fun b => coreOfBank b == 8 * c + i)
  else none

/-- The banks of a launch's next set, in SETIX order: the first fit. -/
def State.setPlace (s : State) (l : Launch) : Option (List Nat) :=
  (partRange (s.reg (partOff l.part))).findSome? fun c =>
    pickCores l.span c ((clusterOrder c none).filter fun b => s.fits b l.vf l.footprint)

/-- A wave starts (R21, R26, R278): the registers keep what the bank holds. -/
def State.startWave (s : State) (l : Launch) (b i : Nat) : State :=
  let w := 8 * b + i
  let area : Word := 0xFF00000000000000 + BitVec.ofNat 64 (l.spm + 1024 * i)
  s.setWave w { (s.wave w).vacate with
    resident := true, slotA := { Slot.free with live := true, pc := l.entry, mask := BitVec.allOnes 128 }
    liveLanes := BitVec.allOnes 128, dsp := area, dslim := area + 1024, system := l.system }

/-- A team starts in a bank: its owner's storage zeroed if the owner changes (R51), the points zero (R50), the deque
empty (R178), and every wave at the kernel entry. -/
def State.startTeam (s : State) (l : Launch) (b : Nat) (t : Team) : State :=
  let s1 := s.giveBank b l.vf
  let s2 := s1.setBank b { s1.bank b with team := some t, rvs := [], deque := [], waitQ := [] }
  (List.range t.waves).foldl (fun (u : State) i => u.startWave l b i) s2

/-- Team `id` of a launch, as member `j` of a set. -/
def teamFor (l : Launch) (id j : Nat) (set : List Nat) (sampled : Bool) : Team :=
  { launch := l.key, vf := l.vf, teamId := id, setIx := j, setBanks := set, span := bitsOf (l.word 0) 18 2, waves := l.waves
    spSize := l.spm, clPart := l.clPart, retired := 0, sampled := sampled, rerun := false }

/-- AUDIT_SAMPLING (R317): each team of an AUDIT launch adds RATE; a carry samples it. -/
def State.sample (s : State) (l : Launch) : State × Bool :=
  if l.flagAudit then
    let P := s.part l.part
    let n := P.audacc.toNat + P.audrate.toNat
    (s.setPart l.part { P with audacc := BitVec.ofNat 16 n }, decide (2 ^ 16 ≤ n))
  else (s, false)

/-- A team is placed, and its audit opened if it is sampled (R318). -/
def State.placeTeam (s : State) (l : Launch) (set : List Nat) (e : Nat × Nat) : State :=
  let id := l.placed + e.2
  let (s1, hit) := s.sample l
  let s2 := s1.startTeam l e.1 (teamFor l id e.2 set hit)
  if hit then
    { s2 with audits := s2.audits ++ [{
        launch := l.key, team := id, core := coreOfBank e.1, retired := false, before := [], wrote := [], rerun := none
        finished := false, again := [] }] }
  else s2

/-- A set is placed. -/
def State.placeSet (s : State) (l : Launch) (set : List Nat) : State :=
  (set.zipIdx.foldl (fun (t : State) e => t.placeTeam l set e) s).setLaunch { l with placed := l.placed + set.length }

/-- Whether `n` more sets of a launch fit at once (R239). -/
def State.allFit : Nat → State → Launch → Bool
  | 0, _, _ => true
  | n + 1, s, l =>
    match s.setPlace l with
    | none => false
    | some set => State.allFit n (s.placeSet l set) l

/-! ### The audit's re-runs (R318, R319) -/

/-- A re-run's first free bank: the partition's other dies, the die's other clusters, the cluster's other cores. -/
def State.rerunTarget (s : State) (a : Audit) (l : Launch) : Option Nat :=
  let cs := partRange (s.reg (partOff l.part))
  let c0 := clusterOf a.core
  let order := (cs.filter fun c => c / 8 != c0 / 8) ++ (cs.filter fun c => c / 8 == c0 / 8 && c != c0) ++ [c0]
  (order.flatMap fun c => clusterOrder c (some a.core)).find? fun b => s.fits b l.vf l.footprint

/-- Every other core of the partition is quarantined. -/
def State.noOther (s : State) (a : Audit) (l : Launch) : Bool :=
  (partRange (s.reg (partOff l.part))).all fun c => (List.range 8).all fun i =>
    8 * c + i == a.core || s.quarantined (8 * c + i)

/-- Whether a team of a launch, or its re-run, has a transfer outstanding. -/
def State.teamBusy (s : State) (key team : Nat) : Bool :=
  s.xfers.any fun x => x.launch == key && x.team.teamId == team

/-- A sampled team that has retired waits for its re-run. -/
def State.rerunWaits (s : State) (a : Audit) : Bool :=
  a.retired && a.rerun.isNone && !s.teamBusy a.launch a.team

/-- The CFE of a partition may place teams (R264, R323). -/
def State.placing (s : State) (p : Nat) : Bool := s.partEn p && s.partState p == 0 && !(s.part p).tornDown

/-- A CORES launch whose sets are being placed (R239). -/
def State.coresLock (s : State) (p : Nat) : Option Launch :=
  s.launches.find? fun l => l.part == p && l.flagCores && decide (0 < l.placed) && decide (l.placed < l.teams)

/-- The bank that a pending re-run takes now. -/
def State.rerunBank (s : State) (a : Audit) : Option Nat :=
  match s.launchOf a.launch with
  | none => none
  | some l =>
    if s.rerunWaits a && s.placing l.part && (s.coresLock l.part).isNone then s.rerunTarget a l else none

/-- A sample whose re-run no core can take. -/
def State.abandoned (s : State) (a : Audit) : Bool :=
  match s.launchOf a.launch with
  | none => false
  | some l => s.rerunWaits a && s.noOther a l

def State.auditFor (s : State) (key team : Nat) : Option Audit := s.audits.find? fun a => a.launch == key && a.team == team
/-- The audit log is freed. -/
def State.dropAudit (s : State) (key team : Nat) : State :=
  { s with audits := s.audits.filter fun a => !(a.launch == key && a.team == team) }

/-- The team as it runs again, alone: its part of the cluster allocation is its window (log 34). -/
def rerunTeam (l : Launch) (id b : Nat) : Team :=
  { launch := l.key, vf := l.vf, teamId := id, setIx := id % l.span, setBanks := [b], span := bitsOf (l.word 0) 18 2
    waves := l.waves, spSize := l.spm, clPart := l.clPart, retired := 0, sampled := false, rerun := true }

/-- A pending re-run starts in its bank, or is abandoned. -/
def auditRerun (s : State) (key team bank : Nat) : State :=
  match s.auditFor key team, s.launchOf key with
  | some a, some l =>
    if s.abandoned a then s.dropAudit key team
    else if s.rerunBank a = some bank then
      (s.setAudit { a with rerun := some bank }).startTeam l bank (rerunTeam l team bank)
    else s
  | _, _ => s

/-- AUDIT_RERUN (R318). -/
def execAuditRerun (l team bank : Nat) (s : State) : Out := .next (auditRerun s l team bank)

/-- A signature (R318). -/
def signature (ls : List (Nat × List Byte)) : BitVec 64 := ls.foldl (fun h e => h ^^^ Config.auditHash e.1 e.2) 0

/-- A mismatch is charged to a core: SUSPECT, MISMATCH, and a raise where GOV = 1 (R319). -/
def Margin.charge (m : Margin) : Margin :=
  let q := putBits (putBits m.qinfo 10 1 1) 16 8 (Nat.min (bitsOf m.qinfo.toNat 16 8 + 1) 255)
  let m1 := { m with qinfo := q }
  if m1.gov then m1.raiseStep else m1

/-- A re-run that has finished is compared with the first run. -/
def auditCompare (s : State) (key team : Nat) : State :=
  match s.auditFor key team with
  | none => s
  | some a =>
    if !a.finished || s.teamBusy key team then s
    else
      let s1 := s.countDie (dieOf a.core) 0x85 none
      if signature a.wrote = signature a.again then s1.dropAudit key team
      else
        let s2 := s1.setMargin a.core (s1.margin a.core).charge
        (s2.countDie (dieOf a.core) 0x86 none).rollback key false

/-- AUDIT_COMPARE (R319). -/
def execAuditCompare (l team : Nat) (s : State) : Out := .next (auditCompare s l team)

/-! ### Choices (R237, R239) -/

/-- Whether a launch at the head of its queue is a candidate. -/
def State.candidate (s : State) (l : Launch) : Bool :=
  l.waited && (if l.flagCores && l.placed == 0 then s.allFit (l.teams / l.span) l else (s.setPlace l).isSome)

/-- The queues of a partition's VFs. -/
def State.queuesOf (s : State) (p : Nat) : List (Nat × Nat) :=
  ((List.range 192).filter fun v => s.vfEn v && s.vfPart v == p).flatMap fun v => (List.range 8).map fun q => (v, q)

/-- The queues that have a candidate. -/
def State.candidates (s : State) (p : Nat) : List (Nat × Nat) :=
  (s.queuesOf p).filter fun e => match s.qHead e.1 e.2 with
    | some l => l.part == p && s.candidate l
    | none => false

/-- How many choices may still go to others before VF `v` must have one, with `W` the sum of weights. -/
def State.slack (s : State) (p W v : Nat) : Nat :=
  W - s.regBits (vfOff v) 2 4 - SMap.get (fun _ => 0) (s.part p).turns v

/-- A choice for `v` leaves every other VF its turn in time. -/
def State.mayChoose (s : State) (p W : Nat) (vs : List Nat) (v : Nat) : Bool :=
  let others := vs.filter fun u => u != v
  others.all fun u => decide ((others.filter fun t => decide (s.slack p W t ≤ s.slack p W u)).length ≤ s.slack p W u)

/-- The VFs that a choice may go to, of those with a candidate at the level; if none leaves every other its turn, those
whose turn is the most pressing. -/
def State.chooseVf (s : State) (p : Nat) (vs : List Nat) : List Nat :=
  let W := (vs.map fun v => s.regBits (vfOff v) 2 4).foldl (· + ·) 0
  let ok := vs.filter (s.mayChoose p W vs)
  if ok ≠ [] then ok else vs.filter fun v => vs.all fun u => decide (s.slack p W v ≤ s.slack p W u)

/-- The queue of a VF that is next in turn at a level. -/
def nextQueue (last : Nat) (qs : List Nat) : Nat :=
  (((List.range 8).map fun i => (last + 1 + i) % 8).find? fun q => qs.contains q).getD 0

/-- The queues at the highest level that has a candidate, with that level. -/
def State.topLevel (s : State) (cs : List (Nat × Nat)) : Nat × List (Nat × Nat) :=
  let top := cs.foldl (fun n e => Nat.max n (s.qPrio e.1 e.2)) 0
  (top, cs.filter fun e => s.qPrio e.1 e.2 == top)

/-- The choices that a partition's CFE may make now. -/
def State.choosable (s : State) (p : Nat) : List (Nat × Nat) :=
  if !s.placing p then []
  else
    match s.coresLock p with
    | some l => if (s.setPlace l).isSome then [(l.vf, l.q)] else []
    | none =>
      if s.audits.any fun a => (match s.launchOf a.launch with | some l => l.part == p | none => false) && (s.rerunBank a).isSome
      then []
      else
        let (top, cs) := s.topLevel (s.candidates p)
        (s.chooseVf p (cs.map (·.1)).eraseDups).map fun v =>
          (v, nextQueue (SMap.get (fun _ => 7) (s.part p).lastQ (4 * v + top))
            ((cs.filter fun e => e.1 == v).map (·.2)))

/-- The turns after a choice for VF `v`: its queues go round at the level of the chosen one. -/
def State.takeTurn (s : State) (p v q : Nat) : State :=
  let (_, cs) := s.topLevel (s.candidates p)
  let P := s.part p
  s.setPart p { P with
    turns := (cs.map (·.1)).eraseDups.foldl (fun m u =>
      SMap.set (fun _ => 0) m u (if u = v then 0 else SMap.get (fun _ => 0) P.turns u + 1)) []
    lastQ := SMap.set (fun _ => 7) P.lastQ (4 * v + s.qPrio v q) q }

/-- The launch that a choice for a queue places. -/
def State.chosen (s : State) (p vf q : Nat) : Option Launch :=
  match s.coresLock p with
  | some l => some l
  | none => s.qHead vf q

/-- A choice places one cluster set of the launch at the head of a queue. -/
def cfeChoice (s : State) (p vf q : Nat) : State :=
  if !(s.choosable p).contains (vf, q) then s
  else
    match s.chosen p vf q with
    | none => s
    | some l =>
      match s.setPlace l with
      | none => s
      | some set => (s.takeTurn p vf q).placeSet l set

/-- CFE_CHOICE (R237). -/
def execCfeChoice (p vf q : Nat) (s : State) : Out := .next (cfeChoice s p vf q)

/-! ### Completion (R35, R228, R235) -/

/-- Every team has retired, and every effect that they issued is complete (R35, R319). -/
def State.launchDone (s : State) (l : Launch) : Bool :=
  l.placed == l.teams && l.retired == l.teams
    && !s.xfers.any (fun x => x.launch == l.key) && !s.audits.any (fun a => a.launch == l.key)
    && !s.cores.any (fun c => c.2.queue.any fun o => o.launch == l.key)
    && !s.banks.any fun b => b.2.loads.any fun t => t.launch == l.key

/-- The root of trust logs a front end's write that it refuses (R261, R290). -/
def State.logGuard (s : State) (vf va : Nat) : State :=
  match s.cfePa vf va false with
  | some pa => if s.guarded pa then s.logSys (ioDie 0) (BitVec.ofNat 64 pa) else s
  | none => s

/-- The front end of a partition writes from the first die of its range: what every die has written comes before (R225, R228;
log 5). -/
def State.cfeWrite (s : State) (p pa n v : Nat) : State :=
  let d := (partRange (s.reg (partOff p))).headD 0 / 8
  ((s.observeIf d fun _ => true).crossFrom d pa none).poke pa n v

/-- The completion signal: SIGOP 1 writes SIGVAL, SIGOP 2 adds it. -/
def State.signalLaunch (s : State) (l : Launch) : State :=
  if l.sigop = 0 ∨ l.killed = true then s
  else
    match s.cfePa l.vf l.sigaddr true with
    | none => (s.logGuard l.vf l.sigaddr).queueError l.vf l.q (BitVec.ofNat 64 l.sigaddr)
    | some pa =>
      if l.sigop = 1 then s.cfeWrite l.part pa 8 l.sigval
      else if s.poisoned pa 8 then s.queueError l.vf l.q (BitVec.ofNat 64 l.sigaddr)
      else s.cfeWrite l.part pa 8 (s.readPhys pa 8 + l.sigval)

/-- Buffers that a launch has posted and no message has begun to fill are withdrawn (R204). -/
def State.withdraw (s : State) (key : Nat) : State :=
  { s with posted := (s.posted.map fun e => (e.1, e.2.filter fun p => p.team.launch ≠ key)).filter fun e => e.2 ≠ [] }

/-- A launch completes. -/
def completeLaunch (s : State) (key : Nat) : State :=
  match s.launchOf key with
  | none => s
  | some l =>
    if !s.launchDone l then s
    else (((s.withdraw key).freeSnaps l).dropLaunch key).signalLaunch l

/-- LAUNCH_COMPLETION (R35). -/
def execLaunchCompletion (l : Nat) (s : State) : Out := .next (completeLaunch s l)

end Sys2Proof.Machine
end

