-- ==== Sys2Proof/Machine/Masks.lean ====
section
/-! DEFINITION. Machine/Masks.lean: KOP (R118). Whole 128-bit registers, whatever the slot's mask. -/
namespace Sys2Proof.Machine

/-- A KOP function that writes K[d], and one that writes S[d]. -/
def kopK (s : State) (d : KReg) (v : Mask) : Out := issue s (Info.scalar 4) fun t => (t.setK d v).advance 4
def kopS (s : State) (d : SReg) (v : Word) : Out := issue s (Info.scalar 4) fun t => (t.setS d v).advance 4

/-- KAND (R118). -/
def execKand (d a b : KReg) (s : State) : Out := kopK s d (s.K a &&& s.K b)
/-- KOR (R118). -/
def execKor (d a b : KReg) (s : State) : Out := kopK s d (s.K a ||| s.K b)
/-- KXOR (R118). -/
def execKxor (d a b : KReg) (s : State) : Out := kopK s d (s.K a ^^^ s.K b)
/-- KANDN (R118). -/
def execKandn (d a b : KReg) (s : State) : Out := kopK s d (s.K a &&& ~~~s.K b)
/-- KNOT (R118). -/
def execKnot (d a : KReg) (s : State) : Out := kopK s d (~~~s.K a)
/-- KMOV (R118). -/
def execKmov (d a : KReg) (s : State) : Out := kopK s d (s.K a)
/-- KPOPC (R118). -/
def execKpopc (d : SReg) (a : KReg) (s : State) : Out := kopS s d (BitVec.ofNat 64 (popcount (s.K a)))
/-- KFIRST (R118): 128 if there is none. -/
def execKfirst (d : SReg) (a : KReg) (s : State) : Out := kopS s d (BitVec.ofNat 64 (lowestLane (s.K a)))
/-- KLDS (R118). -/
def execKlds (d : KReg) (r : SReg) (s : State) : Out := kopK s d (s.S (r + 1) ++ s.S r)
/-- KSTS (R118). -/
def execKsts (r : SReg) (a : KReg) (s : State) : Out :=
  issue s (Info.scalar 4) fun t =>
    ((t.setS r ((t.K a).setWidth 64)).setS (r + 1) ((t.K a) >>> 64 |>.setWidth 64)).advance 4
/-- KEXEC (R118). -/
def execKexec (d : KReg) (s : State) : Out := kopK s d s.cs.mask
/-- KLANE (R118). -/
def execKlane (d : KReg) (r : SReg) (s : State) : Out :=
  kopK s d (if (s.S r).toNat < 128 then (1 : Mask) <<< (s.S r).toNat else 0)

end Sys2Proof.Machine
end

