-- ==== Sys2Proof/Machine/Scalar.lean ====
section
/-! DEFINITION. Machine/Scalar.lean: majors 0x01 to 0x08 (R102–R106). One 64-bit result to S[sd], wrapping modulo 2^64;
no flags. -/
namespace Sys2Proof.Machine

/-- High 64 bits of the product, signed and unsigned (R103). -/
def mulhS (a b : Word) : Word := ((a.signExtend 128 * b.signExtend 128) >>> 64).setWidth 64
def mulhN (a b : Word) : Word := ((a.setWidth 128 * b.setWidth 128) >>> 64).setWidth 64
/-- Division truncates toward zero; by zero it gives all ones, and −2^63 by −1 gives −2^63 (R103, R104). -/
def divS (a b : Word) : Word := if b = 0 then BitVec.allOnes 64 else a.sdiv b
def divN (a b : Word) : Word := if b = 0 then BitVec.allOnes 64 else a / b
/-- The remainder is a − b × quotient; by zero it is a (R103, R104). -/
def remS (a b : Word) : Word := if b = 0 then a else a.srem b
def remN (a b : Word) : Word := if b = 0 then a else a % b
/-- Leading and trailing zeros of a word of any width; the width when it is zero (R103). -/
def clzW {n : Nat} (a : BitVec n) : Nat := ((List.range n).find? fun i => a.getLsbD (n - 1 - i)).getD n
def ctzW {n : Nat} (a : BitVec n) : Nat := ((List.range n).find? fun i => a.getLsbD i).getD n

/-- The results of R103 by operation. -/
inductive SOp where
  | add | sub | mul | mulh | mulhn | div | divn | rem | remn | and_ | or_ | xor | andn | shl | shr | sha | rol | min_ | minn | max_ | maxn | slt | sltn | seq
deriving DecidableEq, Repr

/-- R103, R104. -/
def SOp.eval (op : SOp) (a b : Word) : Word :=
  match op with
  | .add => a + b
  | .sub => a - b
  | .mul => a * b
  | .mulh => mulhS a b
  | .mulhn => mulhN a b
  | .div => divS a b
  | .divn => divN a b
  | .rem => remS a b
  | .remn => remN a b
  | .and_ => a &&& b
  | .or_ => a ||| b
  | .xor => a ^^^ b
  | .andn => a &&& ~~~b
  | .shl => a <<< (b.toNat % 64)
  | .shr => a >>> (b.toNat % 64)
  | .sha => a.sshiftRight (b.toNat % 64)
  | .rol => a.rotateLeft (b.toNat % 64)
  | .min_ => if a.slt b then a else b
  | .minn => if a.ult b then a else b
  | .max_ => if a.slt b then b else a
  | .maxn => if a.ult b then b else a
  | .slt => flag (a.slt b)
  | .sltn => flag (a.ult b)
  | .seq => flag (a == b)

/-- An instruction of the scalar unit that a capsule body allows: it names the registers `regs` and writes S[d]. -/
def scalarOp (s : State) (len : Nat) (regs : List SReg) (d : SReg) (v : Word) : Out :=
  issue s { Info.scalar len with cap := some regs } fun t => (t.setS d v).advance len

/-- SALU with two registers, and with a literal in place of sb (R102). -/
def saluOp3 (op : SOp) (d a b : SReg) (s : State) : Out := scalarOp s 4 [d, a, b] d (op.eval (s.S a) (s.S b))
def saluLit3 (op : SOp) (d a : SReg) (l : W32) (s : State) : Out := scalarOp s 8 [d, a] d (op.eval (s.S a) (lit64 l))

/-- ADD (R103). -/
def execAdd (d a b : SReg) (s : State) : Out := saluOp3 .add d a b s
/-- ADD with a literal (R102). -/
def execAddLit (d a : SReg) (l : W32) (s : State) : Out := saluLit3 .add d a l s
/-- SUB (R103). -/
def execSub (d a b : SReg) (s : State) : Out := saluOp3 .sub d a b s
/-- SUB with a literal (R102). -/
def execSubLit (d a : SReg) (l : W32) (s : State) : Out := saluLit3 .sub d a l s
/-- MUL (R103). -/
def execMul (d a b : SReg) (s : State) : Out := saluOp3 .mul d a b s
/-- MUL with a literal (R102). -/
def execMulLit (d a : SReg) (l : W32) (s : State) : Out := saluLit3 .mul d a l s
/-- MULH (R103). -/
def execMulh (d a b : SReg) (s : State) : Out := saluOp3 .mulh d a b s
/-- MULH with a literal (R102). -/
def execMulhLit (d a : SReg) (l : W32) (s : State) : Out := saluLit3 .mulh d a l s
/-- MULHN (R103). -/
def execMulhn (d a b : SReg) (s : State) : Out := saluOp3 .mulhn d a b s
/-- MULHN with a literal (R102). -/
def execMulhnLit (d a : SReg) (l : W32) (s : State) : Out := saluLit3 .mulhn d a l s
/-- DIV (R103). -/
def execDiv (d a b : SReg) (s : State) : Out := saluOp3 .div d a b s
/-- DIV with a literal (R102). -/
def execDivLit (d a : SReg) (l : W32) (s : State) : Out := saluLit3 .div d a l s
/-- DIVN (R103). -/
def execDivn (d a b : SReg) (s : State) : Out := saluOp3 .divn d a b s
/-- DIVN with a literal (R102). -/
def execDivnLit (d a : SReg) (l : W32) (s : State) : Out := saluLit3 .divn d a l s
/-- REM (R103). -/
def execRem (d a b : SReg) (s : State) : Out := saluOp3 .rem d a b s
/-- REM with a literal (R102). -/
def execRemLit (d a : SReg) (l : W32) (s : State) : Out := saluLit3 .rem d a l s
/-- REMN (R103). -/
def execRemn (d a b : SReg) (s : State) : Out := saluOp3 .remn d a b s
/-- REMN with a literal (R102). -/
def execRemnLit (d a : SReg) (l : W32) (s : State) : Out := saluLit3 .remn d a l s
/-- AND (R103). -/
def execAnd (d a b : SReg) (s : State) : Out := saluOp3 .and_ d a b s
/-- AND with a literal (R102). -/
def execAndLit (d a : SReg) (l : W32) (s : State) : Out := saluLit3 .and_ d a l s
/-- OR (R103). -/
def execOr (d a b : SReg) (s : State) : Out := saluOp3 .or_ d a b s
/-- OR with a literal (R102). -/
def execOrLit (d a : SReg) (l : W32) (s : State) : Out := saluLit3 .or_ d a l s
/-- XOR (R103). -/
def execXor (d a b : SReg) (s : State) : Out := saluOp3 .xor d a b s
/-- XOR with a literal (R102). -/
def execXorLit (d a : SReg) (l : W32) (s : State) : Out := saluLit3 .xor d a l s
/-- ANDN (R103). -/
def execAndn (d a b : SReg) (s : State) : Out := saluOp3 .andn d a b s
/-- ANDN with a literal (R102). -/
def execAndnLit (d a : SReg) (l : W32) (s : State) : Out := saluLit3 .andn d a l s
/-- SHL (R103). -/
def execShl (d a b : SReg) (s : State) : Out := saluOp3 .shl d a b s
/-- SHL with a literal (R102). -/
def execShlLit (d a : SReg) (l : W32) (s : State) : Out := saluLit3 .shl d a l s
/-- SHR (R103). -/
def execShr (d a b : SReg) (s : State) : Out := saluOp3 .shr d a b s
/-- SHR with a literal (R102). -/
def execShrLit (d a : SReg) (l : W32) (s : State) : Out := saluLit3 .shr d a l s
/-- SHA (R103). -/
def execSha (d a b : SReg) (s : State) : Out := saluOp3 .sha d a b s
/-- SHA with a literal (R102). -/
def execShaLit (d a : SReg) (l : W32) (s : State) : Out := saluLit3 .sha d a l s
/-- ROL (R103). -/
def execRol (d a b : SReg) (s : State) : Out := saluOp3 .rol d a b s
/-- ROL with a literal (R102). -/
def execRolLit (d a : SReg) (l : W32) (s : State) : Out := saluLit3 .rol d a l s
/-- MIN (R103). -/
def execMin (d a b : SReg) (s : State) : Out := saluOp3 .min_ d a b s
/-- MIN with a literal (R102). -/
def execMinLit (d a : SReg) (l : W32) (s : State) : Out := saluLit3 .min_ d a l s
/-- MINN (R103). -/
def execMinn (d a b : SReg) (s : State) : Out := saluOp3 .minn d a b s
/-- MINN with a literal (R102). -/
def execMinnLit (d a : SReg) (l : W32) (s : State) : Out := saluLit3 .minn d a l s
/-- MAX (R103). -/
def execMax (d a b : SReg) (s : State) : Out := saluOp3 .max_ d a b s
/-- MAX with a literal (R102). -/
def execMaxLit (d a : SReg) (l : W32) (s : State) : Out := saluLit3 .max_ d a l s
/-- MAXN (R103). -/
def execMaxn (d a b : SReg) (s : State) : Out := saluOp3 .maxn d a b s
/-- MAXN with a literal (R102). -/
def execMaxnLit (d a : SReg) (l : W32) (s : State) : Out := saluLit3 .maxn d a l s
/-- SLT (R103). -/
def execSlt (d a b : SReg) (s : State) : Out := saluOp3 .slt d a b s
/-- SLT with a literal (R102). -/
def execSltLit (d a : SReg) (l : W32) (s : State) : Out := saluLit3 .slt d a l s
/-- SLTN (R103). -/
def execSltn (d a b : SReg) (s : State) : Out := saluOp3 .sltn d a b s
/-- SLTN with a literal (R102). -/
def execSltnLit (d a : SReg) (l : W32) (s : State) : Out := saluLit3 .sltn d a l s
/-- SEQ (R103). -/
def execSeq (d a b : SReg) (s : State) : Out := saluOp3 .seq d a b s
/-- SEQ with a literal (R102). -/
def execSeqLit (d a : SReg) (l : W32) (s : State) : Out := saluLit3 .seq d a l s
/-- CLZ (R103). -/
def execClz (d a : SReg) (s : State) : Out := scalarOp s 4 [d, a] d (BitVec.ofNat 64 (clzW (s.S a)))
/-- CTZ (R103). -/
def execCtz (d a : SReg) (s : State) : Out := scalarOp s 4 [d, a] d (BitVec.ofNat 64 (ctzW (s.S a)))
/-- POPC (R103). -/
def execPopc (d a : SReg) (s : State) : Out := scalarOp s 4 [d, a] d (BitVec.ofNat 64 (popcount (s.S a)))

/-- The immediate forms: imm12, or a literal, sign-extended to 64 bits (R105). -/
def immOp3 (op : SOp) (d a : SReg) (i : BitVec 12) (s : State) : Out :=
  scalarOp s 4 [d, a] d (op.eval (s.S a) (i.signExtend 64))

/-- ADDI (R105). -/
def execAddi (d a : SReg) (i : BitVec 12) (s : State) : Out := immOp3 .add d a i s
/-- ADDI with a literal (R105). -/
def execAddiLit (d a : SReg) (l : W32) (s : State) : Out := saluLit3 .add d a l s
/-- ANDI (R105). -/
def execAndi (d a : SReg) (i : BitVec 12) (s : State) : Out := immOp3 .and_ d a i s
/-- ANDI with a literal (R105). -/
def execAndiLit (d a : SReg) (l : W32) (s : State) : Out := saluLit3 .and_ d a l s
/-- ORI (R105). -/
def execOri (d a : SReg) (i : BitVec 12) (s : State) : Out := immOp3 .or_ d a i s
/-- ORI with a literal (R105). -/
def execOriLit (d a : SReg) (l : W32) (s : State) : Out := saluLit3 .or_ d a l s
/-- XORI (R105). -/
def execXori (d a : SReg) (i : BitVec 12) (s : State) : Out := immOp3 .xor d a i s
/-- XORI with a literal (R105). -/
def execXoriLit (d a : SReg) (l : W32) (s : State) : Out := saluLit3 .xor d a l s
/-- SLTI (R105). -/
def execSlti (d a : SReg) (i : BitVec 12) (s : State) : Out := immOp3 .slt d a i s
/-- SLTI with a literal (R105). -/
def execSltiLit (d a : SReg) (l : W32) (s : State) : Out := saluLit3 .slt d a l s
/-- SLTNI (R105). -/
def execSltni (d a : SReg) (i : BitVec 12) (s : State) : Out := immOp3 .sltn d a i s
/-- SLTNI with a literal (R105). -/
def execSltniLit (d a : SReg) (l : W32) (s : State) : Out := saluLit3 .sltn d a l s

/-- SHIFTI: the result of R103 with b = n (R106). -/
def shiftOp (op : SOp) (d a : SReg) (n : BitVec 6) (s : State) : Out := scalarOp s 4 [d, a] d (op.eval (s.S a) (n.setWidth 64))
/-- SHLI (R106). -/
def execShli (d a : SReg) (n : BitVec 6) (s : State) : Out := shiftOp .shl d a n s
/-- SHRI (R106). -/
def execShri (d a : SReg) (n : BitVec 6) (s : State) : Out := shiftOp .shr d a n s
/-- SHAI (R106). -/
def execShai (d a : SReg) (n : BitVec 6) (s : State) : Out := shiftOp .sha d a n s
/-- ROLI (R106). -/
def execRoli (d a : SReg) (n : BitVec 6) (s : State) : Out := shiftOp .rol d a n s

end Sys2Proof.Machine
end

