-- ==== Sys2Proof/Machine/System.lean ====
section
/-! DEFINITION. Machine/System.lean: which slots and banks are ready (R32), the swap quantum (R243), the service ring
(R287), uncorrectable errors and integrity trees (R320, R323), boot and images (R256, R257, R261), outside requests
(R229, R268), the power manager (R12), the vector clocks (R225). -/
namespace Sys2Proof.Machine

/-! ### Readiness and the swap quantum (R32, R243) -/

/-- An effect in the gate holds a slot of its wave back: the slot that issued it, one that has taken over its lanes, and, where
it returns a value or the wave is in handler mode, either (R31, R249, R275; log 3). -/
def Effect.returns : Effect → Bool
  | .store _ => false
  | .read _ => true
  | .atomic _ es => es.any fun e => e.dest.isSome
def Gated.holds (g : Gated) (x : SlotId) (t : Slot) : Bool := g.x == x || g.mask &&& t.mask != 0 || g.effect.returns

/-- Whether a slot may issue its next instruction, or end a wait that is over (R32, R47). -/
def State.slotReady (s : State) (w : Nat) (x : SlotId) : Bool :=
  let W := s.wave w
  let t := W.slot x
  W.resident && W.service.isNone && W.pend == .none && !W.gates.any (fun g => g.holds x t || W.handler) && t.live && !t.waiting
    && (t.park == .none || s.parkOver w x)

/-- A ready team (R243). -/
def State.teamReady (s : State) (b : Nat) : Bool :=
  s.bankOpen b && (bankWaves b).any fun w => s.slotReady w .a || s.slotReady w .b

/-- QUANT of the partition that holds a core (R259). -/
def State.quantum (s : State) (core : Nat) : Nat :=
  2 ^ (match s.partOfCore core with | some p => s.regBits (partOff p) 20 5 | none => 20)

/-- Whether a core is to swap: its inactive bank holds a ready team, and the quantum has passed or the active bank holds
none. -/
def State.quantumOver (s : State) (core : Nat) : Bool :=
  let C := s.core core
  decide (C.active < 2) && C.swapTo.isNone && !s.quarantined core && s.teamReady (2 * core + (1 - C.active))
    && ((s.bank (2 * core + C.active)).team.isNone || decide (C.since + s.quantum core ≤ s.cycle - s.withheld))

/-- The quantum expires: a swap begins. -/
def quantumExpiry (s : State) (core : Nat) : State :=
  if s.quantumOver core then s.startSwap core (1 - (s.core core).active) else s

/-- SWAP_QUANTUM_EXPIRY (R243). -/
def execSwapQuantumExpiry (core : Nat) (s : State) : Out := .next (quantumExpiry s core)

/-! ### The service ring (R287) -/

/-- Whether a partition's ring has room for a record: size, WIDX and RIDX. -/
def State.ringRoom (s : State) (p : Nat) : Bool :=
  let n := s.regBits (ringOff p + 8) 0 4
  let size := 2 ^ n
  n != 0 && decide ((s.regBits (ringOff p + 8) 32 32 + 2 * size - s.regBits (ringOff p + 16) 0 32 % (2 * size)) % (2 * size) < size)

/-- A record's 16 bytes. While its wave's team is spilled, WINDOW names the hardware wave that it has left (R287). -/
def RingRec.value (r : RingRec) : Nat :=
  0xFFF0000000000000 + ctxOff r.wave + r.cause.toNat * 2 ^ 64 + (if r.nested then 2 ^ 72 else 0) + (if r.eng then 2 ^ 73 else 0)

/-- The oldest record that waits is written, and interrupt 64 + p raised. A write to a page that the root of trust guards is
refused (R261; log 20). -/
def ringWrite (s : State) (p : Nat) : State :=
  match (s.part p).ringWait with
  | [] => s
  | r :: rest =>
    if !s.ringRoom p then s
    else
      let size := 2 ^ s.regBits (ringOff p + 8) 0 4
      let widx := s.regBits (ringOff p + 8) 32 32
      let s1 := s.setPart p { s.part p with ringWait := rest }
      let pa := (s.reg (ringOff p)).toNat + 16 * (widx % size)
      let s2 : State := if s.guardedIn pa 16 then s1.logSys (ioDie 0) (BitVec.ofNat 64 pa) else s1.poke pa 16 r.value
      (s2.setRegBits (ringOff p + 8) 32 32 ((widx + 1) % (2 * size))).out (.interrupt (64 + p))

/-- SERVICE_RING_RECORD (R287). -/
def execServiceRingRecord (p : Nat) (s : State) : Out := .next (ringWrite s p)

/-! ### Uncorrectable errors and integrity trees (R320, R323) -/

/-- MACHINE for a resident wave; one that is parked for the service already gets a record alone. -/
def State.machineTrap (s : State) (w : Nat) : State :=
  let W := s.wave w
  if !W.resident then s
  else if W.service.isSome then s.ringAdd w Cause.machine.code W.handler false
  else
    let x : SlotId := if W.slotA.live then .a else .b
    takeTrap s w x (instrTrap .machine 0 (s.stopped w x).pc)

/-- An XV that has read an operand with an error: it is discarded, MACHINE is raised for its wave, and the launch rolled
back. -/
def xvError (s : State) (w : Nat) : State :=
  let W := s.wave w
  match W.pend with
  | .xv x pc _ => (s.setWave w { W with pend := .none }).consume w x (instrTrap .machine 0 pc)
  | _ => s

/-- An error in memory, scratchpad or a typed buffer poisons the bytes; one in an operand of an XV in flight is consumed; one
in a bank's registers, stacks or tables raises MACHINE for its waves and rolls the launch back. -/
def uncorrectable (s : State) (site : EccSite) : State :=
  match site with
  | .memory pa n => s.markPoison pa n
  | .scratchpad b off n => s.markPoison (Loc.share b off).markKey n
  | .buffer c 0 off n => s.markPoison (Loc.wbuf c off).markKey n
  | .buffer c 1 off n => s.markPoison (Loc.abuf c off).markKey n
  | .buffer c _ off n => s.markPoison (Loc.cbuf c off).markKey n
  | .xvOperand w => xvError s w
  | .bank b =>
    match (s.bank b).team with
    | none => s
    | some t => ((bankWaves b).foldl State.machineTrap s).rollback t.launch false

/-- UNCORRECTABLE_ERROR (R320). -/
def execUncorrectableError (site : EccSite) (s : State) : Out := .next (uncorrectable s site)

/-- A launch is removed as in R321 step 1, its snapshots freed. -/
def State.removeLaunch (s : State) (l : Launch) : State :=
  let s0 := s.removeWaves l.key
  let s1 := (s0.freeSnaps ((s0.launchOf l.key).getD l)).dropLaunch l.key
  { s1 with audits := s1.audits.filter fun a => !(a.launch == l.key) }

/-- A partition is torn down: its launches removed, the queues of its VFs in ERROR, no team placed (R323). -/
def State.tearDown (s : State) (p : Nat) : State :=
  let s1 := (s.launches.filter fun l => l.part == p).foldl State.removeLaunch s
  let s2 := ((List.range 192).filter fun v => s.vfPart v == p && s.vfEn v).foldl (fun (t : State) v =>
    (List.range 8).foldl (fun (t : State) q => t.queueError v q (Config.teardownAddress s.tick)) t) s1
  s2.setPart p { s2.part p with tornDown := true }

/-- Whether a snapshot of a launch lies below a failed node. -/
def Launch.snapBelow (l : Launch) (base len : Nat) : Bool :=
  l.snaps.any fun e => decide (base < e.page + 4096) && decide (e.page < base + len)

/-- A line of a world: sealed under its key, or, where under none, with its home on a die of the world. -/
def State.lineIn (s : State) (world line : Nat) : Bool :=
  match SMap.find? s.plain line with
  | some e => s.worldKeys.any fun k => k.1 == world && k.2 == e.1
  | none => s.wid (Config.homeDie (128 * line) % 8) == world
/-- Mark the bytes of a range that lie in lines of a world. -/
def State.poisonWorld (s : State) (world base len : Nat) : State :=
  { s with poison := (List.range len).foldl (fun m i =>
      if s.lineIn world ((base + i) / 128) then SMap.set (fun _ => false) m (base + i) true else m) s.poison }
/-- Whether a VF's translations reach a range. -/
def State.reaches (s : State) (vf base len : Nat) : Bool :=
  (List.range (2 ^ 44)).any fun p =>
    match walk s vf (4096 * p) with
    | .leaf l => decide (l.pa (4096 * p) < base + len) && decide (base < l.pa (4096 * p) + 4096)
    | _ => false

/-- A node of a confidential world's tree fails: the pages of the world below it are poisoned, the launches that consume one,
of those that reach one, are rolled back, and the world's partitions are torn down. -/
def integrityFailure (s : State) (world base len : Nat) : State :=
  if world = 0 then s
  else
    let ps := (List.range 48).filter fun p => s.partEn p && s.partWorld p == world
    let s1 := (s.launches.filter fun l => ps.contains l.part && s.reaches l.vf base len && Config.treeConsumer s.tick l.key).foldl
      (fun (t : State) l => t.rollback l.key (l.snapBelow base len)) (s.poisonWorld world base len)
    ps.foldl State.tearDown s1

/-- INTEGRITY_TREE_FAILURE (R323). -/
def execIntegrityTreeFailure (world base len : Nat) (s : State) : Out := .next (integrityFailure s world base len)

/-! ### Boot (R256, R257) -/

/-- Whether a copy of the blob is accepted: its signature, its VERSION, its ranges. -/
def Blob.ok (b : Blob) (floor : W32) : Bool :=
  b.sigOk && decide (floor.toNat ≤ b.version.toNat) && decide (1000 ≤ b.power) && decide (b.power ≤ 3600)
    && decide (bitsOf b.mgnctl.toNat 0 8 ≤ 24) && bitsOf b.mgnlimit.toNat 0 3 != 0

/-- A core's margin control from the blob; a core of COREOFF starts quarantined (R257, R315). -/
def Blob.margin (b : Blob) (off : Bool) : Margin :=
  let m := (((Margin.zero.setCtl 0 b.mgnctl).setLimit b.mgnlimit).setEsc 0 b.mgnesc)
  if off then { m with state := 2, cur := 0 } else m

/-- Boot with an accepted blob: the values it holds, every store of R51 zero, every die in world 0, no partition or VF
enabled; CYCLE counts from here (R108). -/
def State.bootWith (s : State) (b : Blob) : State :=
  { s with
    boot := .up, blob := some b, versionFloor := b.version, power := b.power, cycle := 0, withheld := 0, withholdTo := 0
    cores := (List.range 512).foldl (fun m c =>
      SMap.set (fun _ => Core.zero) m c { Core.zero with margin := b.margin (b.coreoff.getLsbD c) }) []
    parts := (List.range 48).foldl (fun m p =>
      SMap.set (fun _ => Part.zero) m p { Part.zero with audrate := b.auddef }) []
    waves := [], banks := [], win := [], fbufs := [], measured := [] }

/-- From reset: the firmware, then the blob, each from one of its two copies; if both fail the module stays in reset. -/
def moduleBoot (s : State) : State :=
  if s.boot ≠ .inReset then s
  else if !s.fwOk.1 && !s.fwOk.2 then { s with boot := .failed 1 }
  else if s.blobs.1.ok s.versionFloor then s.bootWith s.blobs.1
  else if s.blobs.2.ok s.versionFloor then s.bootWith s.blobs.2
  else { s with boot := .failed 1 }

/-- MODULE_BOOT (R256). -/
def execModuleBoot (s : State) : Out := .next (moduleBoot s)

/-! ### Images and attestation (R261, R268) -/

/-- The request ends with a STATUS. -/
def State.requestDone (s : State) (status : Nat) : State :=
  { ((s.setRegBits reqCtl 14 1 1).setRegBits reqCtl 16 8 status) with imageReq := false }

/-- The lowest free entry of a partition's table. -/
def State.freeEntry (s : State) (p : Nat) : Option Nat :=
  (List.range 16).find? fun i => s.regBits (imageOff p i) 63 1 == 0

/-- A verification finishes: the request block and the image are taken as they then stand (log 61). -/
def imageDone (s : State) (verified : Bool) (loadid : Word) : State :=
  if !s.imageReq then s
  else
    let base := (s.reg loadReqOff).toNat
    let len := s.regBits (loadReqOff + 8) 0 32
    let desc := s.regBits (loadReqOff + 8) 32 32
    let p := s.regBits reqCtl 0 6
    if base % 4096 ≠ 0 ∨ desc % 64 ≠ 0 ∨ len < desc + 64 ∨ 47 < p then s.requestDone 3
    else if !verified then s.requestDone 1
    else
      match s.freeEntry p with
      | none => s.requestDone 2
      | some i =>
        let digest := Config.digest (s.bytesAt base len)
        let s1 := (s.poke (base + desc + 16) 8 loadid.toNat).setReg (imageOff p i)
          (BitVec.ofNat 64 ((base + desc) % 2 ^ 56 + 2 ^ 63))
        { (s1.requestDone 0) with
          measured := s.measured ++ [digest], imagePages := (p, i, base, len) :: s.imagePages }

/-- IMAGE_VERIFY_DONE (R261). -/
def execImageVerifyDone (verified : Bool) (loadid : Word) (s : State) : Out := .next (imageDone s verified loadid)

/-- The items of a blob, as its digest is taken. -/
def Blob.items (b : Blob) : List Nat :=
  [b.version.toNat, b.power, b.mgnctl.toNat, b.mgnlimit.toNat, b.mgnesc.toNat, b.coreoff.toNat, b.auddef.toNat]
    ++ b.idcert.map BitVec.toNat
/-- The measurements: the firmware's, the blob's and each image's digest. -/
def State.measurements (s : State) : List (BitVec 512) :=
  Config.firmwareDigest :: (match s.blob with | some b => [Config.blobDigest b.items] | none => []) ++ s.measured
/-- The WORLD register of each die. -/
def State.worlds (s : State) : List Word := (List.range 8).map fun d => s.reg (dieOff d)

/-- The root of trust answers with its measurements and the WORLD registers, signed under IDCERT. -/
def spdmAnswer (s : State) : State :=
  let cert := match s.blob with | some b => b.idcert | none => []
  s.out (.measurements s.measurements s.worlds (Config.attest cert s.measurements s.worlds))

/-- SPDM_REQUEST (R268). -/
def execSpdmRequest (s : State) : Out := .next (spdmAnswer s)

/-! ### Requests from outside the compute side (R229, R266, R268, R290) -/

/-- The die whose port refuses a physical request of a world, if one does. -/
def State.worldRefuses (s : State) (world pa : Nat) : Option Nat :=
  let home := Config.homeDie pa % 8
  if s.wid home ≠ world then some home else none

/-- What a request from outside reads. -/
def State.outsideRead (s : State) (pa n : Nat) : Word :=
  if s.poisoned pa n then Config.poisonValue s.tick else BitVec.ofNat 64 (s.readPhys pa n)

/-- A device's memory request is non-confidential. It is served, or gets a completer abort, logged by the I/O die of its
port, and by the home die if that refuses its world. -/
def pcieRequest (s : State) (port : Nat) (write : Bool) (pa n : Nat) (v : Word) : State :=
  let refused (t : State) : State := (t.logSys (ioDie (port / 2)) (BitVec.ofNat 64 pa)).out (.pcieAbort port)
  match s.worldRefuses 0 pa with
  | some home => refused (s.refuseWorld home pa none)
  | none =>
  if write && s.guardedIn pa n then refused s
  else if write then s.poke pa n v.toNat
  else s.out (.pcieValue port (s.outsideRead pa n))

/-- PCIE_CXL_REQUEST (R268). -/
def execPcieCxlRequest (port : Nat) (write : Bool) (pa n : Nat) (v : Word) (s : State) : Out :=
  .next (pcieRequest s port write pa n v)

/-- The kinds of access that write. -/
def HartAccess.writes : HartAccess → Bool
  | .load => false
  | _ => true

/-- A hart's access to the system configuration window: 8 bytes, 8-byte aligned, no AMO (log 26); at HS. Another is refused and
logged (R290). -/
def hartWindow (s : State) (hart : Nat) (acc : HartAccess) (off n : Nat) (v : Word) : State :=
  let refused := (s.logSys (ioDie 0) (BitVec.ofNat 64 (0xFFF0000000000000 + off))).out (.hartError hart)
  if n ≠ 8 ∨ off % 8 ≠ 0 then refused
  else
    match acc with
    | .load => s.out (.hartValue hart (winRead s off))
    | .store => winWrite s off .hart v
    | .amo _ => refused

/-- A hart's access to memory, in the world of its HWORLD: refused at a die-to-die port, refused at an image's page, or
made. -/
def hartMemory (s : State) (hart : Nat) (acc : HartAccess) (pa n : Nat) (v : Word) : State :=
  match s.worldRefuses (s.regBits (hworldOff hart) 0 8) pa with
  | some home => (s.refuseWorld home pa none).out (.hartError hart)
  | none =>
    if HartAccess.writes acc && s.guardedIn pa n then (s.logSys (ioDie 0) (BitVec.ofNat 64 pa)).out (.hartError hart)
    else
      match acc with
      | .load => s.out (.hartValue hart (s.outsideRead pa n))
      | .store => s.poke pa n v.toNat
      | .amo op =>
        let old := s.outsideRead pa n
        (s.poke pa n (AtomOp.apply op n old v 0).toNat).out (.hartValue hart old)

/-- A hart's access: the window is not memory (R258, R266). -/
def hartAccess (s : State) (hart : Nat) (acc : HartAccess) (pa n : Nat) (v : Word) : State :=
  if 0xFFF0000000000000 ≤ pa then hartWindow s hart acc (pa - 0xFFF0000000000000) n v else hartMemory s hart acc pa n v

/-- LERRID_HART_MEMORY_ACCESS (R229). -/
def execLerridHartMemoryAccess (hart : Nat) (acc : HartAccess) (pa n : Nat) (v : Word) (s : State) : Out :=
  .next (hartAccess s hart acc pa n v)

/-! ### Cycles, power, clocks (R12, R108, R225) -/

/-- Events `ev` of a core, `n` of them, that no instruction causes (R269). -/
def Core.count (c : Core) (ev n : Nat) : Core :=
  if c.evsel = [] then c
  else
    let add (m : SMap Word) (j : Nat) : SMap Word :=
      let sel := (SMap.get zeros c.evsel j).toNat
      if bitsOf sel 0 8 = ev ∧ bitsOf sel 8 2 ≠ 0 then SMap.set zeros m j (SMap.get zeros m j + BitVec.ofNat 64 n) else m
    { c with evcnt := (List.range 8).foldl add c.evcnt }

/-- Cycles pass: CYCLE, event 1 of every core, and event 0x0A for those of them that are withheld: a bank's quantum counts
the others alone. -/
def State.passCycles (s : State) (n : Nat) : State :=
  let k := Nat.min n (s.withholdTo - s.cycle)
  { s with
    cycle := s.cycle + n, withheld := s.withheld + k
    cores := s.cores.map fun e => (e.1, (e.2.count 1 n).count 0x0A k) }

/-- The power manager withholds `n` more cycles from matrix and vector instructions. -/
def withhold (s : State) (n : Nat) : State := { s with withholdTo := Nat.max s.withholdTo s.cycle + n }

/-- POWER_LIMIT_WITHHOLDING (R12). -/
def execPowerLimitWithholding (cycles : Nat) (s : State) : Out := .next (withhold s cycles)

/-- Every write counted in a clock has been applied at a die. -/
def State.causal (s : State) (dst : Nat) (clock : List Nat) : Bool :=
  (List.range 8).all fun k => decide (clockAt clock k ≤ clockAt (s.clocks.getD dst []) k)

/-- A write that die `src` has sent with a clock is still to be applied at die `dst`. -/
def Crossing.at (src dst : Nat) (clock : List Nat) (e : Crossing) : Bool :=
  e.src == src && e.clock == clock && e.todo.contains dst

/-- A write of die `src` is applied at die `dst` once its predecessors have been: its source's count rises there. -/
def applyWrite (s : State) (src dst : Nat) (clock : List Nat) : State :=
  if !s.causal dst clock || !s.crossing.any (Crossing.at src dst clock) then s
  else
    let c := s.clocks.getD dst []
    let go (e : Crossing) : Crossing :=
      if Crossing.at src dst clock e then { e with todo := e.todo.filter fun d => d != dst } else e
    { s with
      clocks := s.clocks.set dst (c.set src (clockAt c src + 1))
      crossing := (s.crossing.map go).filter fun e => e.todo != [] }

/-- CROSS_DIE_WRITE_APPLY (R225). -/
def execCrossDieWriteApply (src dst : Nat) (clock : List Nat) (s : State) : Out := .next (applyWrite s src dst clock)

end Sys2Proof.Machine
end

