-- ==== Sys2Proof/Machine/Dispatch.lean ====
section
/-! DEFINITION. Machine/Dispatch.lean: one arm per row of the opcode table, each one call of the row's meaning. -/
namespace Sys2Proof.Machine

/-- What a row does. -/
def exec (i : Instr) (s : State) : Host.Outcome State Fault Refusal :=
  match i with
  | .add d a b => Sys2Proof.Machine.execAdd d a b s
  | .addLit d a lit => Sys2Proof.Machine.execAddLit d a lit s
  | .sub d a b => Sys2Proof.Machine.execSub d a b s
  | .subLit d a lit => Sys2Proof.Machine.execSubLit d a lit s
  | .mul d a b => Sys2Proof.Machine.execMul d a b s
  | .mulLit d a lit => Sys2Proof.Machine.execMulLit d a lit s
  | .mulh d a b => Sys2Proof.Machine.execMulh d a b s
  | .mulhLit d a lit => Sys2Proof.Machine.execMulhLit d a lit s
  | .mulhn d a b => Sys2Proof.Machine.execMulhn d a b s
  | .mulhnLit d a lit => Sys2Proof.Machine.execMulhnLit d a lit s
  | .div d a b => Sys2Proof.Machine.execDiv d a b s
  | .divLit d a lit => Sys2Proof.Machine.execDivLit d a lit s
  | .divn d a b => Sys2Proof.Machine.execDivn d a b s
  | .divnLit d a lit => Sys2Proof.Machine.execDivnLit d a lit s
  | .rem d a b => Sys2Proof.Machine.execRem d a b s
  | .remLit d a lit => Sys2Proof.Machine.execRemLit d a lit s
  | .remn d a b => Sys2Proof.Machine.execRemn d a b s
  | .remnLit d a lit => Sys2Proof.Machine.execRemnLit d a lit s
  | .and_ d a b => Sys2Proof.Machine.execAnd d a b s
  | .andLit d a lit => Sys2Proof.Machine.execAndLit d a lit s
  | .or_ d a b => Sys2Proof.Machine.execOr d a b s
  | .orLit d a lit => Sys2Proof.Machine.execOrLit d a lit s
  | .xor d a b => Sys2Proof.Machine.execXor d a b s
  | .xorLit d a lit => Sys2Proof.Machine.execXorLit d a lit s
  | .andn d a b => Sys2Proof.Machine.execAndn d a b s
  | .andnLit d a lit => Sys2Proof.Machine.execAndnLit d a lit s
  | .shl d a b => Sys2Proof.Machine.execShl d a b s
  | .shlLit d a lit => Sys2Proof.Machine.execShlLit d a lit s
  | .shr d a b => Sys2Proof.Machine.execShr d a b s
  | .shrLit d a lit => Sys2Proof.Machine.execShrLit d a lit s
  | .sha d a b => Sys2Proof.Machine.execSha d a b s
  | .shaLit d a lit => Sys2Proof.Machine.execShaLit d a lit s
  | .rol d a b => Sys2Proof.Machine.execRol d a b s
  | .rolLit d a lit => Sys2Proof.Machine.execRolLit d a lit s
  | .min_ d a b => Sys2Proof.Machine.execMin d a b s
  | .minLit d a lit => Sys2Proof.Machine.execMinLit d a lit s
  | .minn d a b => Sys2Proof.Machine.execMinn d a b s
  | .minnLit d a lit => Sys2Proof.Machine.execMinnLit d a lit s
  | .max_ d a b => Sys2Proof.Machine.execMax d a b s
  | .maxLit d a lit => Sys2Proof.Machine.execMaxLit d a lit s
  | .maxn d a b => Sys2Proof.Machine.execMaxn d a b s
  | .maxnLit d a lit => Sys2Proof.Machine.execMaxnLit d a lit s
  | .slt d a b => Sys2Proof.Machine.execSlt d a b s
  | .sltLit d a lit => Sys2Proof.Machine.execSltLit d a lit s
  | .sltn d a b => Sys2Proof.Machine.execSltn d a b s
  | .sltnLit d a lit => Sys2Proof.Machine.execSltnLit d a lit s
  | .seq d a b => Sys2Proof.Machine.execSeq d a b s
  | .seqLit d a lit => Sys2Proof.Machine.execSeqLit d a lit s
  | .clz d a => Sys2Proof.Machine.execClz d a s
  | .ctz d a => Sys2Proof.Machine.execCtz d a s
  | .popc d a => Sys2Proof.Machine.execPopc d a s
  | .addi d a imm => Sys2Proof.Machine.execAddi d a imm s
  | .addiLit d a lit => Sys2Proof.Machine.execAddiLit d a lit s
  | .andi d a imm => Sys2Proof.Machine.execAndi d a imm s
  | .andiLit d a lit => Sys2Proof.Machine.execAndiLit d a lit s
  | .ori d a imm => Sys2Proof.Machine.execOri d a imm s
  | .oriLit d a lit => Sys2Proof.Machine.execOriLit d a lit s
  | .xori d a imm => Sys2Proof.Machine.execXori d a imm s
  | .xoriLit d a lit => Sys2Proof.Machine.execXoriLit d a lit s
  | .slti d a imm => Sys2Proof.Machine.execSlti d a imm s
  | .sltiLit d a lit => Sys2Proof.Machine.execSltiLit d a lit s
  | .sltni d a imm => Sys2Proof.Machine.execSltni d a imm s
  | .sltniLit d a lit => Sys2Proof.Machine.execSltniLit d a lit s
  | .shli d a n => Sys2Proof.Machine.execShli d a n s
  | .shri d a n => Sys2Proof.Machine.execShri d a n s
  | .shai d a n => Sys2Proof.Machine.execShai d a n s
  | .roli d a n => Sys2Proof.Machine.execRoli d a n s
  | .srd d spr => Sys2Proof.Machine.execSrd d spr s
  | .swr a spr => Sys2Proof.Machine.execSwr a spr s
  | .bra off => Sys2Proof.Machine.execBra off s
  | .braLit lit => Sys2Proof.Machine.execBraLit lit s
  | .call off => Sys2Proof.Machine.execCall off s
  | .callLit lit => Sys2Proof.Machine.execCallLit lit s
  | .beqz a off => Sys2Proof.Machine.execBeqz a off s
  | .beqzLit a lit => Sys2Proof.Machine.execBeqzLit a lit s
  | .bnez a off => Sys2Proof.Machine.execBnez a off s
  | .bnezLit a lit => Sys2Proof.Machine.execBnezLit a lit s
  | .bltz a off => Sys2Proof.Machine.execBltz a off s
  | .bltzLit a lit => Sys2Proof.Machine.execBltzLit a lit s
  | .bgez a off => Sys2Proof.Machine.execBgez a off s
  | .bgezLit a lit => Sys2Proof.Machine.execBgezLit a lit s
  | .blez a off => Sys2Proof.Machine.execBlez a off s
  | .blezLit a lit => Sys2Proof.Machine.execBlezLit a lit s
  | .bgtz a off => Sys2Proof.Machine.execBgtz a off s
  | .bgtzLit a lit => Sys2Proof.Machine.execBgtzLit a lit s
  | .vbr k off => Sys2Proof.Machine.execVbr k off s
  | .vbrLit k lit => Sys2Proof.Machine.execVbrLit k lit s
  | .bany k off => Sys2Proof.Machine.execBany k off s
  | .banyLit k lit => Sys2Proof.Machine.execBanyLit k lit s
  | .ball k off => Sys2Proof.Machine.execBall k off s
  | .ballLit k lit => Sys2Proof.Machine.execBallLit k lit s
  | .bnone k off => Sys2Proof.Machine.execBnone k off s
  | .bnoneLit k lit => Sys2Proof.Machine.execBnoneLit k lit s
  | .jmpi a => Sys2Proof.Machine.execJmpi a s
  | .calli a => Sys2Proof.Machine.execCalli a s
  | .trap n => Sys2Proof.Machine.execTrap n s
  | .kand d a b => Sys2Proof.Machine.execKand d a b s
  | .kor d a b => Sys2Proof.Machine.execKor d a b s
  | .kxor d a b => Sys2Proof.Machine.execKxor d a b s
  | .kandn d a b => Sys2Proof.Machine.execKandn d a b s
  | .knot d a => Sys2Proof.Machine.execKnot d a s
  | .kmov d a => Sys2Proof.Machine.execKmov d a s
  | .kpopc r a => Sys2Proof.Machine.execKpopc r a s
  | .kfirst r a => Sys2Proof.Machine.execKfirst r a s
  | .klds d r => Sys2Proof.Machine.execKlds d r s
  | .ksts r a => Sys2Proof.Machine.execKsts r a s
  | .kexec d => Sys2Proof.Machine.execKexec d s
  | .klane d r => Sys2Proof.Machine.execKlane d r s
  | .vadd d a b k => Sys2Proof.Machine.execVadd d a b k s
  | .vaddLit d a k lit => Sys2Proof.Machine.execVaddLit d a k lit s
  | .vsub d a b k => Sys2Proof.Machine.execVsub d a b k s
  | .vsubLit d a k lit => Sys2Proof.Machine.execVsubLit d a k lit s
  | .vmul d a b k => Sys2Proof.Machine.execVmul d a b k s
  | .vmulLit d a k lit => Sys2Proof.Machine.execVmulLit d a k lit s
  | .vmulh d a b k => Sys2Proof.Machine.execVmulh d a b k s
  | .vmulhLit d a k lit => Sys2Proof.Machine.execVmulhLit d a k lit s
  | .vand d a b k => Sys2Proof.Machine.execVand d a b k s
  | .vandLit d a k lit => Sys2Proof.Machine.execVandLit d a k lit s
  | .vor d a b k => Sys2Proof.Machine.execVor d a b k s
  | .vorLit d a k lit => Sys2Proof.Machine.execVorLit d a k lit s
  | .vxor d a b k => Sys2Proof.Machine.execVxor d a b k s
  | .vxorLit d a k lit => Sys2Proof.Machine.execVxorLit d a k lit s
  | .vandn d a b k => Sys2Proof.Machine.execVandn d a b k s
  | .vandnLit d a k lit => Sys2Proof.Machine.execVandnLit d a k lit s
  | .vshl d a b k => Sys2Proof.Machine.execVshl d a b k s
  | .vshlLit d a k lit => Sys2Proof.Machine.execVshlLit d a k lit s
  | .vshr d a b k => Sys2Proof.Machine.execVshr d a b k s
  | .vshrLit d a k lit => Sys2Proof.Machine.execVshrLit d a k lit s
  | .vsha d a b k => Sys2Proof.Machine.execVsha d a b k s
  | .vshaLit d a k lit => Sys2Proof.Machine.execVshaLit d a k lit s
  | .vrol d a b k => Sys2Proof.Machine.execVrol d a b k s
  | .vrolLit d a k lit => Sys2Proof.Machine.execVrolLit d a k lit s
  | .vmin d a b k => Sys2Proof.Machine.execVmin d a b k s
  | .vminLit d a k lit => Sys2Proof.Machine.execVminLit d a k lit s
  | .vminn d a b k => Sys2Proof.Machine.execVminn d a b k s
  | .vminnLit d a k lit => Sys2Proof.Machine.execVminnLit d a k lit s
  | .vmax d a b k => Sys2Proof.Machine.execVmax d a b k s
  | .vmaxLit d a k lit => Sys2Proof.Machine.execVmaxLit d a k lit s
  | .vmaxn d a b k => Sys2Proof.Machine.execVmaxn d a b k s
  | .vmaxnLit d a k lit => Sys2Proof.Machine.execVmaxnLit d a k lit s
  | .vsel d a b k => Sys2Proof.Machine.execVsel d a b k s
  | .vselLit d a k lit => Sys2Proof.Machine.execVselLit d a k lit s
  | .vbcst d r k => Sys2Proof.Machine.execVbcst d r k s
  | .vlid d k => Sys2Proof.Machine.execVlid d k s
  | .vmov d b k => Sys2Proof.Machine.execVmov d b k s
  | .vmovLit d k lit => Sys2Proof.Machine.execVmovLit d k lit s
  | .vcmp c d a b k => Sys2Proof.Machine.execVcmp c d a b k s
  | .vcmpLit c d a k lit => Sys2Proof.Machine.execVcmpLit c d a k lit s
  | .vmad d a b c k => Sys2Proof.Machine.execVmad d a b c k s
  | .vmadLit d a c k lit => Sys2Proof.Machine.execVmadLit d a c k lit s
  | .vclz d a k => Sys2Proof.Machine.execVclz d a k s
  | .vpopc d a k => Sys2Proof.Machine.execVpopc d a k s
  | .vabs d a k => Sys2Proof.Machine.execVabs d a k s
  | .vneg d a k => Sys2Proof.Machine.execVneg d a k s
  | .vfadd d a b k q => Sys2Proof.Machine.execVfadd d a b k q s
  | .vfaddLit d a k q lit => Sys2Proof.Machine.execVfaddLit d a k q lit s
  | .vfsub d a b k q => Sys2Proof.Machine.execVfsub d a b k q s
  | .vfsubLit d a k q lit => Sys2Proof.Machine.execVfsubLit d a k q lit s
  | .vfmul d a b k q => Sys2Proof.Machine.execVfmul d a b k q s
  | .vfmulLit d a k q lit => Sys2Proof.Machine.execVfmulLit d a k q lit s
  | .vfma d a b c k q => Sys2Proof.Machine.execVfma d a b c k q s
  | .vfmaLit d a c k q lit => Sys2Proof.Machine.execVfmaLit d a c k q lit s
  | .vfmin d a b k f => Sys2Proof.Machine.execVfmin d a b k f s
  | .vfminLit d a k f lit => Sys2Proof.Machine.execVfminLit d a k f lit s
  | .vfmax d a b k f => Sys2Proof.Machine.execVfmax d a b k f s
  | .vfmaxLit d a k f lit => Sys2Proof.Machine.execVfmaxLit d a k f lit s
  | .vfabs d a k f => Sys2Proof.Machine.execVfabs d a k f s
  | .vfneg d a k f => Sys2Proof.Machine.execVfneg d a k f s
  | .vfrnd d a k f rm => Sys2Proof.Machine.execVfrnd d a k f rm s
  | .vrcp d a k f ovf => Sys2Proof.Machine.execVrcp d a k f ovf s
  | .vrsq d a k f ovf => Sys2Proof.Machine.execVrsq d a k f ovf s
  | .vsqrt d a k f ovf => Sys2Proof.Machine.execVsqrt d a k f ovf s
  | .vexp2 d a k f ovf => Sys2Proof.Machine.execVexp2 d a k f ovf s
  | .vlog2 d a k f ovf => Sys2Proof.Machine.execVlog2 d a k f ovf s
  | .vsin d a k f ovf => Sys2Proof.Machine.execVsin d a k f ovf s
  | .vcos d a k f ovf => Sys2Proof.Machine.execVcos d a k f ovf s
  | .vtanh d a k f ovf => Sys2Proof.Machine.execVtanh d a k f ovf s
  | .vsigm d a k f ovf => Sys2Proof.Machine.execVsigm d a k f ovf s
  | .verf d a k f ovf => Sys2Proof.Machine.execVerf d a k f ovf s
  | .vcvt src dst d a k rm ovf sr => Sys2Proof.Machine.execVcvt src dst d a k rm ovf sr s
  | .vqpack t d a k => Sys2Proof.Machine.execVqpack t d a k s
  | .vqunpk d a k => Sys2Proof.Machine.execVqunpk d a k s
  | .vperm d a b k => Sys2Proof.Machine.execVperm d a b k s
  | .vpermLit d a k lit => Sys2Proof.Machine.execVpermLit d a k lit s
  | .vred op d a k rm ovf => Sys2Proof.Machine.execVred op d a k rm ovf s
  | .vscan op d a k rm ovf => Sys2Proof.Machine.execVscan op d a k rm ovf s
  | .vcmprs d a k => Sys2Proof.Machine.execVcmprs d a k s
  | .vmatch d a k => Sys2Proof.Machine.execVmatch d a k s
  | .xvdepth d k => Sys2Proof.Machine.execXvdepth d k s
  | .vdp4 d a b c k rm ovf => Sys2Proof.Machine.execVdp4 d a b c k rm ovf s
  | .vdp4Lit d a c k rm ovf lit => Sys2Proof.Machine.execVdp4Lit d a c k rm ovf lit s
  | .xv p x y k => Sys2Proof.Machine.execXv p x y k s
  | .xvS0 p x y k => Sys2Proof.Machine.execXvS0 p x y k s
  | .xvS1 p x y k => Sys2Proof.Machine.execXvS1 p x y k s
  | .xvpush a k => Sys2Proof.Machine.execXvpush a k s
  | .xvpop d k => Sys2Proof.Machine.execXvpop d k s
  | .xvpeek d k => Sys2Proof.Machine.execXvpeek d k s
  | .xvclr k => Sys2Proof.Machine.execXvclr k s
  | .tblld t a => Sys2Proof.Machine.execTblld t a s
  | .tblsw t => Sys2Proof.Machine.execTblsw t s
  | .tblgen d t => Sys2Proof.Machine.execTblgen d t s
  | .vld t sb vo k imm m => Sys2Proof.Machine.execVld t sb vo k imm m s
  | .vldLit t sb vo k m lit => Sys2Proof.Machine.execVldLit t sb vo k m lit s
  | .vst t sb vo k imm m => Sys2Proof.Machine.execVst t sb vo k imm m s
  | .vstLit t sb vo k m lit => Sys2Proof.Machine.execVstLit t sb vo k m lit s
  | .sld t sb imm m => Sys2Proof.Machine.execSld t sb imm m s
  | .sldLit t sb m lit => Sys2Proof.Machine.execSldLit t sb m lit s
  | .sst t sb imm m => Sys2Proof.Machine.execSst t sb imm m s
  | .sstLit t sb m lit => Sys2Proof.Machine.execSstLit t sb m lit s
  | .vatom op t sb vo k imm m => Sys2Proof.Machine.execVatom op t sb vo k imm m s
  | .satom op t sb imm m => Sys2Proof.Machine.execSatom op t sb imm m s
  | .mred op t sb vo k imm m => Sys2Proof.Machine.execMred op t sb vo k imm m s
  | .fence streams scope => Sys2Proof.Machine.execFence streams scope s
  | .fenceAcq streams scope => Sys2Proof.Machine.execFenceAcq streams scope s
  | .fenceRel streams scope => Sys2Proof.Machine.execFenceRel streams scope s
  | .mwait t sb imm q => Sys2Proof.Machine.execMwait t sb imm q s
  | .mwaitLit t sb q lit => Sys2Proof.Machine.execMwaitLit t sb q lit s
  | .icinv scope a b => Sys2Proof.Machine.execIcinv scope a b s
  | .dwb a b => Sys2Proof.Machine.execDwb a b s
  | .dinv a b => Sys2Proof.Machine.execDinv a b s
  | .cpy dst src saw chain strm scope mc => Sys2Proof.Machine.execCpy dst src saw chain strm scope mc s
  | .cpyCvt dst src saw chain strm scope mc => Sys2Proof.Machine.execCpyCvt dst src saw chain strm scope mc s
  | .nsend flow rec saw strm => Sys2Proof.Machine.execNsend flow rec saw strm s
  | .npost flow rec saw strm => Sys2Proof.Machine.execNpost flow rec saw strm s
  | .barinit rv b => Sys2Proof.Machine.execBarinit rv b s
  | .bararr d rv => Sys2Proof.Machine.execBararr d rv s
  | .barwait rv b => Sys2Proof.Machine.execBarwait rv b s
  | .barsync rv => Sys2Proof.Machine.execBarsync rv s
  | .awset a b => Sys2Proof.Machine.execAwset a b s
  | .awwait d a b => Sys2Proof.Machine.execAwwait d a b s
  | .awadd a b => Sys2Proof.Machine.execAwadd a b s
  | .dqpush a => Sys2Proof.Machine.execDqpush a s
  | .dqpop d => Sys2Proof.Machine.execDqpop d s
  | .dqsteal d a => Sys2Proof.Machine.execDqsteal d a s
  | .dqcnt d => Sys2Proof.Machine.execDqcnt d s
  | .capenter d a del off => Sys2Proof.Machine.execCapenter d a del off s
  | .capexit a => Sys2Proof.Machine.execCapexit a s
  | .capqry d a => Sys2Proof.Machine.execCapqry d a s
  | .wload f a => Sys2Proof.Machine.execWload f a s
  | .mma f acc t a b => Sys2Proof.Machine.execMma f acc t a b s
  | .mmad f r d a => Sys2Proof.Machine.execMmad f r d a s
  | .mdrain r d t a => Sys2Proof.Machine.execMdrain r d t a s
  | .mfill r t v a => Sys2Proof.Machine.execMfill r t v a s
  | .czero t => Sys2Proof.Machine.execCzero t s
  | .cwait t => Sys2Proof.Machine.execCwait t s
  | .lget d v b => Sys2Proof.Machine.execLget d v b s
  | .lput v a b => Sys2Proof.Machine.execLput v a b s
  | .tlcause d a => Sys2Proof.Machine.execTlcause d a s
  | .tladdr d a => Sys2Proof.Machine.execTladdr d a s
  | .tlstep d a => Sys2Proof.Machine.execTlstep d a s
  | .tlbinv a b => Sys2Proof.Machine.execTlbinv a b s
  | .fbpop d a => Sys2Proof.Machine.execFbpop d a s
  | .xlreplay a => Sys2Proof.Machine.execXlreplay a s
  | .fbstat d a => Sys2Proof.Machine.execFbstat d a s
  | .banksw a => Sys2Proof.Machine.execBanksw a s
  | .spill a b => Sys2Proof.Machine.execSpill a b s
  | .fill a b => Sys2Proof.Machine.execFill a b s
  | .gate a => Sys2Proof.Machine.execGate a s
  | .migr a b => Sys2Proof.Machine.execMigr a b s
  | .nop => Sys2Proof.Machine.execNop s
  | .ret => Sys2Proof.Machine.execRet s
  | .join => Sys2Proof.Machine.execJoin s
  | .yield => Sys2Proof.Machine.execYield s
  | .end_ => Sys2Proof.Machine.execEnd s
  | .tret => Sys2Proof.Machine.execTret s
  | .capstep => Sys2Proof.Machine.execCapstep s
  | .capdrop => Sys2Proof.Machine.execCapdrop s
  | .xvRetire w => Sys2Proof.Machine.execXvRetire w s
  | .tblldComplete bank => Sys2Proof.Machine.execTblldComplete bank s
  | .loadDataReturn w x => Sys2Proof.Machine.execLoadDataReturn w x s
  | .mwaitWake w x => Sys2Proof.Machine.execMwaitWake w x s
  | .mwaitTimeout w x => Sys2Proof.Machine.execMwaitTimeout w x s
  | .copyLanding t => Sys2Proof.Machine.execCopyLanding t s
  | .copyCompletion t => Sys2Proof.Machine.execCopyCompletion t s
  | .chainedCommandEntry t bank => Sys2Proof.Machine.execChainedCommandEntry t bank s
  | .engineFault t => Sys2Proof.Machine.execEngineFault t s
  | .networkMessagePlacement flow data => Sys2Proof.Machine.execNetworkMessagePlacement flow data s
  | .remoteAcceptance t => Sys2Proof.Machine.execRemoteAcceptance t s
  | .arrayRowDrain core => Sys2Proof.Machine.execArrayRowDrain core s
  | .matrixOpRetire core => Sys2Proof.Machine.execMatrixOpRetire core s
  | .xlatComplete w x => Sys2Proof.Machine.execXlatComplete w x s
  | .ctxComplete w x => Sys2Proof.Machine.execCtxComplete w x s
  | .commitGateRelease w x => Sys2Proof.Machine.execCommitGateRelease w x s
  | .shadowCheck w x stage late => Sys2Proof.Machine.execShadowCheck w x stage late s
  | .step0Reexecute core late => Sys2Proof.Machine.execStep0Reexecute core late s
  | .injectionFire core => Sys2Proof.Machine.execInjectionFire core s
  | .governorRaise core => Sys2Proof.Machine.execGovernorRaise core s
  | .eventWindowExpiry core => Sys2Proof.Machine.execEventWindowExpiry core s
  | .marginSettleComplete core => Sys2Proof.Machine.execMarginSettleComplete core s
  | .quarantine core => Sys2Proof.Machine.execQuarantine core s
  | .quarantineMove core => Sys2Proof.Machine.execQuarantineMove core s
  | .swapQuantumExpiry core => Sys2Proof.Machine.execSwapQuantumExpiry core s
  | .bankSwap core => Sys2Proof.Machine.execBankSwap core s
  | .bankUngate core => Sys2Proof.Machine.execBankUngate core s
  | .queueDoorbell vf q widx => Sys2Proof.Machine.execQueueDoorbell vf q widx s
  | .queueEnable vf q => Sys2Proof.Machine.execQueueEnable vf q s
  | .queueDisable vf q => Sys2Proof.Machine.execQueueDisable vf q s
  | .packetFetch vf q => Sys2Proof.Machine.execPacketFetch vf q s
  | .signalReread vf q => Sys2Proof.Machine.execSignalReread vf q s
  | .cfeChoice p vf q => Sys2Proof.Machine.execCfeChoice p vf q s
  | .launchCompletion l => Sys2Proof.Machine.execLaunchCompletion l s
  | .hxtLaunchMessage tenant port pre packet => Sys2Proof.Machine.execHxtLaunchMessage tenant port pre packet s
  | .launchCreditRefill => Sys2Proof.Machine.execLaunchCreditRefill s
  | .serviceRingRecord p => Sys2Proof.Machine.execServiceRingRecord p s
  | .resume w v => Sys2Proof.Machine.execResume w v s
  | .deliver w v => Sys2Proof.Machine.execDeliver w v s
  | .kill w v => Sys2Proof.Machine.execKill w v s
  | .auditRerun l team bank => Sys2Proof.Machine.execAuditRerun l team bank s
  | .auditCompare l team => Sys2Proof.Machine.execAuditCompare l team s
  | .uncorrectableError site => Sys2Proof.Machine.execUncorrectableError site s
  | .integrityTreeFailure world base len => Sys2Proof.Machine.execIntegrityTreeFailure world base len s
  | .moduleBoot => Sys2Proof.Machine.execModuleBoot s
  | .partitionHalt p => Sys2Proof.Machine.execPartitionHalt p s
  | .partitionResume p => Sys2Proof.Machine.execPartitionResume p s
  | .partitionSaveDone p => Sys2Proof.Machine.execPartitionSaveDone p s
  | .partitionRestoreDone p => Sys2Proof.Machine.execPartitionRestoreDone p s
  | .imageLoadGo => Sys2Proof.Machine.execImageLoadGo s
  | .imageVerifyDone verified loadid => Sys2Proof.Machine.execImageVerifyDone verified loadid s
  | .imageRevoke => Sys2Proof.Machine.execImageRevoke s
  | .worldWrite die v => Sys2Proof.Machine.execWorldWrite die v s
  | .worldKeyDestroy world => Sys2Proof.Machine.execWorldKeyDestroy world s
  | .bounceResync vf j v => Sys2Proof.Machine.execBounceResync vf j v s
  | .bounceHseqWrite vf j v => Sys2Proof.Machine.execBounceHseqWrite vf j v s
  | .flowValidClear p flow => Sys2Proof.Machine.execFlowValidClear p flow s
  | .windowWrite off v path => Sys2Proof.Machine.execWindowWrite off v path s
  | .pcieCxlRequest port write pa n v => Sys2Proof.Machine.execPcieCxlRequest port write pa n v s
  | .spdmRequest => Sys2Proof.Machine.execSpdmRequest s
  | .powerLimitWithholding cycles => Sys2Proof.Machine.execPowerLimitWithholding cycles s
  | .lerridHartMemoryAccess hart acc pa n v => Sys2Proof.Machine.execLerridHartMemoryAccess hart acc pa n v s
  | .crossDieWriteApply src dst clock => Sys2Proof.Machine.execCrossDieWriteApply src dst clock s
  | .icinvCompletion w x => Sys2Proof.Machine.execIcinvCompletion w x s

end Sys2Proof.Machine
end

