-- ==== Sys2Proof/Machine/Sched.lean ====
section
/-! DEFINITION. Machine/Sched.lean: what may come next: the steps that are due, computed from the state, and the slots
that may issue, in the order of R32 and R240. Which of them comes next is the schedule's free choice (log 3). -/
namespace Sys2Proof.Machine

/-- The row of the opcode table that an event is. -/
noncomputable def Event.instr : Event → Instr
  | .xvRetire w => .xvRetire w
  | .tblldComplete b => .tblldComplete b
  | .loadDataReturn w x => .loadDataReturn w x
  | .mwaitWake w x => .mwaitWake w x
  | .mwaitTimeout w x => .mwaitTimeout w x
  | .copyLanding t => .copyLanding t
  | .copyCompletion t => .copyCompletion t
  | .chainedCommandEntry t b => .chainedCommandEntry t b
  | .engineFault t => .engineFault t
  | .networkMessagePlacement f d => .networkMessagePlacement f d
  | .remoteAcceptance t => .remoteAcceptance t
  | .arrayRowDrain c => .arrayRowDrain c
  | .matrixOpRetire c => .matrixOpRetire c
  | .xlatComplete w x => .xlatComplete w x
  | .ctxComplete w x => .ctxComplete w x
  | .commitGateRelease w x => .commitGateRelease w x
  | .shadowCheck w x st l => .shadowCheck w x st l
  | .step0Reexecute c l => .step0Reexecute c l
  | .injectionFire c => .injectionFire c
  | .governorRaise c => .governorRaise c
  | .eventWindowExpiry c => .eventWindowExpiry c
  | .marginSettleComplete c => .marginSettleComplete c
  | .quarantine c => .quarantine c
  | .quarantineMove c => .quarantineMove c
  | .swapQuantumExpiry c => .swapQuantumExpiry c
  | .bankSwap c => .bankSwap c
  | .bankUngate c => .bankUngate c
  | .queueDoorbell v q x => .queueDoorbell v q x
  | .queueEnable v q => .queueEnable v q
  | .queueDisable v q => .queueDisable v q
  | .packetFetch v q => .packetFetch v q
  | .signalReread v q => .signalReread v q
  | .cfeChoice p v q => .cfeChoice p v q
  | .launchCompletion l => .launchCompletion l
  | .hxtLaunchMessage t port pre pk => .hxtLaunchMessage t port pre pk
  | .launchCreditRefill => .launchCreditRefill
  | .serviceRingRecord p => .serviceRingRecord p
  | .resume w v => .resume w v
  | .deliver w v => .deliver w v
  | .kill w v => .kill w v
  | .auditRerun l t b => .auditRerun l t b
  | .auditCompare l t => .auditCompare l t
  | .uncorrectableError e => .uncorrectableError e
  | .integrityTreeFailure w b n => .integrityTreeFailure w b n
  | .moduleBoot => .moduleBoot
  | .partitionHalt p => .partitionHalt p
  | .partitionResume p => .partitionResume p
  | .partitionSaveDone p => .partitionSaveDone p
  | .partitionRestoreDone p => .partitionRestoreDone p
  | .imageLoadGo => .imageLoadGo
  | .imageVerifyDone v l => .imageVerifyDone v l
  | .imageRevoke => .imageRevoke
  | .worldWrite d v => .worldWrite d v
  | .worldKeyDestroy w => .worldKeyDestroy w
  | .bounceResync v j x => .bounceResync v j x
  | .bounceHseqWrite v j x => .bounceHseqWrite v j x
  | .flowValidClear p f => .flowValidClear p f
  | .windowWrite o v p => .windowWrite o v p
  | .pcieCxlRequest port w pa n v => .pcieCxlRequest port w pa n v
  | .spdmRequest => .spdmRequest
  | .powerLimitWithholding n => .powerLimitWithholding n
  | .lerridHartMemoryAccess h a pa n v => .lerridHartMemoryAccess h a pa n v
  | .crossDieWriteApply s d c => .crossDieWriteApply s d c
  | .icinvCompletion w x => .icinvCompletion w x

/-- Keep an event if a condition holds. -/
def evIf (b : Bool) (e : Event) : List Event := if b then [e] else []

/-! ### Transfers -/

/-- An instance of this wave is under check. -/
def State.checks (s : State) (w : Nat) : Bool :=
  (s.core (coreOf w)).checks.any fun c => c.wave == w && c.phase != .passed

/-- An engine fault may be taken now (R286). -/
def State.faultDue (s : State) (x : Xfer) : Bool :=
  !s.teamAway x.team &&
    (match s.xferHome x with
    | none => true
    | some w =>
      let W := s.wave w
      if W.ended x.x then true
      else if x.fault.any fun f => f.1 == .poison then !s.checks w
      else if W.service.isSome then W.heldFault.isNone
      else !s.checks w && s.atBoundary w x.x)

/-- The engine may go on with a transfer. -/
def State.landDue (s : State) (x : Xfer) : Bool :=
  !x.stopped && x.granule.isNone && x.cbufWait == 0 &&
    (decide (x.data.length < x.units) ||
      (if x.kind = .nsend then
        x.landed == [] && decide (s.unplaced x.flow < s.regBits (flowOff (x.flow / 4096) (x.flow % 4096) + 16) 0 16)
      else x.landed.any fun n => decide (n < x.units)))

/-- What is due of a transfer. -/
def State.xferEvents (s : State) (x : Xfer) : List Event :=
  if x.stopped then evIf (s.faultDue x) (.engineFault x.key)
  else
    evIf (s.landDue x) (.copyLanding x.key) ++ (x.chainDue.filter (s.chainReady x)).map (.chainedCommandEntry x.key ·)
      ++ evIf x.complete (.copyCompletion x.key)

/-- Messages that may go into a posted buffer (R204): of an ordered flow, the first. -/
def State.flowEvents (s : State) (flow : Nat) : List Event :=
  if (s.freeBuffer flow).isNone then []
  else
    let ms := (s.waiting flow).eraseDups
    (if s.orderedFlow flow then ms.take 1 else ms).map (.networkMessagePlacement flow ·)

/-! ### Waves and banks -/

/-- An instance of this wave is to be issued again, from the registers that it had (R247). -/
def State.toIssueAgain (s : State) (w : Nat) : Bool :=
  (s.core (coreOf w)).checks.any fun k => k.stage != 6 && k.wave == w && k.again && !s.gone k

/-- What is due of a slot that is parked in MWAIT. -/
def State.mwaitEvents (s : State) (w : Nat) (x : SlotId) : List Event :=
  let t := (s.wave w).slot x
  if !t.live || s.toIssueAgain w then []
  else match t.park with
    | .mwait _ _ _ _ deadline =>
      evIf (s.waiters.any fun e => e.wave == w && e.x == x && e.woken) (.mwaitWake w x)
        ++ evIf (match deadline with | some c => decide (c ≤ s.cycle) | none => false) (.mwaitTimeout w x)
    | _ => []

/-- The banks that a parked operation concerns: none of them may be waiting for a quarantine's move (R324). -/
def State.opConcerns (s : State) (p : Park) : List Nat :=
  match p with
  | .op (.banksw v) => [desBank v]
  | .op (.spill v _) => desBank v :: s.setOf (desBank v)
  | .op (.migr v _) => [desBank v]
  | _ => []

/-- What is due of an operation that a slot waits for: it completes though a trap has frozen the slot (R275), and though its
own bank issues nothing. -/
def State.opEvents (s : State) (w : Nat) (x : SlotId) : List Event :=
  let t := (s.wave w).opSlot x
  if !t.live || (s.opConcerns t.park).any s.awaitsMove then []
  else match t.park with
    | .op (.icinv ..) => [.icinvCompletion w x]
    | .op (.tlbinv _ n) => evIf (!s.accessOpen (n % 256)) (.xlatComplete w x)
    | .op (.xlreplay _) => [.xlatComplete w x]
    | .op (.banksw v) =>
      evIf ((s.core (desCore v)).active == desBank v % 2 ||
        (decide ((s.core (desCore v)).active < 2) && (s.core (desCore v)).swapTo.isNone)) (.ctxComplete w x)
    | .op (.spill v _) => evIf ((s.setOf (desBank v)).all s.bankQuiet) (.ctxComplete w x)
    | .op (.migr v _) => evIf ((s.bank (desBank v)).team.isNone || s.bankQuiet (desBank v)) (.ctxComplete w x)
    | .op (.fill _ _) => [.ctxComplete w x]
    | _ => []

/-- What is due of a wave: what it has issued and not delivered, unless that is under check, the operations that its slots
wait for, and its slots in MWAIT, unless it is stopped. -/
def State.waveEvents (s : State) (w : Nat) : List Event :=
  let W := s.wave w
  if !W.resident then []
  else
    (match W.pend with
    | .load x .. => evIf (!s.pendHeld w x) (.loadDataReturn w x)
    | .xv _ _ p => evIf (decide (p.due ≤ s.cycle) && !p.held) (.xvRetire w)
    | _ => [])
    ++ (W.gates.filter fun g => !s.pendHeld w g.x).map (fun g => .commitGateRelease w g.x)
    ++ s.opEvents w .a ++ s.opEvents w .b
    ++ (if W.service.isSome || !s.bankOpen (bankOf w) then [] else s.mwaitEvents w .a ++ s.mwaitEvents w .b)

/-! ### Cores -/

/-- The steps of a core's matrix order (R186). -/
def Core.arrayEvents (c : Core) (core : Nat) : List Event :=
  match c.queue with
  | [] => []
  | o :: _ => if c.rowHeld || o.failed then [] else if o.done < o.rows then [.arrayRowDrain core] else [.matrixOpRetire core]

/-- What is due of the instances under check (R247, R253, R311). -/
def State.checkEvents (s : State) (core : Nat) : List Event :=
  (s.core core).checks.flatMap fun k =>
    match k.phase with
    | .failing => [if k.inj then .injectionFire core else .shadowCheck k.wave k.x (BitVec.ofNat 4 k.stage) false]
    | .step0 => evIf ((s.margin core).cur == 0) (.step0Reexecute core false)
    | .passed0 => evIf (s.gone k) (.step0Reexecute core false)
    | .passed | .failed0 => []

/-- An event window has ended without an escalation (R312). -/
def State.windowOver (s : State) (core : Nat) : Bool :=
  ((s.margin core).expire s.cycle).qinfo != (s.margin core).qinfo

/-- What is due of a core. -/
def State.coreEvents (s : State) (core : Nat) : List Event :=
  let c := s.core core
  let m := c.margin
  s.checkEvents core ++ c.arrayEvents core ++ evIf (s.windowOver core) (.eventWindowExpiry core)
    ++ evIf (m.state == 1 && m.qdue == 0) (.marginSettleComplete core) ++ evIf (m.qdue != 0) (.quarantine core)
    ++ evIf (s.toMove core != []) (.quarantineMove core) ++ evIf (s.quantumOver core) (.swapQuantumExpiry core)
    ++ evIf (s.swapReady core) (.bankSwap core)
    ++ evIf (c.active == 2 && decide (c.swapAt + 32 ≤ s.cycle)) (.bankUngate core)

/-! ### Front ends, partitions, audits, keys -/

/-- What is due of a queue. -/
def State.queueEvents (s : State) (vf q : Nat) : List Event :=
  match s.qHead vf q with
  | none => evIf (s.fetchDue vf q) (.packetFetch vf q)
  | some l => evIf (!l.waited && s.signals l != .waiting) (.signalReread vf q)

/-- What is due of a partition. -/
def State.partEvents (s : State) (p : Nat) : List Event :=
  evIf ((s.part p).ringWait != [] && s.ringRoom p) (.serviceRingRecord p)
    ++ evIf (s.partState p == 1 && (s.partTeams p).all fun b => s.bankQuiet b && !s.awaitsMove b) (.partitionSaveDone p)
    ++ evIf (s.restoreReady p) (.partitionRestoreDone p)
    ++ (if s.partEn p then
        (s.queuesOf p).flatMap (fun e => s.queueEvents e.1 e.2) ++ (s.choosable p).map fun e => .cfeChoice p e.1 e.2
      else [])

/-- What is due of an audit. -/
def State.auditEvents (s : State) (a : Audit) : List Event :=
  if a.finished then evIf (!s.teamBusy a.launch a.team) (.auditCompare a.launch a.team)
  else if s.abandoned a then [.auditRerun a.launch a.team 0]
  else match s.rerunBank a with
    | some b => [.auditRerun a.launch a.team b]
    | none => []

/-- Writes of other dies that may be applied (R225). -/
def State.crossEvents (s : State) (e : Crossing) : List Event :=
  (e.todo.filter fun d => s.causal d e.clock).map fun d => .crossDieWriteApply e.src d e.clock

/-- A world's keys that no die holds (R266). -/
def State.keyEvents (s : State) (world : Nat) : List Event :=
  evIf (!(List.range 8).any fun d => s.wid d == world && s.regBits (dieOff d) 8 1 == 1) (.worldKeyDestroy world)

/-- The steps that are due. -/
def State.dueEvents (s : State) : List Event :=
  s.waves.flatMap (fun e => s.waveEvents e.1)
    ++ s.xfers.flatMap s.xferEvents
    ++ s.arrived.flatMap (fun e => s.flowEvents e.1)
    ++ (s.banks.filter fun e => s.loadReady e.1).map (fun e => .tblldComplete e.1)
    ++ s.cores.flatMap (fun e => s.coreEvents e.1)
    ++ (List.range 48).flatMap s.partEvents
    ++ (s.launches.filter s.launchDone).map (fun l => .launchCompletion l.key)
    ++ s.audits.flatMap s.auditEvents
    ++ s.worldKeys.flatMap (fun e => s.keyEvents e.1)
    ++ s.crossing.flatMap s.crossEvents
    ++ evIf (decide (s.creditEpoch < s.cycle / 65536)) .launchCreditRefill

/-- A governor's raise comes before anything else of its core (R252). -/
def State.urgent (s : State) : List Event :=
  (s.cores.filter fun e => e.2.margin.raiseDue).map fun e => .governorRaise e.1

/-! ### Issue (R31, R32, R240) -/

/-- The major opcode of a slot's next instruction, none where it cannot be fetched. -/
def State.nextMajor (s : State) (w : Nat) (x : SlotId) : Option Nat :=
  ((s.instanceWords w x ((s.wave w).slot x).pc).head?).map fun w0 => (fld w0 2 6).toNat

/-- A slot's next instruction: the instance that it is to issue again (R247), or a fetch. -/
noncomputable def State.nextFetch (s : State) (w : Nat) (x : SlotId) : Fetched :=
  match s.againWords w x with
  | [] => fetch s w ((s.wave w).slot x).pc
  | w0 :: ws => fetchedOf w0 (decodeWords w0 (ws.getD 0 0) (ws.getD 1 0))
/-- The state with the words held that the next instruction has fetched: none for an instance that it issues again. -/
def State.holdNext (s : State) (w : Nat) (x : SlotId) (i : Instr) : State :=
  if s.againWords w x = [] then s.holdFetch w ((s.wave w).slot x).pc (i.size / 4) else s

/-- What an instruction issues on by its major (R31, R94, R151). -/
inductive UnitKind where
  | vector | xv | scalar | memory | engine
deriving DecidableEq, Repr
def majorUnit (m : Nat) : UnitKind :=
  if m = 0x1E then .xv
  else if (0x12 ≤ m ∧ m ≤ 0x1F) ∨ m = 0x3C then .vector
  else if (0x20 ≤ m ∧ m ≤ 0x2A) ∨ m = 0x2F then .memory
  else if m = 0x2B ∨ m = 0x2C ∨ m = 0x31 then .engine
  else .scalar
def State.nextUnit (s : State) (w : Nat) (x : SlotId) : UnitKind := majorUnit ((s.nextMajor w x).getD 0)

/-- The pipe that slot x's next instruction is to issue on, were it a vector instruction (R345). -/
def State.nextPipe (s : State) (w : Nat) (x : SlotId) : Pipe := ({ s with cur := (w, x) } : State).pipe (s.inChain w x)
/-- What slot x's next instruction takes as it issues. -/
def State.takes (s : State) (w : Nat) (x : SlotId) : IssueUnit :=
  match s.nextUnit w x with
  | .vector => .vector (s.nextPipe w x)
  | .xv => .xv (s.nextPipe w x)
  | .scalar => .scalar
  | .memory => .memory
  | .engine => .engine

/-- A vector instruction of slot x may still issue in the present cycle: the wave has issued none, nothing has issued on its
pipe, and no other slot's chain holds that (R29, R31). -/
def State.pipeFree (s : State) (w : Nat) (x : SlotId) : Bool :=
  let now := s.issuedNow (coreOf w)
  let p := s.nextPipe w x
  !(now.any fun e => e.1.pipe.isSome && (e.2 == w || e.1.pipe == some p)) && !s.pipeHeld w x p

/-- Whether the present cycle can still take slot x's next instruction (R31, R151), and the power manager does not withhold it
(R12). -/
def State.unitFree (s : State) (w : Nat) (x : SlotId) : Bool :=
  let now := s.issuedNow (coreOf w)
  let granted := decide (s.withholdTo ≤ s.cycle)
  match s.nextUnit w x with
  | .vector => granted && s.pipeFree w x
  | .xv => granted && s.pipeFree w x && !now.any fun e => match e.1 with | .xv _ => true | _ => false
  | .scalar => !now.any fun e => e.1 == .scalar
  | .memory => !now.any fun e => e.1 == .memory
  | .engine => (granted || s.nextMajor w x != some 0x31) && !now.any fun e => e.1 == .engine

/-- An entry of no stage: the issuing instruction has entered none yet. -/
def notEntered : List StageEntry := [{ core := 0, stage := 0, pc := 0 }]
/-- Slot x is the one that issues. -/
def State.atIssue (s : State) (w : Nat) (x : SlotId) : State := { s with cur := (w, x), stages := notEntered }
/-- An instruction that took `v` to `t` has only waited: it has entered no stage and taken no trap. -/
def onlyWaited (v t : State) (w : Nat) : Bool :=
  t.stages == notEntered && (t.wave w).handler == (v.wave w).handler
    && (t.wave w).service.isSome == (v.wave w).service.isSome

/-- Majors with instructions that may wait at issue: VBR, CTL (JOIN, END), XV, TBL, FENCE, CPY, NET, MX. -/
def waitMajors : List Nat := [0x0E, 0x10, 0x1E, 0x20, 0x28, 0x2B, 0x2C, 0x31]
/-- Slot x's next instruction, of a state without a wait that is over, would only wait, and has joined its queue if there is
one: it does not issue. -/
noncomputable def State.stalled (s : State) (w : Nat) (x : SlotId) : Bool :=
  if !(match s.nextMajor w x with | some m => waitMajors.contains m | none => false) then false
  else
    match s.nextFetch w x with
    | .instr i =>
      let v := s.atIssue w x
      (match exec i v with
      | .next t => onlyWaited v t w && (t.bank (bankOf w)).waitQ == (s.bank (bankOf w)).waitQ
      | _ => false)
    | _ => false

/-- A slot is ready, margin control does not hold it, and its instruction does not wait. A wait that is over ends without
issuing. -/
noncomputable def State.slotGoes (s : State) (w : Nat) (x : SlotId) : Bool :=
  s.slotReady w x && !s.holds w x && (((s.wave w).slot x).park != .none || !s.stalled w x)

/-- A wave that has yielded lets each other ready wave of its team issue once, for 16 cycles at most (R116). -/
noncomputable def State.yielding (s : State) (w : Nat) : Bool :=
  (s.bank (bankOf w)).yields.any fun y => y.wave == waveNo w && decide (s.cycle < y.since + 16)
    && (bankWaves (bankOf w)).any fun v => v != w && !y.after.getLsbD (waveNo v) && (s.slotGoes v .a || s.slotGoes v .b)

/-- Whether slot x may issue now: it may go, and what it issues on is free. -/
noncomputable def State.mayIssue (s : State) (w : Nat) (x : SlotId) : Bool :=
  s.slotGoes w x && (((s.wave w).slot x).park != .none || s.unitFree w x && !s.yielding w)

/-- The slot of a wave that issues next, of those that `p` holds for: one in its chain, else they alternate (R32). -/
noncomputable def State.nextSlot (s : State) (w : Nat) (p : SlotId → Bool) : Option SlotId :=
  let ok (x : SlotId) : Bool := p x && s.mayIssue w x
  let last := (s.wave w).last
  if ok last && s.inChain w last then some last
  else if ok (otherSlot last) then some (otherSlot last)
  else if ok last then some last
  else none

/-- The banks that issue: active, open, with their whole set, and with a quarantine's record of their move written (R347). -/
def State.issuing (s : State) (b : Nat) : Bool :=
  (s.core (coreOfBank b)).active == b % 2 && s.bankOpen b && s.ganged b && !s.moveRecordWaits b
/-- The banks whose open chains go on to their ends (R29; log 64). -/
def State.chaining (s : State) (b : Nat) : Bool :=
  (s.core (coreOfBank b)).active == b % 2 && s.bankLive b && !s.moveRecordWaits b

/-- The first wave of a bank, in round-robin order, with a slot that may issue. -/
noncomputable def State.bankIssue (s : State) (b : Nat) : Option (Nat × SlotId) :=
  (s.bank b).order.findSome? fun i =>
    (s.nextSlot (8 * b + i) fun x => s.issuing b || s.inChain (8 * b + i) x).map fun x => (8 * b + i, x)

/-- Instances that have passed at step 0 complete, whatever else their banks wait for (R248, R311). -/
def State.completions (s : State) : List (Nat × SlotId) :=
  s.cores.flatMap fun e => (e.2.checks.filter fun k => s.completing k.wave k.x && s.slotReady k.wave k.x).map fun k => (k.wave, k.x)

/-- The slots that may issue next, one for each bank. -/
noncomputable def State.issues (s : State) : List (Nat × SlotId) :=
  ((s.banks.filter fun e => s.issuing e.1 || s.chaining e.1).filterMap (fun e => s.bankIssue e.1) ++ s.completions).eraseDups

/-- What may come next. -/
inductive Due where
  | event (e : Event)
  | issue (w : Nat) (x : SlotId)
  /-- The first of the inputs to come. -/
  | input (e : Event)
deriving DecidableEq, Repr

/-- Everything that may come next. -/
noncomputable def State.options (s : State) : List Due :=
  match s.urgent with
  | e :: _ => [.event e]
  | [] =>
    s.dueEvents.map .event ++ (s.issues.map fun e => .issue e.1 e.2)
      ++ (match s.inputs with | e :: _ => [.input e] | [] => [])

/-- The step that the schedule takes. -/
noncomputable def State.pick (s : State) (choice : Nat) : Option Due :=
  let os := s.options
  os[choice % os.length]?

/-- The clock and the schedule go on by one step. -/
def State.tickOn (s : State) : State :=
  { s.passCycles (s.delays.headD 1) with
    tick := s.tick + 1, choices := s.choices.drop 1, delays := s.delays.drop 1 }

/-- Nothing may come next: a cycle passes at least, where the step has taken `d`. -/
def State.idle (s : State) (d : Nat) : State := if d = 0 then s.passCycles 1 else s

/-- The steps of outside parties: links, harts, the hypervisor, the root of trust, faults of the silicon. -/
def Event.outside : Event → Bool
  | .networkMessagePlacement .. | .remoteAcceptance .. | .shadowCheck .. | .step0Reexecute .. | .queueDoorbell ..
  | .queueEnable .. | .queueDisable .. | .hxtLaunchMessage .. | .resume .. | .deliver .. | .kill ..
  | .uncorrectableError .. | .integrityTreeFailure .. | .partitionHalt .. | .partitionResume .. | .imageLoadGo
  | .imageVerifyDone .. | .imageRevoke | .worldWrite .. | .bounceResync .. | .bounceHseqWrite .. | .flowValidClear ..
  | .windowWrite .. | .pcieCxlRequest .. | .spdmRequest | .powerLimitWithholding .. | .lerridHartMemoryAccess .. => true
  | _ => false

/-- A wave that issues has had its turn for those that have yielded, and its own yield is over (R116). -/
def yieldsAfter (l : List Yield) (n : Nat) : List Yield :=
  (l.filter fun y => y.wave != n).map fun y => { y with after := y.after ||| BitVec.twoPow 8 n }

/-- The bank's pointer advances past the wave that issues (R240), the slot is noted (R32), and what it issues on (R31). -/
def State.beginIssue (s : State) (w : Nat) (x : SlotId) : State :=
  let C := s.core (coreOf w)
  let B := s.bank (bankOf w)
  let s1 := s.setBank (bankOf w) { B with
    order := (List.range 8).map fun i => (waveNo w + 1 + i) % 8, yields := yieldsAfter B.yields (waveNo w) }
  let s2 := s1.setCore (coreOf w) { C with issued := (s.cycle, (s.takes w x, w) :: s.issuedNow (coreOf w)) }
  (s2.setWave w { s2.wave w with last := x }).atIssue w x

/-- Whether an instruction writes MGN_INJ. -/
def writesInj : Instr → Bool
  | .swr _ spr => spr == 0x104
  | _ => false

/-- A fetch that fails: MISS (R291). Inside a chain that may be run again, the slot resumes at the head (R30; log 14). -/
def missTrap (s : State) (addr : Word) : State :=
  let t := s.cs
  let head := match t.chain with
    | some c => if s.inChain s.cur.1 s.cur.2 && c.restarts then c.head else t.pc
    | none => t.pc
  takeTrap (s.logFetch s.cur.1 addr) s.cur.1 s.cur.2 { instrTrap .miss addr t.pc with chain := head, next := head }

/-- The stage entries that an instruction has made. -/
def State.entered (s : State) : State := if s.stages = notEntered then { s with stages := [] } else s

/-- Around an event: rows that leave the array enter their stage (R352). -/
def afterEvent (e : Event) (s t : State) : State :=
  match e with
  | .arrayRowDrain core => afterRow s t core
  | _ => { t with stages := [] }

/-- An arriving message joins those that wait at its flow's interface. -/
def arrive (s : State) (flow : Nat) (data : List Byte) : State := s.setWaiting flow (s.waiting flow ++ [data])

end Sys2Proof.Machine
end

