-- ==== Sys2Proof/Machine/Load.lean ====
section
/-! DEFINITION. Machine/Load.lean: a program loaded from outside the machine, for `State.withFetchWord` (log 9): what
boot, the hypervisor, a queue and a front end would have done, done at once. -/
namespace Sys2Proof.Machine

/-- Bytes stored with nothing else changed. -/
def State.storeBytes (s : State) (a : Nat) (bs : List Byte) : State :=
  { s with pmem := bs.zipIdx.foldl (fun m e => SMap.set zeros m (a + e.2) e.1) s.pmem }

/-- The first slot that may issue. -/
noncomputable def State.firstIssue (s : State) : Option (Nat × SlotId) := s.issues.head?

/-- Bytes stored where a slot fetches, word by word, with no older copy of a word in the core's instruction cache. -/
def State.placeAt (s : State) (w : Nat) (x : SlotId) (bs : List Byte) : State :=
  let pc := ((s.wave w).slot x).pc
  (List.range 3).foldl (fun (t : State) i =>
    match fetchPa t w (pc + BitVec.ofNat 64 (4 * i)) with
    | none => t
    | some (pa, _) =>
      let u := t.storeBytes pa ((bs.drop (4 * i)).take 4)
      let c := u.core (coreOf w)
      u.setCore (coreOf w) { c with icache := SMap.erase c.icache (pa / 4) }) s

/-- The schedule takes a slot, if it may issue. -/
noncomputable def State.chooseSlot (s : State) (e : Nat × SlotId) : Option State :=
  (s.tickOn.options.findIdx? fun d => d == .issue e.1 e.2).map fun n => { s with choices := n :: s.choices.drop 1 }

/-- The launch of the loaded kernel: one team of one wave of the service VF 0, 4 KiB of team scratchpad, entry at 64 KiB. -/
def loadedLaunch (key : Nat) : Launch :=
  { key := key, part := 0, vf := 0, q := 0, packetAddr := 0, packet := [0x1004001, 0, 0, 0x1000, 0, 0, 0, 0], entry := 0x10000
    loadid := 0, system := true, waited := true, placed := 1, retired := 0, rollbacks := 0, snapLost := false
    sentNet := false, killed := false, snaps := [], unsnapped := [] }

/-- Partition 0 of cluster 0, its service VF 0, a translation of its first GiB to the first GiB of memory with W and X,
and the kernel in bank 0 of core 0. -/
def State.loaded (s : State) : State :=
  let s1 := { s with boot := .up, pmem := [], tlb := [], inputs := [] }
  let s2 := ((s1.setReg (partOff 0) 0x0001000101441000).setReg (vfOff 0) 0x1005).setReg (vfOff 0 + 8) 0x1000
  let s3 := ((s2.storeBytes 0x1000 [0x01, 0x20]).storeBytes 0x2000 [0x01, 0x30]).storeBytes 0x3000 [0x0F]
  let l := loadedLaunch s3.nextKey
  let t : Team :=
    { launch := l.key, vf := 0, teamId := 0, setIx := 0, setBanks := [0], span := 0, waves := 1, spSize := 0x1000, clPart := 0
      retired := 0, sampled := false, rerun := false }
  let s4 := { s3 with nextKey := s3.nextKey + 1, launches := s3.launches ++ [l] }
  (s4.setBank 0 { Bank.zero with owner := some 0, team := some t }).startWave l 0 0

end Sys2Proof.Machine
end

