-- ==== Sys2Proof/Machine/Step.lean ====
section
/-! DEFINITION. Machine/Step.lean: one step of the machine: the step that the schedule picks among those that are due,
the slots that may issue and the first of the inputs to come. -/
namespace Sys2Proof.Machine

/-- The stage entries of a slot's next instruction, were it to issue now (R352): none for an XV, which is checked in flight. -/
noncomputable def peek (s : State) (w : Nat) (x : SlotId) : List StageEntry :=
  let u := s.beginIssue w x
  if !(s.issuing (bankOf w) || s.chaining (bankOf w) && s.inChain w x) || !s.mayIssue w x || u.cs.park != .none then []
  else
    match u.nextFetch w x with
    | .instr i =>
      (match exec i (u.holdNext w x i) with
      | .next t => (match (t.wave w).pend with | .xv .. => [] | _ => t.entered.stages)
      | _ => [])
    | _ => []

/-- Before an event: a late sample of a slot's next instruction meets one of the stages that it enters. -/
noncomputable def beforeEvent (e : Event) (s : State) : State :=
  match e with
  | .shadowCheck w x _ _ => { s with stages := peek s w x }
  | _ => s

/-- A step that is no instruction. -/
noncomputable def runEvent (s : State) (e : Event) : Host.Outcome State Fault Refusal :=
  match exec e.instr (beforeEvent e s) with
  | .next t => .next (afterEvent e s t)
  | o => o

/-- The first input, if it is a step of an outside party. An arriving message waits at its flow's interface first. -/
noncomputable def runInput (s : State) (e : Event) : Host.Outcome State Fault Refusal :=
  let t := { s with inputs := s.inputs.drop 1 }
  if e.outside && e.instr.wf then
    match e with
    | .networkMessagePlacement flow data => .next (arrive t flow data)
    | e => runEvent t e
  else .next t

/-- The next instruction of a slot, decoded and executed; MISS or ILL where there is none. One that only waits does not issue:
it has joined its queue, if it has one. -/
noncomputable def runInstr (s : State) (w : Nat) (x : SlotId) : Host.Outcome State Fault Refusal :=
  let u := s.beginIssue w x
  match u.nextFetch w x with
  | .miss a => .next ((missTrap u a).entered)
  | .bad _ => .next ((u.trapCur .ill 0).entered)
  | .instr i =>
    let v := u.holdNext w x i
    match exec i v with
    | .next t =>
      if onlyWaited v t w then
        .next { s.setBank (bankOf w) { s.bank (bankOf w) with waitQ := (t.bank (bankOf w)).waitQ } with cur := (w, x), stages := [] }
      else .next (afterIssue (writesInj i) v t.entered)
    | o => o

/-- A wave's slot has trapped between two states. -/
def trapped (s : State) (w : Nat) (r : Host.Outcome State Fault Refusal) : Bool :=
  match r with
  | .next t =>
    (t.wave w).handler != (s.wave w).handler || (t.wave w).service.isSome != (s.wave w).service.isSome
  | _ => false

/-- A slot goes on: a wait that is over ends, or its next instruction issues. Where slot B is to trap and slot A may issue in
the same cycle and traps too, slot A's trap is taken (R276). -/
noncomputable def runSlot (s : State) (w : Nat) (x : SlotId) : Host.Outcome State Fault Refusal :=
  if s.parkOver w x then .next (endWait (s.atIssue w x).entered)
  else
    let r := runInstr s w x
    if x = .b ∧ trapped s w r = true ∧ ((s.wave w).slot .a).park = .none ∧ s.mayIssue w .a = true then
      let r' := runInstr s w .a
      if trapped s w r' then r' else r
    else r

/-- One step. -/
noncomputable def step (s : State) : Host.Outcome State Fault Refusal :=
  match s.boot with
  | .failed _ => .fault .heldInReset
  | .inReset => runEvent s.tickOn .moduleBoot
  | .up =>
    match s.tickOn.pick (s.choices.headD 0) with
    | none => .next (s.tickOn.idle (s.delays.headD 1))
    | some (.event e) => runEvent s.tickOn e
    | some (.input e) => runInput s.tickOn e
    | some (.issue w x) => runSlot s.tickOn w x

/-- The state with an instruction stored where the next step fetches (log 9): in the slot that issues next, or else in a
kernel that is loaded for it; the schedule's next choice is that slot. -/
noncomputable def State.withFetchWord (s : State) (nbits w : Nat) : State :=
  let bs := leBytes 12 (w % 2 ^ nbits)
  match s.tickOn.firstIssue.bind fun e => (s.placeAt e.1 e.2 bs).chooseSlot e with
  | some t => t
  | none =>
    let t := s.loaded.placeAt 0 .a bs
    (t.chooseSlot (0, .a)).getD t

end Sys2Proof.Machine
end

