-- ==== Sys2Proof/Safety.lean ====
section
/-! DEFINITION. Safety.lean: what counts as a safe run, and what a step may change, in the terms that claims use. -/
namespace Sys2Proof.Machine

/-- A state that boot does not hold in reset. -/
def State.running (s : State) : Prop := ∀ n, s.boot ≠ .failed n

/-- A run is safe if none of its steps ends in a fault or a refusal. -/
def SafeRun (n : Nat) (s : State) : Prop := ∀ k, k ≤ n → ∃ t, Host.Core.run Sys2Proof.core k s = .next t

/-- Memory is in its canonical form. -/
def State.memoryOk (s : State) : Prop := Memory.wf s.pmem = true

/-! ### What an instruction leaves alone -/

/-- Outside the issuing wave nothing has changed but the event counters of its core (R269), where any are selected, and
the note of the stages it has entered (R352). No byte of memory has changed. -/
structure OnlyWave (s t : State) : Prop where
  rest : t = { s with waves := t.waves, cores := t.cores, stages := t.stages }
  waves : ∀ w, w ≠ s.cur.1 → t.wave w = s.wave w
  ownCore : t.core (coreOf s.cur.1) =
    { s.core (coreOf s.cur.1) with evcnt := (t.core (coreOf s.cur.1)).evcnt }
  otherCores : ∀ c, c ≠ coreOf s.cur.1 → t.core c = s.core c
  uncounted : (s.core (coreOf s.cur.1)).evsel = [] → ∀ c, t.core c = s.core c
  byte : ∀ a, t.byte a = s.byte a

/-- The capsule context after one more instruction of the step (R211); a wave in handler mode counts none (R218). -/
def stepCounted (W : Wave) : Option Capsule :=
  match W.capsule with
  | some c => if W.handler then some c else some { c with instrs := c.instrs + 1 }
  | none => none

/-- The state on which an instruction's own effect acts: it differs from `s` by counts, and in a capsule step by the step's
count. -/
structure Started (s u : State) : Prop where
  only : OnlyWave s u
  cur : u.cur = s.cur
  cw : u.cw = { s.cw with capsule := stepCounted s.cw }

/-- The issuing slot traps: `takeTrap` has its own statements. The instruction has no effect but its event counts (R275). -/
def State.trapsBy (s : State) (o : Out) (a : TrapArgs) : Prop :=
  ∃ u, OnlyWave s u ∧ u.cur = s.cur ∧ u.cw = s.cw ∧ o = .next (takeTrap u s.cur.1 s.cur.2 a)

/-- The issuing wave holds the registers `S`, `K` and `V` and its slot is `slot`. Nothing else has changed: not the other
slot, the stacks, the trap registers, a special register or a byte of memory. -/
structure GoesOn (s t : State) (S : SReg → Word) (K : KReg → Mask) (V : Nat → Nat → W32) (slot : Slot) : Prop where
  only : OnlyWave s t
  sregs : ∀ r, t.S r = S r
  kregs : ∀ k, t.K k = K k
  vregs : ∀ r i, i < 128 → t.cw.v r i = V r i
  slot : t.cs = slot
  other : t.cw.slot (otherSlot s.cur.2) = s.cw.slot (otherSlot s.cur.2)
  rest : t.cw = { s.cw with
    sregs := t.cw.sregs, kregs := t.cw.kregs, vregs := t.cw.vregs, slotA := t.cw.slotA, slotB := t.cw.slotB
    capsule := stepCounted s.cw }

/-- The slot of an instruction that is no vector ALU instruction, at its next address: its mask, depth and latches as they
were, its chain ended (R29). -/
def State.slotAt (s : State) (pc : Word) : Slot := { s.cs with pc := pc, chain := none, xvres := none }
/-- The address behind an instruction of `n` bytes. -/
def State.after (s : State) (n : Nat) : Word := s.cs.pc + BitVec.ofNat 64 n
/-- The scalar registers after S[d] := v, where s0 stays 0 (R101). -/
def State.withS (s : State) (d : SReg) (v : Word) : SReg → Word := fun r => if r = d ∧ r ≠ 0 then v else s.S r
/-- The mask registers after K[d] := v; a field 0 names none (R89). -/
def State.withK (s : State) (d : KReg) (v : Mask) : KReg → Mask := fun k => if k = d ∧ k ≠ 0 then v else s.K k

/-- No capsule limit bears on the issuing wave: it is in no capsule step, or in handler mode (R211, R218). -/
def State.unlimited (s : State) : Prop := s.cw.capsule = none ∨ s.cw.handler = true
/-- The capsule limits let an instruction act that a capsule body may hold and that names the registers `l` (R209, R211). -/
def State.allows (s : State) (l : List SReg) : Prop :=
  s.unlimited ∨ ∃ c, s.cw.capsule = some c ∧ c.instrs < 64 ∧ ∀ r ∈ l, r = 0 ∨ (48 ≤ r.toNat ∧ r.toNat ≤ 55)

end Sys2Proof.Machine
end

