-- ==== Sys2Proof/Certificates/Slice0/Obligations.lean ====
section
/-! DEFINITION. Certificates/Slice0/Obligations.lean: the statements for the provers. What a family's instructions do is
first written as a function of the state in the spec's own arithmetic, and a statement then says that `exec` gives it. -/

namespace Sys2Proof.Machine

/-! ### The scalar unit -/

/-- What an instruction of the scalar unit comes to: S[dst] := val, `len` bytes long; `names` are its register fields. -/
structure ScalarForm where
  dst : SReg
  val : Word
  len : Nat
  names : List SReg

/-- R103: b[5:0], the amount of a shift or rotate. -/
def amount (b : Word) : Nat := b.toNat % 64
/-- R103, R104: the quotients, truncated toward zero. -/
def quotS (a b : Word) : Word := if b = 0 then 0xFFFFFFFFFFFFFFFF else BitVec.ofInt 64 (a.toInt.tdiv b.toInt)
def quotN (a b : Word) : Word := if b = 0 then 0xFFFFFFFFFFFFFFFF else BitVec.ofNat 64 (a.toNat / b.toNat)
/-- R103, R104: a − b × quotient. -/
def remainS (a b : Word) : Word :=
  if b = 0 then a else BitVec.ofInt 64 (a.toInt - b.toInt * a.toInt.tdiv b.toInt)
def remainN (a b : Word) : Word := if b = 0 then a else BitVec.ofNat 64 (a.toNat - b.toNat * (a.toNat / b.toNat))
/-- R103: the shifts and the rotate, as arithmetic. -/
def shiftL (a b : Word) : Word := BitVec.ofNat 64 (a.toNat * 2 ^ amount b)
def shiftR (a b : Word) : Word := BitVec.ofNat 64 (a.toNat / 2 ^ amount b)
def shiftA (a b : Word) : Word := BitVec.ofInt 64 (a.toInt / (2 ^ amount b : Nat))
def rotateL (a b : Word) : Word := BitVec.ofNat 64 (a.toNat * 2 ^ amount b + a.toNat / 2 ^ (64 - amount b))
/-- R103: the comparisons. -/
def boolWord (p : Prop) [Decidable p] : Word := if p then 1 else 0
/-- R103: how many zeros come before the first one, from the top or from the bottom, and how many ones there are. -/
def leadingZeros (a : Word) : Word := BitVec.ofNat 64 ((List.range 64).takeWhile fun i => !a.getLsbD (63 - i)).length
def trailingZeros (a : Word) : Word := BitVec.ofNat 64 ((List.range 64).takeWhile fun i => !a.getLsbD i).length
def onesCount (a : Word) : Word := BitVec.ofNat 64 ((List.range 64).map fun i => (a.getLsbD i).toNat).sum

/-- R102: two registers, a register and a literal, one register. -/
def form3 (s : State) (f : Word → Word → Word) (d a b : SReg) : Option ScalarForm := some ⟨d, f (s.S a) (s.S b), 4, [d, a, b]⟩
def formLit (s : State) (f : Word → Word → Word) (d a : SReg) (l : W32) : Option ScalarForm :=
  some ⟨d, f (s.S a) (BitVec.ofInt 64 l.toInt), 8, [d, a]⟩
def form1 (s : State) (f : Word → Word) (d a : SReg) : Option ScalarForm := some ⟨d, f (s.S a), 4, [d, a]⟩
/-- R105: the immediate is imm12, sign-extended. R106: the amount is n. -/
def formImm (s : State) (f : Word → Word → Word) (d a : SReg) (i : BitVec 12) : Option ScalarForm :=
  some ⟨d, f (s.S a) (BitVec.ofInt 64 i.toInt), 4, [d, a]⟩
def formShift (s : State) (f : Word → Word → Word) (d a : SReg) (n : BitVec 6) : Option ScalarForm :=
  some ⟨d, f (s.S a) (BitVec.ofNat 64 n.toNat), 4, [d, a]⟩

/-- R103's table, in the integers: sums and products wrap modulo 2^64. -/
def sumOf (a b : Word) : Word := BitVec.ofNat 64 (a.toNat + b.toNat)
def differenceOf (a b : Word) : Word := BitVec.ofInt 64 ((a.toNat : Int) - b.toNat)
def productOf (a b : Word) : Word := BitVec.ofNat 64 (a.toNat * b.toNat)
def productHighS (a b : Word) : Word := BitVec.ofInt 64 (a.toInt * b.toInt / 2 ^ 64)
def productHighN (a b : Word) : Word := BitVec.ofNat 64 (a.toNat * b.toNat / 2 ^ 64)
def smallerS (a b : Word) : Word := if a.toInt ≤ b.toInt then a else b
def largerS (a b : Word) : Word := if a.toInt ≤ b.toInt then b else a
def smallerN (a b : Word) : Word := if a.toNat ≤ b.toNat then a else b
def largerN (a b : Word) : Word := if a.toNat ≤ b.toNat then b else a
def lessS (a b : Word) : Word := boolWord (a.toInt < b.toInt)
def lessN (a b : Word) : Word := boolWord (a.toNat < b.toNat)
def equalTo (a b : Word) : Word := boolWord (a = b)
def andNot (a b : Word) : Word := a &&& (a ^^^ (a &&& b))

/-- SALU (R102, R103). -/
def saluForm (s : State) : Instr → Option ScalarForm
  | .add d a b => form3 s sumOf d a b
  | .addLit d a l => formLit s sumOf d a l
  | .sub d a b => form3 s differenceOf d a b
  | .subLit d a l => formLit s differenceOf d a l
  | .mul d a b => form3 s productOf d a b
  | .mulLit d a l => formLit s productOf d a l
  | .mulh d a b => form3 s productHighS d a b
  | .mulhLit d a l => formLit s productHighS d a l
  | .mulhn d a b => form3 s productHighN d a b
  | .mulhnLit d a l => formLit s productHighN d a l
  | .div d a b => form3 s quotS d a b
  | .divLit d a l => formLit s quotS d a l
  | .divn d a b => form3 s quotN d a b
  | .divnLit d a l => formLit s quotN d a l
  | .rem d a b => form3 s remainS d a b
  | .remLit d a l => formLit s remainS d a l
  | .remn d a b => form3 s remainN d a b
  | .remnLit d a l => formLit s remainN d a l
  | .and_ d a b => form3 s (· &&& ·) d a b
  | .andLit d a l => formLit s (· &&& ·) d a l
  | .or_ d a b => form3 s (· ||| ·) d a b
  | .orLit d a l => formLit s (· ||| ·) d a l
  | .xor d a b => form3 s (· ^^^ ·) d a b
  | .xorLit d a l => formLit s (· ^^^ ·) d a l
  | .andn d a b => form3 s andNot d a b
  | .andnLit d a l => formLit s andNot d a l
  | .shl d a b => form3 s shiftL d a b
  | .shlLit d a l => formLit s shiftL d a l
  | .shr d a b => form3 s shiftR d a b
  | .shrLit d a l => formLit s shiftR d a l
  | .sha d a b => form3 s shiftA d a b
  | .shaLit d a l => formLit s shiftA d a l
  | .rol d a b => form3 s rotateL d a b
  | .rolLit d a l => formLit s rotateL d a l
  | .min_ d a b => form3 s smallerS d a b
  | .minLit d a l => formLit s smallerS d a l
  | .minn d a b => form3 s smallerN d a b
  | .minnLit d a l => formLit s smallerN d a l
  | .max_ d a b => form3 s largerS d a b
  | .maxLit d a l => formLit s largerS d a l
  | .maxn d a b => form3 s largerN d a b
  | .maxnLit d a l => formLit s largerN d a l
  | .slt d a b => form3 s lessS d a b
  | .sltLit d a l => formLit s lessS d a l
  | .sltn d a b => form3 s lessN d a b
  | .sltnLit d a l => formLit s lessN d a l
  | .seq d a b => form3 s equalTo d a b
  | .seqLit d a l => formLit s equalTo d a l
  | .clz d a => form1 s leadingZeros d a
  | .ctz d a => form1 s trailingZeros d a
  | .popc d a => form1 s onesCount d a
  | _ => none

/-- The immediate forms (R105) and SHIFTI (R106). -/
def immForm (s : State) : Instr → Option ScalarForm
  | .addi d a i => formImm s sumOf d a i
  | .addiLit d a l => formLit s sumOf d a l
  | .andi d a i => formImm s (· &&& ·) d a i
  | .andiLit d a l => formLit s (· &&& ·) d a l
  | .ori d a i => formImm s (· ||| ·) d a i
  | .oriLit d a l => formLit s (· ||| ·) d a l
  | .xori d a i => formImm s (· ^^^ ·) d a i
  | .xoriLit d a l => formLit s (· ^^^ ·) d a l
  | .slti d a i => formImm s lessS d a i
  | .sltiLit d a l => formLit s lessS d a l
  | .sltni d a i => formImm s lessN d a i
  | .sltniLit d a l => formLit s lessN d a l
  | .shli d a n => formShift s shiftL d a n
  | .shri d a n => formShift s shiftR d a n
  | .shai d a n => formShift s shiftA d a n
  | .roli d a n => formShift s rotateL d a n
  | _ => none

end Sys2Proof.Machine

open Sys2Proof Sys2Proof.Machine in
/-- R103, R104: every SALU instruction, in every form, writes its one result to S[sd] (nothing, where sd is s0) and goes on
behind itself; no other register, flag, slot or byte changes. It holds wherever no capsule limit stops it.
R105, R106: the immediate forms, their literal forms, and the four shifts by an immediate. -/
def Obligations.ScalarInstructionsWriteTheirResult : Prop :=
  (∀ (s : State) (i : Instr) (F : ScalarForm), saluForm s i = some F → s.allows F.names →
    ∃ t, exec i s = .next t ∧ GoesOn s t (s.withS F.dst F.val) s.K s.cw.v (s.slotAt (s.after F.len))) ∧
  (∀ (s : State) (i : Instr) (F : ScalarForm), immForm s i = some F → s.allows F.names →
    ∃ t, exec i s = .next t ∧ GoesOn s t (s.withS F.dst F.val) s.K s.cw.v (s.slotAt (s.after F.len)))
namespace Sys2Proof.Machine

/-! ### Branches, jumps and mask instructions -/

/-- What a branch comes to: whether it is taken, its target, its length, and its register fields if a capsule body may
hold it (R83). -/
structure BranchForm where
  taken : Bool
  target : Word
  len : Nat
  names : Option (List SReg)

/-- R110: a word offset counts words from the branch's own address, a literal counts bytes. -/
def wordTarget (s : State) {n : Nat} (off : BitVec n) : Word := BitVec.ofInt 64 (s.cs.pc.toNat + 4 * off.toInt)
def byteTarget (s : State) (l : W32) : Word := BitVec.ofInt 64 (s.cs.pc.toNat + l.toInt)
/-- R112: the two forms of a condition on S[sa]. -/
def bz (s : State) (p : Int → Bool) (a : SReg) (off : BitVec 14) : Option BranchForm :=
  some ⟨p (s.S a).toInt, wordTarget s off, 4, some [a]⟩
def bzL (s : State) (p : Int → Bool) (a : SReg) (l : W32) : Option BranchForm :=
  some ⟨p (s.S a).toInt, byteTarget s l, 8, some [a]⟩
/-- R115: m is the slot's mask, t := m AND K[k], and field 0 gives t := m. -/
def masked (s : State) (k : KReg) : Mask := if k = 0 then s.cs.mask else s.cs.mask &&& s.K k
def bu (s : State) (p : Mask → Mask → Bool) (k : KReg) (off : BitVec 14) : Option BranchForm :=
  some ⟨p s.cs.mask (masked s k), wordTarget s off, 4, none⟩
def buL (s : State) (p : Mask → Mask → Bool) (k : KReg) (l : W32) : Option BranchForm :=
  some ⟨p s.cs.mask (masked s k), byteTarget s l, 8, none⟩

/-- BRA (R111), BZ (R112), BU (R115). -/
def branchForm (s : State) : Instr → Option BranchForm
  | .bra off => some ⟨true, wordTarget s off, 4, some []⟩
  | .braLit l => some ⟨true, byteTarget s l, 8, some []⟩
  | .beqz a off => bz s (fun v => v = 0) a off
  | .beqzLit a l => bzL s (fun v => v = 0) a l
  | .bnez a off => bz s (fun v => v ≠ 0) a off
  | .bnezLit a l => bzL s (fun v => v ≠ 0) a l
  | .bltz a off => bz s (fun v => v < 0) a off
  | .bltzLit a l => bzL s (fun v => v < 0) a l
  | .bgez a off => bz s (fun v => 0 ≤ v) a off
  | .bgezLit a l => bzL s (fun v => 0 ≤ v) a l
  | .blez a off => bz s (fun v => v ≤ 0) a off
  | .blezLit a l => bzL s (fun v => v ≤ 0) a l
  | .bgtz a off => bz s (fun v => 0 < v) a off
  | .bgtzLit a l => bzL s (fun v => 0 < v) a l
  | .bany k off => bu s (fun _ t => t ≠ 0) k off
  | .banyLit k l => buL s (fun _ t => t ≠ 0) k l
  | .ball k off => bu s (fun m t => t = m) k off
  | .ballLit k l => buL s (fun m t => t = m) k l
  | .bnone k off => bu s (fun _ t => t = 0) k off
  | .bnoneLit k l => buL s (fun _ t => t = 0) k l
  | _ => none

/-- The capsule limits let a form act: one that a body may hold by its registers, any other outside the limits. -/
def State.lets (s : State) (names : Option (List SReg)) : Prop :=
  match names with
  | some l => s.allows l
  | none => s.unlimited

/-- A jump's target, its length, and whether it links: CALL (R111), RET, JMPI, CALLI (R113). -/
def jumpForm (s : State) : Instr → Option (Word × Nat × Bool)
  | .call off => some (wordTarget s off, 4, true)
  | .callLit l => some (byteTarget s l, 8, true)
  | .ret => some (s.S 63, 4, false)
  | .jmpi a => some (s.S a, 4, false)
  | .calli a => some (s.S a, 4, true)
  | _ => none

/-- The jumps through a register (R113). -/
def jumpsThrough : Instr → Bool
  | .ret | .jmpi _ | .calli _ => true
  | _ => false

/-- R118: the new value of K[kd], or of S[sd]. -/
def kopForm (s : State) : Instr → Option (KReg × Mask)
  | .kand d a b => some (d, s.K a &&& s.K b)
  | .kor d a b => some (d, s.K a ||| s.K b)
  | .kxor d a b => some (d, s.K a ^^^ s.K b)
  | .kandn d a b => some (d, laneMask fun i => (s.K a).getLsbD i && !(s.K b).getLsbD i)
  | .knot d a => some (d, laneMask fun i => !(s.K a).getLsbD i)
  | .kmov d a => some (d, s.K a)
  | .klds d r => some (d, BitVec.ofNat 128 ((s.S r).toNat + 2 ^ 64 * (s.S (r + 1)).toNat))
  | .kexec d => some (d, s.cs.mask)
  | .klane d r => some (d, laneMask fun i => i = (s.S r).toNat)
  | _ => none
def kopScalar (s : State) : Instr → Option (SReg × Word)
  | .kpopc d a => some (d, BitVec.ofNat 64 ((List.range 128).map fun i => ((s.K a).getLsbD i).toNat).sum)
  | .kfirst d a => some (d, BitVec.ofNat 64 ((List.range 128).takeWhile fun i => !(s.K a).getLsbD i).length)
  | _ => none

/-- Instructions without an effect but to go on: NOP (R116), DWB and DINV (R44, R173). -/
def goesOnOnly : Instr → Bool
  | .nop | .dwb _ _ | .dinv _ _ => true
  | _ => false

/-- A bank's state but for its round-robin order and the waves that YIELD has put last. -/
def Bank.sameButOrder (b c : Bank) : Prop := c = { b with order := c.order, yields := c.yields }

end Sys2Proof.Machine

open Sys2Proof Sys2Proof.Machine in
/-- R44, R116, R173: NOP, DWB and DINV go on; YIELD goes on and moves its wave to the end of its bank's order, from now on
behind every wave that becomes ready (StepRunsTheDecodedInstruction says how long).
R110, R112, R115: a branch takes its slot to the target if its condition holds, else behind itself. Nothing else
changes. -/
def Obligations.BranchesAndNopsMoveTheirSlot : Prop :=
  ((∀ (s : State) (i : Instr), goesOnOnly i = true → s.unlimited →
    ∃ t, exec i s = .next t ∧ GoesOn s t s.S s.K s.cw.v (s.slotAt (s.after 4))) ∧
  (∀ (s : State), s.unlimited → waveNo s.cur.1 ∈ (s.bank (bankOf s.cur.1)).order →
    ∃ t u, exec .yield s = .next t ∧ GoesOn s u s.S s.K s.cw.v (s.slotAt (s.after 4)) ∧ t = { u with banks := t.banks } ∧
      (∀ b, b ≠ bankOf s.cur.1 → t.bank b = s.bank b) ∧
      Bank.sameButOrder (s.bank (bankOf s.cur.1)) (t.bank (bankOf s.cur.1)) ∧
      (t.bank (bankOf s.cur.1)).order =
        ((s.bank (bankOf s.cur.1)).order.filter fun m => m ≠ waveNo s.cur.1) ++ [waveNo s.cur.1] ∧
      (t.bank (bankOf s.cur.1)).yields = { wave := waveNo s.cur.1, since := s.cycle, after := 0 } ::
        (s.bank (bankOf s.cur.1)).yields.filter fun e => e.wave != waveNo s.cur.1)) ∧
  (∀ (s : State) (i : Instr) (F : BranchForm), branchForm s i = some F → s.lets F.names →
    ∃ t, exec i s = .next t ∧
      GoesOn s t s.S s.K s.cw.v (s.slotAt (if F.taken then F.target else s.after F.len)))

open Sys2Proof Sys2Proof.Machine in
/-- R116, R281: TRAP n traps SWTRAP with TINFO n, TPC its own address and TNEXT four bytes on; in handler mode TRAP, VBR and
JOIN are ILL.
R113: a jump through a register to a target that is not a multiple of 4 traps MALIGN with the target in TADDR; nothing
else happens, so the PC and s63 stay.
R111, R113: a call writes the address behind it to s63 and a jump goes to its target. CALLI reads its target before it
writes the link. -/
def Obligations.JumpsAndTrapsGoWhereTheySay : Prop :=
  ((∀ (s : State) (n : BitVec 6), s.cw.handler = false → s.cw.capsule = none →
    s.trapsBy (exec (.trap n) s) { instrTrap .swtrap 0 s.cs.pc with n := n, next := s.after 4 }) ∧
  (∀ (s : State) (n : BitVec 6) (k : KReg) (off : BitVec 14) (l : W32), s.cw.handler = true →
    ∀ i ∈ [Instr.trap n, .vbr k off, .vbrLit k l, .join], s.trapsBy (exec i s) (instrTrap .ill 0 s.cs.pc))) ∧
  (∀ (s : State) (i : Instr) (target : Word) (len : Nat) (link : Bool), jumpForm s i = some (target, len, link) →
    jumpsThrough i = true → s.unlimited → target.toNat % 4 ≠ 0 →
    s.trapsBy (exec i s) (instrTrap .malign target s.cs.pc)) ∧
  (∀ (s : State) (i : Instr) (target : Word) (len : Nat) (link : Bool), jumpForm s i = some (target, len, link) →
    s.unlimited → (jumpsThrough i = true → target.toNat % 4 = 0) →
    ∃ t, exec i s = .next t ∧
      GoesOn s t (if link then s.withS 63 (s.after len) else s.S) s.K s.cw.v (s.slotAt target))

namespace Sys2Proof.Machine

/-! ### Traps -/

/-- A slot as the trap records hold it: whether it is live, where it stands, its mask, depth and waiting state (R275). -/
structure SlotShown where
  live : Bool
  pc : Word
  mask : Mask
  depth : BitVec 8
  waiting : Bool
deriving DecidableEq, Repr

def Slot.shown (t : Slot) : SlotShown := ⟨t.live, t.pc, t.mask, t.depth, t.waiting⟩

/-- R275: a stopped slot's resumption point: its chain's head inside a latch chain, else its next instruction. -/
def resumption (s : State) (w : Nat) (x : SlotId) : Word :=
  match ((s.wave w).slot x).chain with
  | some c => if s.inChain w x then c.head else ((s.wave w).slot x).pc
  | none => ((s.wave w).slot x).pc

/-- R172: of the slots of wave w those that wait in MWAIT are to read again. -/
def readsAgain (t : State) (w : Nat) : Prop :=
  ∀ x r len a wide l, ((t.wave w).slot x).live = true → ((t.wave w).slot x).park = .mwait r len a wide l →
    ∃ e ∈ t.waiters, e.wave = w ∧ e.x = x ∧ e.woken = true
/-- R177, R327: of the slots of wave w those that wait in AWWAIT watch their word, from the generation that they wait to leave;
one for which a later generation had been found before keeps it. -/
def watchesAgain (s t : State) (w : Nat) : Prop :=
  ∀ x a g d f b o leaf, ((t.wave w).slot x).live = true → ((t.wave w).slot x).park = .awwait a g d f →
    awResolve t w a = .ok (.share b o) leaf → ∃ e ∈ t.waiters, e.wave = w ∧ e.x = x ∧ e.line = (1 + b, o / 128) ∧
      e.aw = some (o, g) ∧ ∀ n, (f = some n ∨ f = none ∧ (s.waiters.find? fun e => e.wave == w && e.x == x).bind (·.found) = some n) →
        e.found = some n
/-- R282: the two slots of wave w stand as they were kept, each waiting as it did, the one that trapped at TNEXT. A BARSYNC that
the slot which trapped has left behind is forgotten (R176). -/
structure SlotsBack (s t : State) (w : Nat) (f : SlotId → Slot) (x : SlotId) : Prop where
  own : ((t.wave w).slot x).shown = { (f x).shown with pc := (s.wave w).trap.tnext }
  other : ((t.wave w).slot (otherSlot x)).shown = (f (otherSlot x)).shown
  parks : ∀ y, ((t.wave w).slot y).park = (f y).park
  chains : ∀ y, ((t.wave w).slot y).chain = none
  syncs : ∀ e, e ∈ (t.wave w).syncs ↔ e ∈ (s.wave w).syncs ∧
    (e.place = (match x with | .a => 0 | .b => 1) → (f x).live = true ∧ e.mask = (f x).mask ∧ e.pc = (s.wave w).trap.tnext)
  reads : readsAgain t w
  watches : watchesAgain s t w

/-- R278: a wave whose TNEXT is written. A slot that a TIMING park has stopped where it waited, and that is sent elsewhere, waits
no longer (R314; log 12). -/
def withTnext (W : Wave) (v : Word) : Wave :=
  let go (y : Slot) : Slot := if W.trap.tcause = 0x60 ∧ v ≠ W.trap.tpc then { y with waiting := false, park := .none } else y
  { W with
    trap := { W.trap with tnext := v }
    frozen := W.frozen.map fun f => if W.trap.tslot.getLsbD 0 then (f.1, go f.2) else (go f.1, f.2) }
/-- R276: parked in MWAIT, BARWAIT or AWWAIT. -/
def Park.ofOpark : Park → Bool
  | .mwait .. | .barwait .. | .awwait .. => true
  | _ => false

/-- R278: the registers that every trap writes. -/
structure TrapWritten (r : TrapRegs) (a : TrapArgs) (ochain : Bool) : Prop where
  tpc : r.tpc = a.pc
  tcause : r.tcause = a.cause.code
  taddr : r.taddr = a.addr
  tmask : r.tmask = a.mask
  tlane : r.tlane.toNat = ((List.range 128).takeWhile fun i => !a.mask.getLsbD i).length
  tchain : r.tchain = a.chain
  trapn : r.tinfo.extractLsb' 0 6 = a.n
  eng : r.tinfo.getLsbD 8 = a.eng
  xvres : r.tinfo.getLsbD 9 = a.xvres
  fwd : r.tinfo.getLsbD 10 = false
  ochain : r.tinfo.getLsbD 11 = ochain
  reserved : r.tinfo.getLsbD 6 = false ∧ r.tinfo.getLsbD 7 = false
  lanes : r.lanes = a.recs

/-- R278, R279: TNEXT, TPC2 and TSLOT, which a nested trap keeps. That TPC2 lies behind an operation which the other slot waits
for, since that completes, is log 12. -/
structure ResumptionWritten (s : State) (w : Nat) (x : SlotId) (r : TrapRegs) (a : TrapArgs) : Prop where
  tnext : r.tnext = a.next
  tpc2 : r.tpc2 =
    if ((s.wave w).slot (otherSlot x)).live = true then
      (if ((s.wave w).slot (otherSlot x)).park.isOp = true then resumption s w (otherSlot x) + 4
       else resumption s w (otherSlot x))
    else 0
  slot : r.tslot.getLsbD 0 = decide (x = .b)
  olive : r.tslot.getLsbD 1 = ((s.wave w).slot (otherSlot x)).live
  owait : r.tslot.getLsbD 2 = (((s.wave w).slot (otherSlot x)).live && ((s.wave w).slot (otherSlot x)).waiting)
  opark : r.tslot.getLsbD 3 =
    (((s.wave w).slot (otherSlot x)).live && ((s.wave w).slot (otherSlot x)).park.ofOpark)
  reserved : ∀ n, 4 ≤ n → n < 8 → r.tslot.getLsbD n = false
  depth : r.tslot.extractLsb' 8 8 = ((s.wave w).slot x).depth
  odepth : r.tslot.extractLsb' 16 8 =
    if ((s.wave w).slot (otherSlot x)).live then ((s.wave w).slot (otherSlot x)).depth else 0
  entries : (r.tslot.extractLsb' 24 8).toNat = Nat.min (s.wave w).entries 255

/-- Where the service finds a wave's trap record, and what the record says (R287). -/
def ringRecord (w : Nat) (a : TrapArgs) (nested : Bool) : RingRec :=
  { wave := w, ticket := 0, cause := a.cause.code, nested := nested, eng := a.eng }

/-- R293: majors 0x33 XLAT and 0x34 CTX. -/
def privileged : Instr → Bool
  | .tlbinv _ _ | .fbpop _ _ | .xlreplay _ | .fbstat _ _ | .banksw _ | .spill _ _ | .fill _ _ | .gate _ | .migr _ _ => true
  | _ => false

/-- R294: the feature that an instruction which is no vector ALU instruction needs, as its bit of FEATMASK. -/
def featureBit : Instr → Option Nat
  | .vqpack .. | .vqunpk .. => some 0
  | .wload f _ | .mma f _ _ _ _ | .mmad f _ _ _ => if f = .q4 then some 0 else none
  | .xv .. | .xvS0 .. | .xvS1 .. | .xvpush .. | .xvpop .. | .xvpeek .. | .xvclr .. | .tblld .. | .tblsw ..
  | .tblgen .. | .xvdepth .. => some 1
  | .capenter .. | .capstep | .capexit .. | .capdrop | .capqry .. => some 2
  | .nsend .. | .npost .. => some 3
  | .vdp4 .. | .vdp4Lit .. => some 4
  | _ => none

/-- R83: the register fields of an instruction that a capsule body may hold. -/
def bodyRegs (s : State) (i : Instr) : Option (List SReg) :=
  match (saluForm s i).or (immForm s i), branchForm s i, i with
  | some F, _, _ => some F.names
  | none, some B, _ => B.names
  | none, none, .sld t sb _ _ | none, none, .sldLit t sb _ _ | none, none, .sst t sb _ _ | none, none, .sstLit t sb _ _ =>
    some [t, sb]
  | none, none, .capstep => some []
  | none, none, .capexit a => some [a]
  | none, none, _ => none

/-- R285: the classes of causes before the capsule limits, level, feature and chain, let an instruction pass outside handler
mode; TRET, and a special register that the instruction may not name, are ILL or PRIV (R109, R116). -/
def State.passes (s : State) (i : Instr) : Prop :=
  (privileged i = true → s.cw.system = true) ∧
  (∀ n, featureBit i = some n → (s.part (s.partOf s.cur.1)).featmask.getLsbD n = false) ∧
  readsLatch i = false ∧ i ≠ .tret ∧
  (∀ r n, i = .srd r n → sprAssigned n.toNat = true ∧ (sprDash n.toNat = true → s.cw.system = true)) ∧
  (∀ r n, i = .swr r n → sprAssigned n.toNat = true ∧ (sprDash n.toNat = true → s.cw.system = true) ∧
    (if s.cw.system then sprRwS n.toNat else sprRwT n.toNat) = true)

/-- R83, R211: the registers that a body may name. -/
def bodyReg (r : SReg) : Prop := r = 0 ∨ (48 ≤ r.toNat ∧ r.toNat ≤ 55)

end Sys2Proof.Machine

open Sys2Proof Sys2Proof.Machine in
/-- R278, R279, R281: a tenant cause with THNDL ≠ 0 enters handler mode: the trap registers are written, both slots are kept
as they stopped, the handler runs at THNDL at depth 0 with lane TLANE alone and invalid latches; no register, stack or byte
changes. That its flow stands in the slot that trapped, with the other slot free, is the model's choice (log 12). A trap of a
wave in capsule mode has more effects (CapsulesCommitExitOrDrop).
R281, R284, R287: a service cause, a tenant cause with THNDL = 0, and any trap taken in handler mode park the wave for
the service with a record for its ring, its slots as they stopped. A nested trap keeps TNEXT, TPC2 and TSLOT. -/
def Obligations.TrapsEnterTheHandlerOrPark : Prop :=
  (∀ (s : State) (w : Nat) (x : SlotId) (a : TrapArgs),
    a.cause.service = false → (s.wave w).trap.thndl ≠ 0 → (s.wave w).handler = false → (s.wave w).capsule = none →
    ∃ W f, takeTrap s w x a = s.setWave w W ∧
      W = { s.wave w with trap := W.trap, handler := true, frozen := some f, slotA := W.slotA, slotB := W.slotB } ∧
      TrapWritten W.trap a (s.inChain w (otherSlot x)) ∧ ResumptionWritten s w x W.trap a ∧
      W.trap.thndl = (s.wave w).trap.thndl ∧
      (W.slot x).shown = ⟨true, (s.wave w).trap.thndl, laneMask fun i => i = W.trap.tlane.toNat, 0, false⟩ ∧
      (W.slot x).chain = none ∧ (∀ j i, (W.slot x).latch j i = 0) ∧ (W.slot (otherSlot x)).live = false ∧
      (match x with | .a => f.1 | .b => f.2).shown = { ((s.wave w).slot x).shown with pc := a.pc, waiting := false } ∧
      (match x with | .a => f.2 | .b => f.1).shown =
        { ((s.wave w).slot (otherSlot x)).shown with pc := resumption s w (otherSlot x) }) ∧
  (∀ (s : State) (w : Nat) (x : SlotId) (a : TrapArgs),
    (a.cause.service = true ∨ (s.wave w).trap.thndl = 0 ∨ (s.wave w).handler = true) → (s.wave w).capsule = none →
    let t := takeTrap s w x a
    let W := t.wave w
    t = { s with waves := t.waves, parts := t.parts } ∧ (∀ u, u ≠ w → t.wave u = s.wave u) ∧
      W = { s.wave w with
        trap := W.trap, frozen := W.frozen, service := some ⟨(s.wave w).handler, decide (a.cause = .timing)⟩
        slotA := W.slotA, slotB := W.slotB } ∧
      TrapWritten W.trap a (s.inChain w (otherSlot x)) ∧
      (W.slot x).shown =
        { ((s.wave w).slot x).shown with
          pc := a.pc, waiting := decide (a.cause = .timing) && ((s.wave w).slot x).waiting } ∧
      (W.slot (otherSlot x)).shown =
        { ((s.wave w).slot (otherSlot x)).shown with pc := resumption s w (otherSlot x) } ∧
      W.frozen = (if (s.wave w).handler then (s.wave w).frozen else some (W.slotA, W.slotB)) ∧
      (if (s.wave w).handler then
        W.trap.tnext = (s.wave w).trap.tnext ∧ W.trap.tpc2 = (s.wave w).trap.tpc2 ∧ W.trap.tslot = (s.wave w).trap.tslot
      else ResumptionWritten s w x W.trap a) ∧
      (t.part (s.partOf w)).ringWait = (s.part (s.partOf w)).ringWait ++ [ringRecord w a (s.wave w).handler] ∧
      ∀ p, p ≠ s.partOf w → t.part p = s.part p)

open Sys2Proof Sys2Proof.Machine in
/-- R282: TRET leaves handler mode with the trapping slot at TNEXT and the other where the trap stopped it, which is TPC2 while
nothing has written its record since, each with its mask, depth and waiting state, and changes no register, stack or byte;
outside handler mode it is ILL (R116). A slot that waits does so still, and what the waiting slots watch is watched again (R172,
R177); a TNEXT that a TIMING park's service has moved ends what its slot waited for as it is written (R314; log 12). -/
def Obligations.TretRestoresBothSlots : Prop :=
  (∀ (s : State) (a b : Slot), s.cw.handler = true → s.cw.frozen = some (a, b) → s.cw.capsule = none →
    ∃ t, exec .tret s = .next t ∧ OnlyWave s { t with waiters := s.waiters } ∧
      t.cw = { s.cw with
        handler := false, frozen := none, service := none, syncs := t.cw.syncs, slotA := t.cw.slotA, slotB := t.cw.slotB } ∧
      SlotsBack s t s.cur.1 (fun y => match y with | .a => a | .b => b)
        (if s.cw.trap.tslot.getLsbD 0 then .b else .a)) ∧
  (∀ s : State, s.cw.handler = false → s.trapsBy (exec .tret s) (instrTrap .ill 0 s.cs.pc))

open Sys2Proof Sys2Proof.Machine in
/-- R285, R293, R294: at level T the operations of XLAT and CTX trap PRIV; an instruction whose feature is masked in the
partition traps FMASK, whatever the capsule limits say.
R83, R211: in a capsule step every instruction that no body may hold traps CAPILL, so does one that names another register
than s0 and s48 to s55, and the 65th of a step traps CAPLIM; none of them has an effect. That CAPILL comes before CAPLIM is
the model's choice (log 51). -/
def Obligations.ChecksComeBeforeEffects : Prop :=
  ((∀ (s : State) (i : Instr), privileged i = true → s.cw.system = false →
    s.trapsBy (exec i s) (instrTrap .priv 0 s.cs.pc)) ∧
  (∀ (s : State) (i : Instr) (n : Nat), featureBit i = some n → (s.part (s.partOf s.cur.1)).featmask.getLsbD n = true →
    s.trapsBy (exec i s) (instrTrap .fmask 0 s.cs.pc))) ∧
  (∀ (s : State) (c : Capsule), s.cw.capsule = some c → s.cw.handler = false →
    ∀ i, i.isInstruction = true → s.passes i →
      (bodyRegs s i = none → s.trapsBy (exec i s) (instrTrap .capill 0 s.cs.pc)) ∧
      (∀ l, bodyRegs s i = some l → ¬ (∀ r ∈ l, bodyReg r) → s.trapsBy (exec i s) (instrTrap .capill 0 s.cs.pc)) ∧
      (∀ l, bodyRegs s i = some l → (∀ r ∈ l, bodyReg r) → 64 ≤ c.instrs →
        s.trapsBy (exec i s) (instrTrap .caplim 0 s.cs.pc)))
namespace Sys2Proof.Machine

/-! ### Special registers and lanes -/

/-- How a special register may be used at a level (R108): not at all, not at this level, read, read and written. -/
inductive Access where
  | unassigned | dash | ro | rw
deriving DecidableEq, Repr

/-- The table of R108: first SPR, last SPR, access at T, access at S. -/
def sprTable : List (Nat × Nat × Access × Access) :=
  [(0x000, 0x009, .ro, .ro), (0x00A, 0x00A, .ro, .ro), (0x00B, 0x00B, .ro, .ro), (0x010, 0x01A, .ro, .ro),
   (0x01B, 0x01B, .rw, .rw), (0x01C, 0x01C, .ro, .ro), (0x01D, 0x01D, .rw, .rw), (0x020, 0x021, .rw, .rw),
   (0x030, 0x031, .ro, .ro), (0x040, 0x040, .ro, .rw), (0x041, 0x041, .ro, .rw), (0x048, 0x048, .rw, .rw),
   (0x050, 0x050, .rw, .rw), (0x100, 0x100, .dash, .rw), (0x101, 0x101, .dash, .ro), (0x102, 0x104, .dash, .rw),
   (0x105, 0x105, .dash, .ro), (0x110, 0x117, .dash, .rw), (0x118, 0x11F, .dash, .rw), (0x120, 0x120, .ro, .rw),
   (0x130, 0x130, .dash, .rw)]

/-- The access that the table gives a number at a level. -/
def sprAccess (system : Bool) (n : Nat) : Access :=
  match sprTable.find? fun e => decide (e.1 ≤ n ∧ n ≤ e.2.1) with
  | some e => if system then e.2.2.2 else e.2.2.1
  | none => .unassigned

/-- The value of a register that is not the launch's own (R108, R250, R269, R278); EVCNT has its own clause. -/
def sprValue (s : State) (n : Nat) : Option Word :=
  let W := s.cw
  let c := s.core (coreOf s.cur.1)
  let p := s.part (s.partOf s.cur.1)
  let m := c.margin
  match n with
  | 0x000 => some (BitVec.ofNat 64 s.cur.1)
  | 0x00A => some (BitVec.ofNat 64 s.cycle)
  | 0x00B => some (BitVec.ofNat 64 (W.system.toNat + 2 * W.handler.toNat))
  | 0x010 => some W.trap.tpc
  | 0x011 => some (BitVec.ofNat 64 W.trap.tcause.toNat)
  | 0x012 => some W.trap.taddr
  | 0x013 => some (BitVec.ofNat 64 W.trap.tinfo.toNat)
  | 0x014 => some (BitVec.ofNat 64 (W.trap.tmask.toNat % 2 ^ 32))
  | 0x015 => some (BitVec.ofNat 64 (W.trap.tmask.toNat / 2 ^ 32 % 2 ^ 32))
  | 0x016 => some (BitVec.ofNat 64 (W.trap.tmask.toNat / 2 ^ 64 % 2 ^ 32))
  | 0x017 => some (BitVec.ofNat 64 (W.trap.tmask.toNat / 2 ^ 96))
  | 0x018 => some (BitVec.ofNat 64 W.trap.tlane.toNat)
  | 0x019 => some W.trap.tchain
  | 0x01A => some (BitVec.ofNat 64 W.trap.tslot.toNat)
  | 0x01B => some W.trap.thndl
  | 0x01C => some W.trap.tpc2
  | 0x01D => some W.trap.tnext
  | 0x020 => some W.dsp
  | 0x021 => some W.dslim
  | 0x040 => some (BitVec.ofNat 64 W.adopts.toNat)
  | 0x041 => some (BitVec.ofNat 64 p.adoptage.toNat)
  | 0x048 => some (BitVec.ofNat 64 W.mwtimeo.toNat)
  | 0x050 => some (BitVec.ofNat 64 W.rndseed.toNat)
  | 0x100 => some (BitVec.ofNat 64 (m.step + 2 ^ 8 * m.gov.toNat + 2 ^ 12 * m.win))
  | 0x101 => some (BitVec.ofNat 64 (m.rerolls.toNat + 2 ^ 32 * m.escal.toNat + 2 ^ 48 * m.cur + 2 ^ 56 * m.state))
  | 0x102 => some (BitVec.ofNat 64 m.limit)
  | 0x103 => some (BitVec.ofNat 64 (m.events.toNat + 2 ^ 16 * m.raise + 2 ^ 24 * m.qcount))
  | 0x104 => some m.inj
  | 0x105 => some m.log
  | 0x120 => some (BitVec.ofNat 64 p.featmask.toNat)
  | 0x130 => some (BitVec.ofNat 64 p.audrate.toNat)
  | n => if 0x110 ≤ n ∧ n ≤ 0x117 then some (SMap.get zeros c.evsel (n - 0x110)) else none

/-- The launch identity of a wave of a team T of a launch L (R20). -/
def identityValue (s : State) (T : Team) (L : Launch) (n : Nat) : Option Word :=
  match n with
  | 0x001 => some (BitVec.ofNat 64 T.teamId)
  | 0x002 => some (BitVec.ofNat 64 L.teams)
  | 0x003 => some (BitVec.ofNat 64 (s.cur.1 % 8))
  | 0x004 => some (BitVec.ofNat 64 T.waves)
  | 0x005 => some 128
  | 0x006 => some (BitVec.ofNat 64 T.setIx)
  | 0x007 => some (BitVec.ofNat 64 (2 ^ T.span))
  | 0x008 => some (launchId T.launch)
  | 0x009 => some (BitVec.ofNat 64 L.karg.toNat)
  | 0x030 => some (BitVec.ofNat 64 T.spSize)
  | 0x031 => some (BitVec.ofNat 64 (T.clPart * 2 ^ T.span))
  | _ => none

/-- R107: what a write to a per-wave register leaves of the wave. TNEXT and THNDL drop bits 1:0 (R278). -/
def sprWritten (W : Wave) (n : Nat) (v : Word) : Option Wave :=
  match n with
  | 0x01B => some { W with trap := { W.trap with thndl := BitVec.ofNat 64 (v.toNat / 4 * 4) } }
  | 0x01D => some (withTnext W (BitVec.ofNat 64 (v.toNat / 4 * 4)))
  | 0x020 => some { W with dsp := v }
  | 0x021 => some { W with dslim := v }
  | 0x040 => some { W with adopts := BitVec.ofNat 32 v.toNat }
  | 0x048 => some { W with mwtimeo := BitVec.ofNat 32 v.toNat }
  | _ => none

/-- A write to a per-partition register. -/
def partWritten (p : Part) (n : Nat) (v : Word) : Option Part :=
  match n with
  | 0x041 => some { p with adoptage := BitVec.ofNat 48 v.toNat }
  | 0x120 => some { p with featmask := BitVec.ofNat 5 v.toNat }
  | 0x130 => some { p with audrate := BitVec.ofNat 16 v.toNat }
  | _ => none

/-- Event codes that a core's selector takes (R269). -/
def selectable (code : Nat) : Bool := decide (1 ≤ code ∧ code ≤ 0x0C) || decide (0x11 ≤ code ∧ code ≤ 0x18)

/-- The slot has gone on and the issuing wave is otherwise as it was. -/
def wentOn (s t : State) : Prop :=
  t.cs = s.slotAt (s.after 4) ∧ t.cw.slot (otherSlot s.cur.2) = s.cw.slot (otherSlot s.cur.2) ∧
    t.cw = { s.cw with slotA := t.cw.slotA, slotB := t.cw.slotB } ∧ ∀ w, w ≠ s.cur.1 → t.wave w = s.wave w

/-- R280: what a LANE function writes to S[sd], from the lane in bits 6:0 of the lane operand. -/
def laneForm (s : State) : Instr → Option (SReg × Word)
  | .lget d v b => some (d, BitVec.ofNat 64 (s.cw.v v.toNat ((s.S b).toNat % 128)).toNat)
  | .tlcause d a =>
    some (d, BitVec.ofNat 64 (SMap.get (fun _ => LaneRec.zero) s.cw.trap.lanes ((s.S a).toNat % 128)).cause.toNat)
  | .tladdr d a => some (d, (SMap.get (fun _ => LaneRec.zero) s.cw.trap.lanes ((s.S a).toNat % 128)).addr)
  | .tlstep d a =>
    some (d, BitVec.ofNat 64 (SMap.get (fun _ => LaneRec.zero) s.cw.trap.lanes ((s.S a).toNat % 128)).step.toNat)
  | _ => none

/-- The vector registers after V[r][j] := v. -/
def State.withLane (s : State) (r j : Nat) (v : W32) : Nat → Nat → W32 := fun q i => if q = r ∧ i = j then v else s.cw.v q i

end Sys2Proof.Machine

open Sys2Proof Sys2Proof.Machine in
/-- R107, R108: SRD reads every assigned register that its level may read, and changes nothing but S[sd].
R109: SRD and SWR that do not execute. -/
def Obligations.SrdReadsAndAccessIsChecked : Prop :=
  (∀ (s : State) (d : SReg) (spr : BitVec 12), s.unlimited →
    (sprAccess s.cw.system spr.toNat = .ro ∨ sprAccess s.cw.system spr.toNat = .rw) →
    ∃ t v, exec (.srd d spr) s = .next t ∧ GoesOn s t (s.withS d v) s.K s.cw.v (s.slotAt (s.after 4)) ∧
      (∀ x, sprValue s spr.toNat = some x → v = x) ∧
      (∀ T L x, s.teamOf s.cur.1 = some T → s.launchOf T.launch = some L → identityValue s T L spr.toNat = some x → v = x) ∧
      (0x118 ≤ spr.toNat → spr.toNat ≤ 0x11F → v = t.evcnt (coreOf s.cur.1) (spr.toNat - 0x118))) ∧
  (∀ (s : State) (r : SReg) (spr : BitVec 12),
    (sprAccess s.cw.system spr.toNat = .unassigned →
      s.trapsBy (exec (.srd r spr) s) (instrTrap .ill 0 s.cs.pc) ∧ s.trapsBy (exec (.swr r spr) s) (instrTrap .ill 0 s.cs.pc)) ∧
    (sprAccess s.cw.system spr.toNat = .ro → s.trapsBy (exec (.swr r spr) s) (instrTrap .ill 0 s.cs.pc)) ∧
    (sprAccess s.cw.system spr.toNat = .dash →
      s.trapsBy (exec (.srd r spr) s) (instrTrap .priv 0 s.cs.pc) ∧ s.trapsBy (exec (.swr r spr) s) (instrTrap .priv 0 s.cs.pc)))

open Sys2Proof Sys2Proof.Machine in
/-- R59, R107, R278: SWR to a per-wave register writes its writable fields and nothing else; RNDSEED seeds the generators of
all lanes.
R107, R250, R269: SWR to a register of the partition or the core writes it and nothing else.
R252, R253: a write to MGN_CTL or MGN_ESC decides anew whether the governor's raise is due; a write to MGN_INJ replaces an
injection that has not fired. -/
def Obligations.SwrWritesSpecialRegisters : Prop :=
  (∀ (s : State) (a : SReg) (spr : BitVec 12), s.unlimited → sprAccess s.cw.system spr.toNat = .rw →
    (∀ W, sprWritten s.cw spr.toNat (s.S a) = some W →
      ∃ t, exec (.swr a spr) s = .next t ∧ OnlyWave s t ∧ t.cs = s.slotAt (s.after 4) ∧
        t.cw.slot (otherSlot s.cur.2) = s.cw.slot (otherSlot s.cur.2) ∧
        t.cw = { W with slotA := t.cw.slotA, slotB := t.cw.slotB }) ∧
    (spr.toNat = 0x050 →
      ∃ t, exec (.swr a spr) s = .next t ∧ OnlyWave s t ∧ t.cs = s.slotAt (s.after 4) ∧
        t.cw = { s.cw with
          slotA := t.cw.slotA, slotB := t.cw.slotB, gens := t.cw.gens, rndseed := BitVec.ofNat 32 (s.S a).toNat } ∧
        ∀ i, i < 128 → t.cw.gen i =
          let g := BitVec.ofNat 32 (s.S a).toNat ^^^ BitVec.ofNat 32 (i * 0x9E3779B9)
          if g = 0 then 1 else g)) ∧
  (∀ (s : State) (a : SReg) (spr : BitVec 12), s.unlimited → s.cw.system = true →
    let p := s.partOf s.cur.1
    let core := coreOf s.cur.1
    let v := s.S a
    (∀ P, partWritten (s.part p) spr.toNat v = some P →
      ∃ t u, exec (.swr a spr) s = .next t ∧ OnlyWave s u ∧ t = { u with waves := t.waves, parts := t.parts } ∧ wentOn s t ∧
        t.part p = P ∧ ∀ q, q ≠ p → t.part q = s.part q) ∧
    (0x110 ≤ spr.toNat → spr.toNat ≤ 0x117 →
      ∃ t u, exec (.swr a spr) s = .next t ∧ OnlyWave s u ∧ t = { u with waves := t.waves, cores := t.cores } ∧ wentOn s t ∧
        t.core core = { u.core core with evsel := (t.core core).evsel } ∧ (∀ c, c ≠ core → t.core c = s.core c) ∧
        ∀ j, SMap.get zeros (t.core core).evsel j =
          if j = spr.toNat - 0x110 then (if selectable (v.toNat % 256) then BitVec.ofNat 64 (v.toNat % 1024) else 0)
          else SMap.get zeros (s.core core).evsel j) ∧
    (0x118 ≤ spr.toNat → spr.toNat ≤ 0x11F →
      ∃ t u, exec (.swr a spr) s = .next t ∧ OnlyWave s u ∧ t = { u with waves := t.waves, cores := t.cores } ∧ wentOn s t ∧
        t.core core = { u.core core with evcnt := (t.core core).evcnt } ∧ (∀ c, c ≠ core → t.core c = s.core c) ∧
        SMap.get zeros (t.core core).evcnt (spr.toNat - 0x118) = v) ∧
    (spr.toNat = 0x100 ∨ 0x102 ≤ spr.toNat ∧ spr.toNat ≤ 0x104 →
      ∃ t u, exec (.swr a spr) s = .next t ∧ OnlyWave s u ∧ t = { u with waves := t.waves, cores := t.cores } ∧ wentOn s t ∧
        t.core core = { u.core core with margin := (t.core core).margin, checks := (t.core core).checks } ∧
        (∀ c, c ≠ core → t.core c = s.core c) ∧
        (t.core core).checks = (if spr.toNat = 0x104 then
          (s.core core).checks.map fun k => { k with inj := k.inj && k.fired, armed := false } else (s.core core).checks) ∧
        let m := (s.core core).margin
        let m' := (t.core core).margin
        let counted := fun (win : Nat) => (m.errs.filter fun c => c / 2 ^ (win + 10) == s.cycle / 2 ^ (win + 10)).length
        (m'.raiseDue = if spr.toNat = 0x100 ∨ spr.toNat = 0x103 then
          m'.gov && decide (m'.events ≠ 0 ∧ m'.events.toNat ≤ counted m'.win) else m.raiseDue) ∧
        (spr.toNat = 0x100 →
          m'.step = Nat.min (v.toNat % 256) 24 ∧ m'.gov = v.getLsbD 8 ∧ m'.win = v.toNat / 2 ^ 12 % 16 ∧ m'.cur = m.cur ∧
          m' = { m with
            step := m'.step, gov := m'.gov, win := m'.win, state := m'.state, raiseDue := m'.raiseDue, qinfo := m'.qinfo
            seen := s.cycle, ctlAt := some s.cycle, raiseAt := some s.cycle } ∧ m'.qinfo.toNat / 256 = m.qinfo.toNat / 256 ∧
          m'.state = (if m.state = 2 then 2 else if m'.step ≠ m.cur ∨ m.state = 1 then 1 else m.state)) ∧
        (spr.toNat = 0x102 → m' = { m with limit := if v.toNat % 8 = 0 then m.limit else v.toNat % 8 }) ∧
        (spr.toNat = 0x103 → m' = { m with
          events := BitVec.ofNat 16 v.toNat, raise := v.toNat / 2 ^ 16 % 256, qcount := v.toNat / 2 ^ 24 % 256
          raiseDue := m'.raiseDue, raiseAt := some s.cycle }) ∧
        (spr.toNat = 0x104 → m' = { m with inj := BitVec.ofNat 64 (v.toNat % 2 ^ 18) })))

namespace Sys2Proof.Machine

/-! ### Divergence -/

/-- The issuing slot traps; a refusal at a port or at a guarded page may have been logged first (R266, R290). -/
def State.trapsLogged (s : State) (o : Out) (a : TrapArgs) : Prop :=
  ∃ v u, OnlyWave s v ∧ u = { v with win := u.win } ∧ u.cur = s.cur ∧ u.cw = s.cw ∧ o = .next (takeTrap u s.cur.1 s.cur.2 a)
/-- The same, where only a PROT may have been logged. -/
def State.trapsFor (s : State) (o : Out) (c : Cause) (a : TrapArgs) : Prop :=
  (c ≠ .prot → s.trapsBy o a) ∧ (c = .prot → s.trapsLogged o a)
/-- The number by which a BARSYNC's record names slot x. -/
def slotPlace (x : SlotId) : Nat := match x with | .a => 0 | .b => 1

/-- The other slot of the issuing wave. -/
def State.otherCs (s : State) : Slot := s.cw.slot (otherSlot s.cur.2)
/-- The byte at position `i` of a divergence stack entry that holds a slot (R27). -/
def entryByte (t : Slot) (i : Nat) : Byte :=
  BitVec.ofNat 8 ((t.pc.toNat + 2 ^ 64 * t.mask.toNat + 2 ^ 192 * t.depth.toNat + 2 ^ 200 * t.waiting.toNat) / 256 ^ i)
/-- VBR in its two forms: mask register, label, length (R114). -/
def vbrForm (s : State) : Instr → Option (KReg × Word × Nat)
  | .vbr k off => some (k, wordTarget s off, 4)
  | .vbrLit k l => some (k, byteTarget s l, 8)
  | _ => none
/-- R22: the lanes taken and the lanes that fall through. -/
def takenLanes (s : State) (k : KReg) : Mask := masked s k
def fallLanes (s : State) (k : KReg) : Mask := if k = 0 then 0 else s.cs.mask &&& ~~~s.K k
/-- The issuing wave has split: X goes on with the lanes `n`, Y starts at the label with the lanes `t` (R22). -/
structure Splits (s u : State) (t n : Mask) (label : Word) (len : Nat) : Prop where
  own : u.cs = { s.slotAt (s.after len) with mask := n, depth := s.cs.depth + 1 }
  other : u.otherCs = { Slot.free with live := true, pc := label, mask := t, depth := s.cs.depth + 1 }
  regs : ∀ r k v i, u.S r = s.S r ∧ u.K k = s.K k ∧ u.cw.v v i = s.cw.v v i
/-- The wave issues no step of a capsule and is not in handler mode. -/
def State.plainMode (s : State) : Prop := s.cw.capsule = none ∧ s.cw.handler = false
/-- The slot that an entry at a location names; its mask is ANDed with the live lanes (R25, R27). -/
def State.entryAt (s : State) (loc : Loc) (live : Mask) : Slot :=
  let v := s.readLoc s.cur.1 loc 32
  { Slot.free with
    live := true, pc := BitVec.ofNat 64 (v % 2 ^ 64), mask := BitVec.ofNat 128 (v / 2 ^ 64 % 2 ^ 128) &&& live
    depth := BitVec.ofNat 8 (v / 2 ^ 192 % 256), waiting := v / 2 ^ 200 % 2 == 1 }
/-- A slot that has completed its JOIN alone (R23). -/
def Slot.joinedAlone (t : Slot) : Slot :=
  { t with pc := t.pc + 4, depth := t.depth - 1, waiting := false, chain := none, xvres := none }
/-- The instruction has ended with the slots `own` and `other`, the live lanes `live` and `n` entries popped; no register
or byte has changed. What has stood at a popped entry's place now stands in its slot. -/
def EndsWith (s : State) (o : Out) (own : Slot) (other : Slot) (live : Mask) (n : Nat) : Prop :=
  ∃ u, o = .next u ∧ OnlyWave s { u with tlb := s.tlb, clocks := s.clocks, crossing := s.crossing } ∧
    u.cs = own ∧ u.otherCs = other ∧
    u.cw = { s.cw with
      slotA := u.cw.slotA, slotB := u.cw.slotB, liveLanes := live, dsp := s.cw.dsp - BitVec.ofNat 64 (32 * n)
      entries := s.cw.entries - n, syncs := u.cw.syncs } ∧ (n = 0 → u.cw.syncs = s.cw.syncs)
/-- The issuing wave's flows are over, and no other wave and no byte has changed (R25). It has retired, or does so with the last
of what it has in the commit gate, in the array or as an XV: issued instructions complete (R275). -/
def Retires (s : State) (o : Out) : Prop :=
  ∃ u, o = .next u ∧ (u.wave s.cur.1).resident = (s.cw.unfinished && s.cw.resident) ∧ (u.wave s.cur.1).slotA.live = false ∧
    (u.wave s.cur.1).slotB.live = false ∧ (s.cw.unfinished = true → (u.wave s.cur.1).gates = s.cw.gates) ∧
    (∀ w, w ≠ s.cur.1 → u.wave w = s.wave w) ∧ ∀ a, u.byte a = s.byte a
/-- R301: what a top entry that cannot be read comes to: DIVSTK, a park, POISON. The instruction has no effect. -/
def PopFails (s : State) (i : Instr) : Prop :=
  let top := s.cw.dsp - 32
  (∀ c, resolve s s.cur.1 .pop top 32 = .fault c → s.trapsFor (exec i s) c (instrTrap .divstk top s.cs.pc)) ∧
  (∀ base gsz, resolve s s.cur.1 .pop top 32 = .park base gsz →
    ∃ u, OnlyWave s u ∧ u.cur = s.cur ∧ u.cw = s.cw ∧ exec i s = .next (u.parkCur base gsz true false false))

end Sys2Proof.Machine

open Sys2Proof Sys2Proof.Machine in
/-- R22, R301: VBR traps at depth 255, goes on where no lane or every lane is taken, splits into a free slot, waits for the
other slot's chain, and pushes a live one at DSP first, or traps DIVSTK with nothing changed. A push waits for what the wave's
slots have in the commit gate for the same bytes, since they are one agent (R27). That DIVSTK at depth 255 has TADDR 0 is the
model's choice (log 17); so is what becomes of an operation that the pushed slot waits for, which is left out here (log 54). -/
def Obligations.VbrSplitsAndPushes : Prop :=
  ∀ (s : State) (i : Instr) (k : KReg) (label : Word) (len : Nat), vbrForm s i = some (k, label, len) → s.plainMode →
    let t := takenLanes s k
    let n := fallLanes s k
    let Y := s.otherCs
    (s.cs.depth = 255 → s.trapsBy (exec i s) (instrTrap .divstk 0 s.cs.pc)) ∧
    (s.cs.depth ≠ 255 → t = 0 → ∃ u, exec i s = .next u ∧
      GoesOn s u s.S s.K s.cw.v { s.slotAt (s.after len) with depth := s.cs.depth + 1 }) ∧
    (s.cs.depth ≠ 255 → t ≠ 0 → n = 0 → ∃ u, exec i s = .next u ∧
      GoesOn s u s.S s.K s.cw.v { s.slotAt label with depth := s.cs.depth + 1 }) ∧
    (s.cs.depth ≠ 255 → t ≠ 0 → n ≠ 0 → Y.live = false → ∃ u, exec i s = .next u ∧ OnlyWave s u ∧
      Splits s u t n label len ∧ u.cw = { s.cw with slotA := u.cw.slotA, slotB := u.cw.slotB }) ∧
    (s.cs.depth ≠ 255 → t ≠ 0 → n ≠ 0 → Y.live = true → s.inChain s.cur.1 (otherSlot s.cur.2) = true →
      exec i s = .next s) ∧
    (s.cs.depth ≠ 255 → t ≠ 0 → n ≠ 0 → Y.live = true → s.inChain s.cur.1 (otherSlot s.cur.2) = false →
      (s.cw.dslim.toNat < s.cw.dsp.toNat + 32 → s.trapsBy (exec i s) (instrTrap .divstk s.cw.dsp s.cs.pc)) ∧
      (s.cw.dsp.toNat + 32 ≤ s.cw.dslim.toNat →
        (∀ c, resolve s s.cur.1 .push s.cw.dsp 32 = .fault c →
          s.trapsFor (exec i s) c (instrTrap .divstk s.cw.dsp s.cs.pc)) ∧
        (∀ base gsz, resolve s s.cur.1 .push s.cw.dsp 32 = .park base gsz →
          ∃ u, OnlyWave s u ∧ u.cur = s.cur ∧ u.cw = s.cw ∧ exec i s = .next (u.parkCur base gsz false true false)) ∧
        (∀ loc leaf, resolve s s.cur.1 .push s.cw.dsp 32 = .ok loc leaf → s.cw.gateHits loc 32 = true →
          exec i s = .next s)) ∧
      (s.cw.dsp.toNat + 32 ≤ s.cw.dslim.toNat → Y.park.isOp = false →
        ∀ loc leaf, resolve s s.cur.1 .push s.cw.dsp 32 = .ok loc leaf → s.cw.gateHits loc 32 = false →
        ∃ u, exec i s = .next u ∧ Splits s u t n label len ∧
          u.cw = { s.cw with
            slotA := u.cw.slotA, slotB := u.cw.slotB, dsp := s.cw.dsp + 32, entries := s.cw.entries + 1
            syncs := s.cw.syncs.map fun e =>
              if e.place = slotPlace (otherSlot s.cur.2) then { e with place := 2 + s.cw.entries } else e } ∧
          (∀ w, w ≠ s.cur.1 → u.wave w = s.wave w) ∧
          (∀ b o, loc = .share b o → (∀ a, u.byte a = s.byte a) ∧ ∀ j, SMap.get zeros (u.bank b).share j =
            if o ≤ j ∧ j < o + 32 then entryByte Y (j - o) else SMap.get zeros (s.bank b).share j) ∧
          (∀ a, loc = .phys a → (∀ T, s.teamOf s.cur.1 = some T → T.rerun = false) → ∀ j, u.byte j =
            if a ≤ j ∧ j < a + 32 then entryByte Y (j - a) else s.byte j)))

open Sys2Proof Sys2Proof.Machine in
/-- R23: JOIN goes on at depth 0, merges with a sibling that waits, waits for one that runs, and goes on alone where the
sibling has ended. Here the divergence stack is empty; the later parts say what a pop adds.
R24, R25, R281: END frees its slot and its lanes leave the live lanes; a sibling that waits at JOIN at its depth completes
it; with both slots free and an empty stack the wave retires, and in handler mode it is killed.
R25, R26: with a slot free and an entry on the stack, the top entry resumes in the free slot if the other slot is free or
at its depth, and stays if the other slot runs at another depth. The mask is ANDed with the live lanes; an entry without a
live lane is dropped. That a slot which waits keeps the address of its JOIN, and completes it when it stands alone with an
empty stack, is the model's choice (log 17); so is that an entry which cannot be read ends the instruction even if it were
to stay (log 43).
R301: an entry that cannot be read. R27: a pop waits for what the wave's slots have in the commit gate for the entry's bytes. -/
def Obligations.JoinAndEndFollowTheStack : Prop :=
  (∀ s : State, s.plainMode →
    let X := s.cs
    let Y := s.otherCs
    (X.depth = 0 → ∃ u, exec .join s = .next u ∧ GoesOn s u s.S s.K s.cw.v (s.slotAt (s.after 4))) ∧
    (X.depth ≠ 0 → X.live = true → Y.live = true → Y.depth = X.depth → Y.waiting = true → s.cw.entries = 0 →
      X.waiting = false → ∃ u, exec .join s = .next u ∧ OnlyWave s u ∧
        u.cs = { s.slotAt (s.after 4) with mask := X.mask ||| Y.mask, depth := X.depth - 1 } ∧ u.otherCs = Slot.free ∧
        u.cw = { s.cw with slotA := u.cw.slotA, slotB := u.cw.slotB }) ∧
    (X.depth ≠ 0 → Y.live = true → Y.depth = X.depth → Y.waiting = false →
      ∃ u, exec .join s = .next u ∧ GoesOn s u s.S s.K s.cw.v { s.slotAt s.cs.pc with waiting := true }) ∧
    (X.depth ≠ 0 → X.live = true → X.waiting = false → ¬ (Y.live = true ∧ Y.depth = X.depth) → s.cw.entries = 0 →
      ∃ u, exec .join s = .next u ∧
        GoesOn s u s.S s.K s.cw.v { s.slotAt (s.after 4) with depth := X.depth - 1 })) ∧
  ((∀ s : State, s.cw.capsule = none →
    let X := s.cs
    let Y := s.otherCs
    (s.cw.handler = false → Y.live = true → (Y.waiting = true → Y.depth = X.depth) → s.cw.entries = 0 →
      ∃ u, exec .end_ s = .next u ∧ OnlyWave s u ∧ u.cs = Slot.free ∧
        u.cw = { s.cw with slotA := u.cw.slotA, slotB := u.cw.slotB, liveLanes := s.cw.liveLanes &&& ~~~X.mask } ∧
        u.otherCs = (if Y.waiting = true then
            { Y with pc := Y.pc + 4, depth := Y.depth - 1, waiting := false, chain := none, xvres := none }
          else Y)) ∧
    (s.cw.handler = false → Y.live = false → s.cw.entries = 0 →
      Retires s (exec .end_ s)) ∧
    (s.cw.handler = true → s.opBanksOf s.cur.1 = [] → Retires s (exec .end_ s))) ∧
  (∀ (w : Nat) (x : SlotId) (fuel : Nat) (s : State) (W : Wave) (loc : Loc) (leaf : Option Leaf),
    (W.slot x).live = false → W.entries ≠ 0 → resolve s w .pop (W.dsp - 32) 32 = .ok loc leaf →
    let Y := W.slot (otherSlot x)
    let v := s.readLoc w loc 32
    let pc := BitVec.ofNat 64 (v % 2 ^ 64)
    let mask := BitVec.ofNat 128 (v / 2 ^ 64 % 2 ^ 128) &&& W.liveLanes
    let depth := BitVec.ofNat 8 (v / 2 ^ 192 % 256)
    let waiting := v / 2 ^ 200 % 2 == 1
    (W.gateHits loc 32 = true → popDue w x (fuel + 1) s W = .wait) ∧
    (W.gateHits loc 32 = false →
    (Y.live = true → Y.depth ≠ depth → Y.waiting = false → popDue w x (fuel + 1) s W = .done s W) ∧
    (Y.live = true → Y.depth = depth → s.poisonLoc loc 32 = false → mask ≠ 0 → ∃ u V,
      popDue w x (fuel + 2) s W = .done u V ∧ u = { s with tlb := u.tlb, clocks := u.clocks, crossing := u.crossing } ∧
      V = { W with slotA := V.slotA, slotB := V.slotB, dsp := W.dsp - 32, entries := W.entries - 1, syncs := V.syncs } ∧
      (∀ e, e ∈ V.syncs ↔ ∃ o ∈ W.syncs, e = (if o.place = W.entries + 1 then { o with place := slotPlace x } else o) ∧
        (e.place = slotPlace x → e.mask = mask ∧ e.pc = pc)) ∧
      V.slot x = { Slot.free with live := true, pc := pc, mask := mask, depth := depth, waiting := waiting } ∧
      V.slot (otherSlot x) = Y) ∧
    (Y.live = true → Y.depth = depth → s.poisonLoc loc 32 = true → popDue w x (fuel + 1) s W = .poison (W.dsp - 32))))) ∧
  ((∀ s : State, s.plainMode → s.cs.depth ≠ 0 → s.cs.live = true → s.cs.waiting = false →
    let X := s.cs
    let Y := s.otherCs
    let merged := Y.live = true ∧ Y.depth = X.depth ∧ Y.waiting = true
    let X1 := { s.slotAt (s.after 4) with
      mask := if Y.live then X.mask ||| Y.mask else X.mask, depth := X.depth - 1 }
    let Y1 := if Y.live then Slot.free else Y
    (Y.live = true → Y.depth ≠ X.depth →
      EndsWith s (exec .join s) { s.slotAt (s.after 4) with depth := X.depth - 1 } Y s.cw.liveLanes 0) ∧
    (Y.live = false ∨ merged → s.cw.entries ≠ 0 → PopFails s .join ∧
      ∀ loc leaf, resolve s s.cur.1 .pop (s.cw.dsp - 32) 32 = .ok loc leaf →
        let e := s.entryAt loc s.cw.liveLanes
        (s.cw.gateHits loc 32 = true → exec .join s = .next s) ∧ (s.cw.gateHits loc 32 = false →
        (e.depth ≠ X1.depth → EndsWith s (exec .join s) X1 Y1 s.cw.liveLanes 0) ∧
        (e.depth = X1.depth → s.poisonLoc loc 32 = false → e.mask ≠ 0 →
          EndsWith s (exec .join s) X1 e s.cw.liveLanes 1) ∧
        (e.depth = X1.depth → s.poisonLoc loc 32 = false → e.mask = 0 → s.cw.entries = 1 →
          EndsWith s (exec .join s) X1 Y1 s.cw.liveLanes 1) ∧
        (e.depth = X1.depth → s.poisonLoc loc 32 = true →
          ∃ u, OnlyWave s u ∧ u.cur = s.cur ∧ u.cw = s.cw ∧
            exec .join s = .next (u.consume s.cur.1 s.cur.2 (instrTrap .poison (s.cw.dsp - 32) X.pc)))))) ∧
  (∀ s : State, s.plainMode → s.cw.entries ≠ 0 → PopFails s .end_ ∧
    ∀ loc leaf, resolve s s.cur.1 .pop (s.cw.dsp - 32) 32 = .ok loc leaf →
      let X := s.cs
      let Y := s.otherCs
      let live := s.cw.liveLanes &&& ~~~X.mask
      let e := s.entryAt loc live
      let Y1 := if Y.waiting = true ∧ Y.depth = X.depth then Y.joinedAlone else Y
      (s.cw.gateHits loc 32 = true → exec .end_ s = .next s) ∧ (s.cw.gateHits loc 32 = false →
      (Y.live = true → e.depth ≠ Y1.depth → Y1.waiting = false → EndsWith s (exec .end_ s) Slot.free Y1 live 0) ∧
      (Y.live = true → e.depth = Y1.depth → s.poisonLoc loc 32 = false → e.mask ≠ 0 →
        EndsWith s (exec .end_ s) e Y1 live 1) ∧
      (Y.live = false ∨ e.depth = Y1.depth → s.poisonLoc loc 32 = true →
        ∃ u, OnlyWave s u ∧ u.cur = s.cur ∧ u.cw = s.cw ∧
          exec .end_ s = .next (u.consume s.cur.1 s.cur.2 (instrTrap .poison (s.cw.dsp - 32) X.pc))) ∧
      (Y.live = false → s.poisonLoc loc 32 = false → e.mask = 0 → s.cw.entries = 1 → Retires s (exec .end_ s)) ∧
      (Y.live = false → s.poisonLoc loc 32 = false → e.mask ≠ 0 → s.cw.entries = 1 →
        EndsWith s (exec .end_ s) (if e.waiting then e.joinedAlone else e) Y live 1) ∧
      (Y.live = false → s.poisonLoc loc 32 = false → e.mask ≠ 0 → e.waiting = false → 1 < s.cw.entries →
        ∀ loc2 leaf2, resolve (s.holdRes s.cur.1 (s.cw.dsp - 32) (.ok loc leaf)) s.cur.1 .pop (s.cw.dsp - 32 - 32) 32 =
          .ok loc2 leaf2 →
        let e2 := s.entryAt loc2 live
        (s.cw.gateHits loc2 32 = true → exec .end_ s = .next s) ∧ (s.cw.gateHits loc2 32 = false →
        (e2.depth ≠ e.depth → EndsWith s (exec .end_ s) e Y live 1) ∧
        (e2.depth = e.depth → s.poisonLoc loc2 32 = false → e2.mask ≠ 0 → EndsWith s (exec .end_ s) e e2 live 2))))))

namespace Sys2Proof.Machine

/-! ### The vector pipe -/

/-- What a vector ALU instruction comes to: its destination, its vector operands, whether it rounds stochastically, its
active lanes, its result in each lane (none where one overflows under TRAP), its length. -/
structure VectorForm where
  dst : VReg
  srcs : List VSrc
  stoch : Bool
  lanes : Mask
  val : Nat → Option W32
  len : Nat

/-- An operand in a lane: v0 to v59, b0 to b3 for the codes 60 to 63, or a literal, the same in every lane (R88, R89). -/
def State.operand (s : State) (x : VSrc) (i : Nat) : W32 :=
  match x with
  | .lit l => l
  | .reg v => if v.toNat < 60 then s.cw.v v.toNat i else s.cs.latch (v.toNat - 60) i

/-- R126, R130 in the integers, modulo 2^32. -/
def vAdd (a b : W32) : W32 := BitVec.ofNat 32 (a.toNat + b.toNat)
def vSub (a b : W32) : W32 := BitVec.ofInt 32 ((a.toNat : Int) - b.toNat)
def vMul (a b : W32) : W32 := BitVec.ofNat 32 (a.toNat * b.toNat)
def vMulHigh (a b : W32) : W32 := BitVec.ofInt 32 (a.toInt * b.toInt / 2 ^ 32)
def vAmount (b : W32) : Nat := b.toNat % 32
def vShiftL (a b : W32) : W32 := BitVec.ofNat 32 (a.toNat * 2 ^ vAmount b)
def vShiftR (a b : W32) : W32 := BitVec.ofNat 32 (a.toNat / 2 ^ vAmount b)
def vShiftA (a b : W32) : W32 := BitVec.ofInt 32 (a.toInt / (2 ^ vAmount b : Nat))
def vRotate (a b : W32) : W32 := BitVec.ofNat 32 (a.toNat * 2 ^ vAmount b + a.toNat / 2 ^ (32 - vAmount b))
def vMinS (a b : W32) : W32 := if a.toInt ≤ b.toInt then a else b
def vMaxS (a b : W32) : W32 := if a.toInt ≤ b.toInt then b else a
def vMinN (a b : W32) : W32 := if a.toNat ≤ b.toNat then a else b
def vMaxN (a b : W32) : W32 := if a.toNat ≤ b.toNat then b else a
def vMad (a b c : W32) : W32 := BitVec.ofNat 32 (a.toNat * b.toNat + c.toNat)
def vLeading (a : W32) : W32 := BitVec.ofNat 32 ((List.range 32).takeWhile fun i => !a.getLsbD (31 - i)).length
def vOnes (a : W32) : W32 := BitVec.ofNat 32 ((List.range 32).map fun i => (a.getLsbD i).toNat).sum
def vAbs (a : W32) : W32 := BitVec.ofNat 32 a.toInt.natAbs
def vNeg (a : W32) : W32 := BitVec.ofInt 32 (-(a.toNat : Int))

/-- One, two and three operands in the active lanes (R120). -/
def vf1 (s : State) (len : Nat) (f : W32 → Option W32) (d : VReg) (a : VSrc) (k : KReg) : Option VectorForm :=
  some ⟨d, [a], false, masked s k, fun i => f (s.operand a i), len⟩
def vf2 (s : State) (len : Nat) (f : W32 → W32 → Option W32) (d : VReg) (a b : VSrc) (k : KReg) : Option VectorForm :=
  some ⟨d, [a, b], false, masked s k, fun i => f (s.operand a i) (s.operand b i), len⟩
def vf3 (s : State) (len : Nat) (f : W32 → W32 → W32 → Option W32) (d : VReg) (a b c : VSrc) (k : KReg) : Option VectorForm :=
  some ⟨d, [a, b, c], false, masked s k, fun i => f (s.operand a i) (s.operand b i) (s.operand c i), len⟩
/-- The register form and the literal form of a function of two operands (R122). -/
def vr (s : State) (f : W32 → W32 → W32) (d a b : VReg) (k : KReg) : Option VectorForm :=
  vf2 s 4 (fun x y => some (f x y)) d (.reg a) (.reg b) k
def vl (s : State) (f : W32 → W32 → W32) (d a : VReg) (k : KReg) (l : W32) : Option VectorForm :=
  vf2 s 8 (fun x y => some (f x y)) d (.reg a) (.lit l) k
def vu (s : State) (f : W32 → W32) (d a : VReg) (k : KReg) : Option VectorForm :=
  vf1 s 8 (fun x => some (f x)) d (.reg a) k
/-- R127: the mask field of VSEL selects among the lanes of the execution mask; field 0 selects a. -/
def vsels (s : State) (len : Nat) (d : VReg) (a b : VSrc) (k : KReg) : Option VectorForm :=
  some ⟨d, [a, b], false, s.cs.mask,
    fun i => some (if k = 0 ∨ (s.K k).getLsbD i = true then s.operand a i else s.operand b i), len⟩

/-- Majors 0x12 to 0x16 and VIEX (R126, R127, R130). -/
def vectorIntForm (s : State) : Instr → Option VectorForm
  | .vadd d a b k => vr s vAdd d a b k
  | .vaddLit d a k l => vl s vAdd d a k l
  | .vsub d a b k => vr s vSub d a b k
  | .vsubLit d a k l => vl s vSub d a k l
  | .vmul d a b k => vr s vMul d a b k
  | .vmulLit d a k l => vl s vMul d a k l
  | .vmulh d a b k => vr s vMulHigh d a b k
  | .vmulhLit d a k l => vl s vMulHigh d a k l
  | .vand d a b k => vr s (· &&& ·) d a b k
  | .vandLit d a k l => vl s (· &&& ·) d a k l
  | .vor d a b k => vr s (· ||| ·) d a b k
  | .vorLit d a k l => vl s (· ||| ·) d a k l
  | .vxor d a b k => vr s (· ^^^ ·) d a b k
  | .vxorLit d a k l => vl s (· ^^^ ·) d a k l
  | .vandn d a b k => vr s (fun x y => x &&& (x ^^^ (x &&& y))) d a b k
  | .vandnLit d a k l => vl s (fun x y => x &&& (x ^^^ (x &&& y))) d a k l
  | .vshl d a b k => vr s vShiftL d a b k
  | .vshlLit d a k l => vl s vShiftL d a k l
  | .vshr d a b k => vr s vShiftR d a b k
  | .vshrLit d a k l => vl s vShiftR d a k l
  | .vsha d a b k => vr s vShiftA d a b k
  | .vshaLit d a k l => vl s vShiftA d a k l
  | .vrol d a b k => vr s vRotate d a b k
  | .vrolLit d a k l => vl s vRotate d a k l
  | .vmin d a b k => vr s vMinS d a b k
  | .vminLit d a k l => vl s vMinS d a k l
  | .vminn d a b k => vr s vMinN d a b k
  | .vminnLit d a k l => vl s vMinN d a k l
  | .vmax d a b k => vr s vMaxS d a b k
  | .vmaxLit d a k l => vl s vMaxS d a k l
  | .vmaxn d a b k => vr s vMaxN d a b k
  | .vmaxnLit d a k l => vl s vMaxN d a k l
  | .vsel d a b k => vsels s 4 d (.reg a) (.reg b) k
  | .vselLit d a k l => vsels s 8 d (.reg a) (.lit l) k
  | .vbcst d r k => some ⟨d, [], false, masked s k, fun _ => some (BitVec.ofNat 32 (s.S r).toNat), 4⟩
  | .vlid d k => some ⟨d, [], false, masked s k, fun i => some (BitVec.ofNat 32 i), 4⟩
  | .vmov d b k => vf1 s 4 some d (.reg b) k
  | .vmovLit d k l => vf1 s 8 some d (.lit l) k
  | .vmad d a b c k => vf3 s 8 (fun x y z => some (vMad x y z)) d (.reg a) (.reg b) (.reg c) k
  | .vmadLit d a c k l => vf3 s 12 (fun x y z => some (vMad x y z)) d (.reg a) (.lit l) (.reg c) k
  | .vclz d a k => vu s vLeading d a k
  | .vpopc d a k => vu s vOnes d a k
  | .vabs d a k => vu s vAbs d a k
  | .vneg d a k => vu s vNeg d a k
  | _ => none

/-- R64, R131: a function of elements on lanes: one FP32 element, or two elements of 16 bits, element 0 in the low half. -/
def inElements (p : Packing) (f : FFmt → List Nat → Option Nat) (xs : List W32) : Option W32 :=
  match p with
  | .f32 => (f .f32 (xs.map fun x => x.toNat)).map (BitVec.ofNat 32)
  | p => match f (Packing.fmt p) (xs.map fun x => x.toNat % 65536), f (Packing.fmt p) (xs.map fun x => x.toNat / 65536) with
    | some lo, some hi => some (BitVec.ofNat 32 (lo % 65536 + 65536 * (hi % 65536)))
    | _, _ => none
/-- The exact result of two or three elements, rounded once, an overflow under the policy (R57, R60). -/
def exact2 (q : FpQ) (f : Num → Num → Num) (a b : W32) : Option W32 :=
  inElements q.fmt (fun m l => m.finish q.ovf (m.round q.rm (f (m.value (l.getD 0 0)) (m.value (l.getD 1 0))))) [a, b]
def exact3 (q : FpQ) (f : Num → Num → Num → Num) (a b c : W32) : Option W32 :=
  inElements q.fmt (fun m l =>
    m.finish q.ovf (m.round q.rm (f (m.value (l.getD 0 0)) (m.value (l.getD 1 0)) (m.value (l.getD 2 0))))) [a, b, c]
/-- An element's sign cleared or inverted, a NaN canonical (R131). -/
def signOff (m : FFmt) (a : Nat) : Nat := if (m.value a).isNan then m.nan else a % 2 ^ (m.width - 1)
def signFlip (m : FFmt) (a : Nat) : Nat :=
  if (m.value a).isNan then m.nan else (a + 2 ^ (m.width - 1)) % 2 ^ m.width
/-- R63: −0 orders below +0, one NaN gives the other operand, two give the canonical NaN. -/
def pickMinMax (isMax : Bool) (m : FFmt) (a b : Nat) : Nat :=
  if (m.value a).isNan then (if (m.value b).isNan then m.nan else b)
  else if (m.value b).isNan then a
  else
    let aLess := (m.value a).lt (m.value b) || ((m.value a).isZero && (m.value b).isZero && (m.value a).isNeg && !(m.value b).isNeg)
    let bLess := (m.value b).lt (m.value a) || ((m.value a).isZero && (m.value b).isZero && (m.value b).isNeg && !(m.value a).isNeg)
    if isMax then (if aLess then b else a) else (if bLess then b else a)
def element1 (p : Packing) (f : FFmt → Nat → Option Nat) (a : W32) : Option W32 := inElements p (fun m l => f m (l.getD 0 0)) [a]
def element2 (p : Packing) (f : FFmt → Nat → Nat → Nat) (a b : W32) : Option W32 :=
  inElements p (fun m l => some (f m (l.getD 0 0) (l.getD 1 0))) [a, b]
/-- VSFN (R133): the element's function, then the overflow policy. -/
def sfnForm (s : State) (fn : Sfn) (d a : VReg) (k : KReg) (p : Packing) (o : Ovf) : Option VectorForm :=
  vf1 s 8 (element1 p fun m x => m.finish o (m.sfn fn x)) d (.reg a) k

/-- VFP, VSFN and VCVT (R131 to R134). -/
def vectorFloatForm (s : State) : Instr → Option VectorForm
  | .vfadd d a b k q => vf2 s 8 (exact2 q (Num.add q.rm)) d (.reg a) (.reg b) k
  | .vfaddLit d a k q l => vf2 s 12 (exact2 q (Num.add q.rm)) d (.reg a) (.lit l) k
  | .vfsub d a b k q => vf2 s 8 (exact2 q fun x y => Num.add q.rm x y.neg) d (.reg a) (.reg b) k
  | .vfsubLit d a k q l => vf2 s 12 (exact2 q fun x y => Num.add q.rm x y.neg) d (.reg a) (.lit l) k
  | .vfmul d a b k q => vf2 s 8 (exact2 q Num.mul) d (.reg a) (.reg b) k
  | .vfmulLit d a k q l => vf2 s 12 (exact2 q Num.mul) d (.reg a) (.lit l) k
  | .vfma d a b c k q => vf3 s 8 (exact3 q fun x y z => Num.add q.rm (Num.mul x y) z) d (.reg a) (.reg b) (.reg c) k
  | .vfmaLit d a c k q l => vf3 s 12 (exact3 q fun x y z => Num.add q.rm (Num.mul x y) z) d (.reg a) (.lit l) (.reg c) k
  | .vfmin d a b k p => vf2 s 8 (element2 p (pickMinMax false)) d (.reg a) (.reg b) k
  | .vfminLit d a k p l => vf2 s 12 (element2 p (pickMinMax false)) d (.reg a) (.lit l) k
  | .vfmax d a b k p => vf2 s 8 (element2 p (pickMinMax true)) d (.reg a) (.reg b) k
  | .vfmaxLit d a k p l => vf2 s 12 (element2 p (pickMinMax true)) d (.reg a) (.lit l) k
  | .vfabs d a k p => vf1 s 8 (element1 p fun m x => some (signOff m x)) d (.reg a) k
  | .vfneg d a k p => vf1 s 8 (element1 p fun m x => some (signFlip m x)) d (.reg a) k
  | .vfrnd d a k p rm => vf1 s 8 (element1 p fun m x => some (m.frnd rm x)) d (.reg a) k
  | .vrcp d a k p o => sfnForm s .rcp d a k p o
  | .vrsq d a k p o => sfnForm s .rsq d a k p o
  | .vsqrt d a k p o => sfnForm s .sqrt d a k p o
  | .vexp2 d a k p o => sfnForm s .exp2 d a k p o
  | .vlog2 d a k p o => sfnForm s .log2 d a k p o
  | .vsin d a k p o => sfnForm s .sin d a k p o
  | .vcos d a k p o => sfnForm s .cos d a k p o
  | .vtanh d a k p o => sfnForm s .tanh d a k p o
  | .vsigm d a k p o => sfnForm s .sigm d a k p o
  | .verf d a k p o => sfnForm s .erf d a k p o
  | .vcvt src dst d a k rm o sr => some ⟨d, [.reg a], sr, masked s k, fun i =>
      (convert (LaneType.kind src) (LaneType.kind dst) rm o (if sr then some (drawGen (s.cw.gen i)) else none)
        (s.operand (.reg a) i).toNat).map (BitVec.ofNat 32), 8⟩
  | _ => none
def vectorForm (s : State) (i : Instr) : Option VectorForm :=
  match vectorIntForm s i with
  | some F => some F
  | none => vectorFloatForm s i

/-- The number of latches that must be valid: the highest one read, plus one (R295). -/
def VectorForm.need (F : VectorForm) : Nat :=
  F.srcs.foldl (fun n x => match x with | .reg v => if 60 ≤ v.toNat then Nat.max n (v.toNat - 59) else n | .lit _ => n) 0
/-- The instruction writes a register that it reads itself (R29). -/
def VectorForm.readsOwn (F : VectorForm) : Prop := ∃ v, VSrc.reg v ∈ F.srcs ∧ v = F.dst ∧ v.toNat < 60
/-- The cases of R295 for an instruction that reads a latch: no chain to go on with; else too few members, a bad head, or
a register written that a member has read. -/
def VectorForm.noChain (F : VectorForm) (t : Slot) : Prop :=
  F.need ≠ 0 ∧ (F.stoch = true ∨ ∀ c, t.chain = some c → 8 ≤ c.count)
def VectorForm.breaks (F : VectorForm) (t : Slot) (c : Chain) : Prop :=
  F.need ≠ 0 ∧ F.stoch = false ∧ t.chain = some c ∧ c.count < 8 ∧
    (c.count < F.need ∨ c.headBad = true ∨ (F.dst.toNat < 60 ∧ c.reads.getLsbD F.dst.toNat = true) ∨ F.readsOwn)

/-- The results stand in the active lanes of the destination (nowhere for code 60) and b0 holds its new contents, or the
results and zeros for code 60; the older latches move up (R120, R121). The rest of the machine is as it was. -/
structure VectorWrites (s t : State) (F : VectorForm) : Prop where
  only : OnlyWave s t
  vregs : ∀ r i, r < 60 → i < 128 →
    t.cw.v r i = if r = F.dst.toNat ∧ F.lanes.getLsbD i = true then (F.val i).getD 0 else s.cw.v r i
  head : ∀ i, i < 128 → t.cs.latch 0 i =
    if F.lanes.getLsbD i = true then (F.val i).getD 0 else if F.dst.toNat < 60 then s.cw.v F.dst.toNat i else 0
  shift : ∀ j i, j < 3 → i < 128 → t.cs.latch (j + 1) i = s.cs.latch j i
  slot : t.cs = { s.cs with pc := s.after F.len, xvres := none, latches := t.cs.latches, chain := t.cs.chain }
  other : t.cw.slot (otherSlot s.cur.2) = s.cw.slot (otherSlot s.cur.2)
  rest : t.cw = { s.cw with vregs := t.cw.vregs, slotA := t.cw.slotA, slotB := t.cw.slotB, gens := t.cw.gens }
  gens : ∀ i, i < 128 →
    t.cw.gen i = if F.stoch = true ∧ F.lanes.getLsbD i = true then drawGen (s.cw.gen i) else s.cw.gen i
  /-- It heads a chain, goes on with one, or, rounding stochastically, ends it (R29). -/
  chain : match t.cs.chain with
    | none => F.stoch = true
    | some c => F.stoch = false ∧
        (F.need = 0 → c.head = s.cs.pc ∧ c.count = 1) ∧
        (F.need ≠ 0 → ∀ c0, s.cs.chain = some c0 → c.head = c0.head ∧ c.count = c0.count + 1)

end Sys2Proof.Machine

open Sys2Proof Sys2Proof.Machine in
/-- R120, R121, R126, R127, R130: every integer vector ALU instruction, in both forms, writes its result in its active lanes
and in b0, wherever no latch rule stops it. -/
def Obligations.VectorIntegerWritesItsLanes : Prop :=
  ∀ (s : State) (i : Instr) (F : VectorForm), vectorIntForm s i = some F → s.unlimited → ¬ F.noChain s.cs →
    (∀ c, ¬ F.breaks s.cs c) → ∃ t, exec i s = .next t ∧ VectorWrites s t F

open Sys2Proof Sys2Proof.Machine in
/-- R131 to R134: the floating-point instructions, the bounded functions and VCVT, the same, wherever no active lane's result
overflows under TRAP. A stochastic VCVT draws once in each active lane (R59). -/
def Obligations.VectorFloatWritesItsLanes : Prop :=
  ∀ (s : State) (i : Instr) (F : VectorForm), vectorFloatForm s i = some F → s.unlimited → ¬ F.noChain s.cs →
    (∀ c, ¬ F.breaks s.cs c) → (∀ j, j < 128 → F.lanes.getLsbD j = true → F.val j ≠ none) →
    ∃ t, exec i s = .next t ∧ VectorWrites s t F

open Sys2Proof Sys2Proof.Machine in
/-- R125, R299: where an active lane's result overflows under TRAP, the instruction traps OVFTRAP in exactly those lanes and
has no other effect. R278, R279: inside a chain TCHAIN and TNEXT are its head. -/
def Obligations.OverflowTrapsItsLanes : Prop :=
  ∀ (s : State) (i : Instr) (F : VectorForm) (bad : Mask), vectorFloatForm s i = some F → s.unlimited → ¬ F.noChain s.cs →
    (∀ c, ¬ F.breaks s.cs c) → bad ≠ 0 →
    (∀ j, j < 128 → (bad.getLsbD j = true ↔ F.lanes.getLsbD j = true ∧ F.val j = none)) →
    ∃ recs head, (∀ j, j < 128 → SMap.get (fun _ => LaneRec.zero) recs j =
        if bad.getLsbD j = true then { cause := 0x41, step := 0, addr := 0 } else LaneRec.zero) ∧
      (F.need = 0 → head = s.cs.pc) ∧ (∀ c, F.need ≠ 0 → s.cs.chain = some c → head = c.head) ∧
      s.trapsBy (exec i s)
        { cause := .ovftrap, addr := 0, n := 0, eng := false, xvres := false, mask := bad, recs := recs, pc := s.cs.pc
          chain := head, next := head }

open Sys2Proof Sys2Proof.Machine in
/-- R295: a latch read outside a chain that goes on traps LATCH at its own address; a broken chain rule traps LATCH with
TCHAIN and TNEXT at the head. The traps affect no lane, latch or register. That a stochastic VCVT which reads a latch traps
as the first case is the model's choice (log 14). -/
def Obligations.LatchRulesTrap : Prop :=
  ∀ (s : State) (i : Instr) (F : VectorForm), vectorForm s i = some F →
    (F.noChain s.cs → s.trapsBy (exec i s) (instrTrap .latch 0 s.cs.pc)) ∧
    (∀ c, F.breaks s.cs c →
      s.trapsBy (exec i s) { instrTrap .latch 0 s.cs.pc with chain := c.head, next := c.head })

namespace Sys2Proof.Machine

/-! ### Rounding -/

/-- A signed value ±m × 2^e in units of 2^u, for u no larger than e. -/
def unitsOf (neg : Bool) (m : Nat) (e u : Int) : Int := if neg then -(m * 2 ^ (e - u).toNat : Nat) else (m * 2 ^ (e - u).toNat : Nat)
/-- A pattern of a format is a finite value of `v` units of 2^u. -/
def FFmt.isUnits (f : FFmt) (c : Nat) (u v : Int) : Prop :=
  c < 2 ^ f.width ∧ ∃ n m e, f.value c = .fin n m e ∧ u ≤ e ∧ v = unitsOf n m e u
/-- v stands to x as a rounding of the mode must: no value w of the format may be better (R57). -/
def roundsTo (rm : Rm) (x v w : Int) : Prop :=
  match rm with
  | .rne => (x - v).natAbs ≤ (x - w).natAbs
  | .rtz => v.natAbs ≤ x.natAbs ∧ 0 ≤ v * x ∧ (w.natAbs ≤ x.natAbs → 0 ≤ w * x → w.natAbs ≤ v.natAbs)
  | .rdn => v ≤ x ∧ (w ≤ x → w ≤ v)
  | .rup => x ≤ v ∧ (x ≤ w → v ≤ w)
/-- An integer i is the rounding of x units of 2^u, 1 being U units: to the mode, of two nearest the even one (R57, R64). -/
def roundsToInt (rm : Rm) (U : Nat) (x i : Int) : Prop :=
  (∀ w, roundsTo rm x (i * U) (w * U)) ∧ (rm = .rne → ∀ w, w ≠ i → (x - w * U).natAbs = (x - i * U).natAbs → i % 2 = 0)
/-- What an integer type makes of an integer (R60, R64): its pattern, or an overflow. -/
def fitsAs (t : IFmt) (o : Ovf) (i : Int) (r : Option Nat) : Prop :=
  (t.lo ≤ i → i ≤ t.hi → ∃ c, r = some c ∧ c < 2 ^ t.width ∧ t.value c = i) ∧
  (¬ (t.lo ≤ i ∧ i ≤ t.hi) → (o = .trap → r = none) ∧
    (o ≠ .trap → ∃ c, r = some c ∧ c < 2 ^ t.width ∧ t.value c = if i < 0 then t.lo else t.hi))

/-! ### The bounded functions -/

/-- An ulp of a format, in units of 2^u, at a magnitude: `le n` says that n units are no more than it (R69). -/
def FFmt.ulpAt (f : FFmt) (u : Int) (G : Nat) (le : Nat → Prop) : Prop :=
  ∃ j : Nat, G = 2 ^ j ∧ f.emin ≤ u + j ∧ ¬ le (2 * G * 2 ^ f.mbits) ∧ (f.emin = u + j ∨ le (G * 2 ^ f.mbits))
/-- n units of 2^−512 are no more than the exact magnitude of an algebraic function at m × 2^e; and no less. -/
def belowExact (fn : Sfn) (m : Nat) (e : Int) (n : Nat) : Prop :=
  match fn with
  | .rcp => n * m ≤ 2 ^ (512 - e).toNat
  | .sqrt => n * n ≤ m * 2 ^ (e + 1024).toNat
  | .rsq => n * n * m ≤ 2 ^ (1024 - e).toNat
  | _ => False
def aboveExact (fn : Sfn) (m : Nat) (e : Int) (n : Nat) : Prop :=
  match fn with
  | .rcp => 2 ^ (512 - e).toNat ≤ n * m
  | .sqrt => m * 2 ^ (e + 1024).toNat ≤ n * n
  | .rsq => 2 ^ (1024 - e).toNat ≤ n * n * m
  | _ => False
/-- A magnitude Y of units 2^(−512 − k) that the computed one, a × 2^−512, stands for: within its error, and on the side of the
points of half an ulp that the function keeps to (log 6). -/
def standsFor (fn : Sfn) (a k half Y : Nat) : Prop :=
  let lo := a * 2 ^ k - 2 ^ (200 + k)
  let hi := a * 2 ^ k + 2 ^ (200 + k)
  lo ≤ Y ∧ Y ≤ hi ∧
  match fn.side with
  | .lt => Y / half = lo / half
  | .gt => Y / half = hi / half
  | .eq => (lo / half = Y / half ∧ hi / half = Y / half) ∨ Y % half = 0

end Sys2Proof.Machine

open Sys2Proof Sys2Proof.Machine in
/-- R57: a finite value rounds to a pattern of the format that no other is better than in its mode (to nearest, ties to an even
pattern), or overflows, and then its magnitude is above the largest finite one and its sign is kept. That E4M3's grid goes on
above 448, where a value overflows, is the model's reading (log 13).
R58: stochastic rounding gives a value on the grid itself; else the neighbour away from zero if the draw's bits 31:8 are
below floor(f × 2^24), and the one toward zero if not.
R60, R61: an overflow becomes the largest finite value of its sign, the infinity of its sign (the canonical NaN for E4M3), the
canonical NaN, or a trap.
R62: an exact sum is exact, and a zero sum of operands of opposite sign is −0 under RDN alone.
R64, R134: VCVT rounds the exact value of its source once, into a float format or to an integer, judged in range as rounded.
R132: VFRND gives the integral value that the mode asks for, with the sign of its operand. -/
def Obligations.RoundingIsOnceAndCorrect : Prop :=
  (∀ (f : FFmt) (rm : Rm) (neg : Bool) (m : Nat) (e u : Int), u ≤ e → u ≤ f.emin →
    let x := unitsOf neg m e u
    (∀ b, f.round rm (.fin neg m e) = .bits b → ∃ v, f.isUnits b u v ∧
      (∀ c w, f.isUnits c u w → roundsTo rm x v w) ∧
      (rm = .rne → ∀ c w, f.isUnits c u w → w ≠ v → (x - w).natAbs = (x - v).natAbs → b % 2 = 0) ∧
      (f.value b).isNeg = neg) ∧
    (∀ n, f.round rm (.fin neg m e) = .over n → n = neg ∧ ∀ c w, f.isUnits c u w → w.natAbs < x.natAbs) ∧
    (∀ draw : W32,
      let toward := f.round .rtz (.fin neg m e)
      let away := f.round (if neg then .rdn else .rup) (.fin neg m e)
      let r := f.roundStoch draw (.fin neg m e)
      (toward = .over neg → r = .over neg) ∧
      ∀ lo vlo, toward = .bits lo → f.isUnits lo u vlo →
        (vlo = x → r = .bits lo) ∧
        (vlo ≠ x → away = .over neg → r = .bits lo ∨ r = .over neg) ∧
        (vlo ≠ x → ∀ hi vhi, away = .bits hi → f.isUnits hi u vhi →
          r = .bits (if draw.toNat / 256 < (x.natAbs - vlo.natAbs) * 2 ^ 24 / (vhi.natAbs - vlo.natAbs) then hi else lo)))) ∧
  (∀ (f : FFmt) (neg : Bool) (u : Int), u ≤ f.emin → f.value f.nan = .nan ∧ (∀ o b, f.finish o (.bits b) = some b) ∧
    (∃ b v, f.finish .sat (.over neg) = some b ∧ (f.value b).isNeg = neg ∧ f.isUnits b u v ∧
      ∀ c w, f.isUnits c u w → w.natAbs ≤ v.natAbs) ∧
    (∃ b, f.finish .inf (.over neg) = some b ∧ (f = .e4m3 → b = f.nan) ∧ (f ≠ .e4m3 → f.value b = .inf neg)) ∧
    f.finish .nan (.over neg) = some f.nan ∧ f.finish .trap (.over neg) = none ∧
    (∀ rm, f.round rm .nan = .bits f.nan ∧ (f = .e4m3 → f.round rm (.inf neg) = .over neg) ∧
      (f ≠ .e4m3 → ∃ b, f.round rm (.inf neg) = .bits b ∧ f.value b = .inf neg))) ∧
  (∀ (rm : Rm) (na nb : Bool) (ma mb : Nat) (ea eb u : Int), u ≤ 0 → u ≤ ea → u ≤ eb →
    ∃ n m e, Sys2Proof.Machine.Num.add rm (.fin na ma ea) (.fin nb mb eb) = .fin n m e ∧ u ≤ e ∧
      unitsOf n m e u = unitsOf na ma ea u + unitsOf nb mb eb u ∧
      (m = 0 → (na = nb → n = na) ∧ (na ≠ nb → n = decide (rm = .rdn)))) ∧
  (∀ (src dst : FFmt) (rm : Rm) (o : Ovf) (c : Nat), c < 2 ^ src.width →
    convert (.inl src) (.inl dst) rm o none c = dst.finish o (dst.round rm (src.value c)) ∧
    ∀ g, convert (.inl src) (.inl dst) rm o (some g) c = dst.finish o (dst.roundStoch g (src.value c))) ∧
  (∀ (src : IFmt) (dst : FFmt) (rm : Rm) (o : Ovf) (c : Nat),
    let i := src.value c
    convert (.inr src) (.inl dst) rm o none c = dst.finish o (dst.round rm (.fin (decide (i < 0)) i.natAbs 0)) ∧
    ∀ g, convert (.inr src) (.inl dst) rm o (some g) c = dst.finish o (dst.roundStoch g (.fin (decide (i < 0)) i.natAbs 0))) ∧
  (∀ (src dst : IFmt) (rm : Rm) (o : Ovf) (g : Option W32) (c : Nat), 0 < dst.width →
    fitsAs dst o (src.value c) (convert (.inr src) (.inr dst) rm o g c)) ∧
  (∀ (src : FFmt) (dst : IFmt) (rm : Rm) (o : Ovf) (c : Nat), c < 2 ^ src.width → 0 < dst.width →
    (src.value c = .nan → ∀ g, convert (.inl src) (.inr dst) rm o g c = if o = .trap then none else some 0) ∧
    (∀ neg, src.value c = .inf neg → ∀ g, fitsAs dst o (if neg then dst.lo - 1 else dst.hi + 1)
      (convert (.inl src) (.inr dst) rm o g c)) ∧
    (∀ neg m e (U : Nat), src.value c = .fin neg m e → U = 2 ^ (-src.emin).toNat →
      let x := unitsOf neg m e src.emin
      (∃ i, roundsToInt rm U x i ∧ fitsAs dst o i (convert (.inl src) (.inr dst) rm o none c)) ∧
      ∀ g : W32,
        let i : Nat := x.natAbs / U + (if g.toNat / 256 < x.natAbs % U * 2 ^ 24 / U then 1 else 0)
        fitsAs dst o (if neg then -i else i) (convert (.inl src) (.inr dst) rm o (some g) c))) ∧
  (∀ (f : FFmt) (rm : Rm) (a : Nat), a < 2 ^ f.width →
    (f.value a = .nan → f.frnd rm a = f.nan) ∧ (∀ neg, f.value a = .inf neg → f.frnd rm a = a) ∧
    (∀ neg m e (U : Nat), f.value a = .fin neg m e → U = 2 ^ (-f.emin).toNat →
      let x := unitsOf neg m e f.emin
      (∃ i : Int, f.isUnits (f.frnd rm a) f.emin (i * U) ∧ (f.value (f.frnd rm a)).isNeg = neg ∧ roundsToInt rm U x i) ∧
      (x % U = 0 → f.frnd rm a = a)))

open Sys2Proof Sys2Proof.Machine in
/-- R70: the special values of the bounded functions on FP32, as patterns, whatever free value picks the others.
R69: RCP, RSQ and SQRT lie within 2 ulp, measured at the exact result, whatever the free value; every bounded function lies
within its bound of whatever value its computation stands for. How near the computation comes to the exact value, and on which
side of it that lies, is log 6. -/
def Obligations.SpecialValuesAreExact : Prop :=
  let pz := 0x00000000
  let nz := 0x80000000
  let pinf := 0x7F800000
  let ninf := 0xFF800000
  let one := 0x3F800000
  let half := 0x3F000000
  let nan := 0x7FC00000
  (∀ e : Sfn × Nat × Nat, e ∈ [
      (.rcp, pz, pinf), (.rcp, nz, ninf), (.rcp, pinf, pz), (.rcp, ninf, nz), (.rsq, pz, pinf), (.rsq, nz, ninf), (.rsq, pinf, pz),
      (.sqrt, nz, nz), (.sqrt, pinf, pinf), (.exp2, ninf, pz), (.exp2, pinf, pinf), (.exp2, pz, one), (.exp2, nz, one),
      (.log2, pz, ninf), (.log2, nz, ninf), (.log2, one, pz), (.log2, pinf, pinf), (.sin, pinf, nan), (.sin, ninf, nan),
      (.sin, pz, pz), (.sin, nz, nz), (.cos, pinf, nan), (.cos, ninf, nan), (.cos, pz, one), (.cos, nz, one),
      (.tanh, pinf, one), (.tanh, ninf, 0xBF800000), (.tanh, pz, pz), (.tanh, nz, nz), (.sigm, pinf, one), (.sigm, ninf, pz),
      (.sigm, pz, half), (.sigm, nz, half), (.erf, pinf, one), (.erf, ninf, 0xBF800000), (.erf, pz, pz), (.erf, nz, nz),
      (.exp, ninf, pz), (.exp, pinf, pinf), (.exp, pz, one), (.exp, nz, one), (.log, pz, ninf), (.log, nz, ninf), (.log, one, pz),
      (.log, pinf, pinf), (.log, ninf, nan), (.gelu, pz, pz), (.gelu, nz, nz), (.gelu, ninf, nz), (.gelu, pinf, pinf),
      (.gelut, pz, pz), (.gelut, nz, nz), (.gelut, ninf, nz), (.gelut, pinf, pinf), (.silu, pz, pz), (.silu, nz, nz),
      (.silu, ninf, nz), (.silu, pinf, pinf), (.softp, ninf, pz), (.softp, pinf, pinf)] →
    FFmt.f32.sfn e.1 e.2.1 = .bits e.2.2) ∧
  (∀ fn b, fn = Sfn.rsq ∨ fn = .sqrt ∨ fn = .log2 ∨ fn = .log → 0x80000000 < b → b ≤ ninf → FFmt.f32.sfn fn b = .bits nan) ∧
  (∀ fn b, b < 2 ^ 32 → FFmt.f32.value b = .nan → FFmt.f32.sfn fn b = .bits nan) ∧
  (∀ (f : FFmt) (fn : Sfn) (bits b m G : Nat) (neg : Bool) (e v : Int), (fn = .rcp ∨ (fn = .sqrt ∨ fn = .rsq) ∧ neg = false) →
    f.value bits = .fin neg m e → 0 < m → f.ulpAt (-512) G (belowExact fn m e) → f.sfn fn bits = .bits b →
    f.isUnits b (-512) v → belowExact fn m e (v.natAbs - 2 * G) ∧ aboveExact fn m e (v.natAbs + 2 * G) ∧
      (v < 0 → neg = true) ∧ (0 < v → neg = false)) ∧
  (∀ (f : FFmt) (fn : Sfn) (bits a k Y G b : Nat) (neg : Bool) (v : Int), (f = .f32 ∨ f = .f16 ∨ f = .bf16) →
    f.ulpAt (-512 - k) G (fun n => n ≤ Y) →
    standsFor fn a k (if G = 2 ^ (f.emin + 512 + k).toNat then G else G / 2) Y →
    f.pick fn bits neg a = .bits b → f.isUnits b (-512 - k) v →
    (v - (if neg then -(Y : Int) else Y)).natAbs ≤ (if fn = .rcp ∨ fn = .rsq ∨ fn = .sqrt ∨ fn = .exp2 ∨ fn = .log2 then 2 else 4) * G)

namespace Sys2Proof.Machine

/-! ### Compares, blocks and lanes -/

/-- A feature bit of FEATMASK does not stop the issuing wave (R294). -/
def State.hasFeature (s : State) (n : Nat) : Prop := (s.part (s.partOf s.cur.1)).featmask.getLsbD n = false
/-- A trap in the lanes `bad` with one cause, step 0 and address 0 in each (R277, R279). -/
def lanesTrap (c : Cause) (bad : Mask) (recs : SMap LaneRec) (pc : Word) : TrapArgs :=
  { cause := c, addr := 0, n := 0, eng := false, xvres := false, mask := bad, recs := recs, pc := pc, chain := pc, next := pc }
/-- The records of such a trap. -/
def sameRecs (c : Cause) (bad : Mask) (recs : SMap LaneRec) : Prop :=
  ∀ j, j < 128 → SMap.get (fun _ => LaneRec.zero) recs j =
    if bad.getLsbD j = true then { cause := c.code, step := 0, addr := 0 } else LaneRec.zero
/-- A lane's value as a number (R52). -/
def f32 (a : W32) : Num := FFmt.f32.value a.toNat

/-- R129: the conditions, on i32, n32 and FP32 lanes. -/
def condHolds (c : VCond) (a b : W32) : Bool :=
  let un := (f32 a).isNan || (f32 b).isNan
  match c with
  | .eq => a = b
  | .ne => a ≠ b
  | .lt => a.toInt < b.toInt
  | .le => a.toInt ≤ b.toInt
  | .gt => a.toInt > b.toInt
  | .ge => a.toInt ≥ b.toInt
  | .ltn => a.toNat < b.toNat
  | .len => a.toNat ≤ b.toNat
  | .gtn => a.toNat > b.toNat
  | .gen => a.toNat ≥ b.toNat
  | .feq => !un && (f32 a).eq (f32 b)
  | .fne => un || !(f32 a).eq (f32 b)
  | .flt => !un && (f32 a).lt (f32 b)
  | .fle => !un && !(f32 b).lt (f32 a)
  | .fgt => !un && (f32 b).lt (f32 a)
  | .fge => !un && !(f32 a).lt (f32 b)
  | .funo => un
  | .ford => !un
def cmpForm (s : State) : Instr → Option (KReg × (Nat → Bool) × KReg × Nat)
  | .vcmp c d a b k => some (d, fun i => condHolds c (s.operand (.reg a) i) (s.operand (.reg b) i), k, 8)
  | .vcmpLit c d a k l => some (d, fun i => condHolds c (s.operand (.reg a) i) l, k, 12)
  | _ => none

/-- What an instruction that is no vector ALU instruction makes of the vector registers. -/
structure LaneForm where
  feat : Option Nat
  regs : Nat → Nat → W32
  len : Nat

/-- V[d] := f in the lanes of a mask. -/
def State.withLanes (s : State) (d : VReg) (m : Mask) (f : Nat → W32) : Nat → Nat → W32 :=
  fun r i => if r = d.toNat ∧ m.getLsbD i = true then f i else s.cw.v r i
/-- The active lanes as a list, lowest first. -/
def activeList (m : Mask) : List Nat := (List.range 128).filter fun i => m.getLsbD i
/-- R135: group g of 32 lanes, inactive lanes as +0. -/
def groupValues (s : State) (a : VReg) (m : Mask) (g : Nat) : List Num :=
  (List.range 32).map fun j => if m.getLsbD (32 * g + j) then f32 (s.cw.v a.toNat (32 * g + j)) else .fin false 0 0
def groupActive (m : Mask) (g : Nat) : Bool := (List.range 32).any fun j => m.getLsbD (32 * g + j)
/-- R135: lane 32g + j of a packed group: eight codes in lanes 0 to 3, the scale byte in lane 4, then zeros. -/
def packedValue (b : Nat × List Nat) (j : Nat) : W32 :=
  if j < 4 then BitVec.ofNat 32 ((List.range 8).map fun e => b.2.getD (8 * j + e) 0 * 16 ^ e).sum
  else if j = 4 then BitVec.ofNat 32 b.1 else 0
/-- R136: code j of group g, and its scale byte. -/
def groupCode (s : State) (a : VReg) (i : Nat) : Nat :=
  (s.cw.v a.toNat (32 * (i / 32) + i % 32 / 8)).toNat / 16 ^ (i % 8) % 16
def groupScale (s : State) (a : VReg) (i : Nat) : Nat := (s.cw.v a.toNat (32 * (i / 32) + 4)).toNat % 256
/-- R141: the lanes that are active and hold the same pattern as lane i, as quarter q of a mask. -/
def matchWord (s : State) (a : VReg) (m : Mask) (i q : Nat) : W32 :=
  BitVec.ofNat 32 ((List.range 32).map fun j =>
    if m.getLsbD (32 * q + j) ∧ s.cw.v a.toNat (32 * q + j) = s.cw.v a.toNat i then 2 ^ j else 0).sum

/-- VQ and VLANE but the reductions (R135 to R137, R140 to R142). -/
def laneOpForm (s : State) : Instr → Option LaneForm
  | .vqpack t d a k =>
    some ⟨some 0, fun r i => if r = d.toNat ∧ groupActive (masked s k) (i / 32) = true
      then packedValue (quantise t (groupValues s a (masked s k) (i / 32))) (i % 32) else s.cw.v r i, 8⟩
  | .vqunpk d a k =>
    some ⟨some 0, s.withLanes d (masked s k) fun i =>
      BitVec.ofNat 32 (FFmt.f32.roundInf .rne (q4Value (groupScale s a i) (groupCode s a i))), 8⟩
  | .vperm d a b k =>
    some ⟨none, s.withLanes d (masked s k) fun i => s.cw.v a.toNat ((s.operand (.reg b) i).toNat % 128), 8⟩
  | .vpermLit d a k l => some ⟨none, s.withLanes d (masked s k) fun _ => s.cw.v a.toNat (l.toNat % 128), 12⟩
  | .vcmprs d a k =>
    some ⟨none, fun r i => if r = d.toNat then ((activeList (masked s k)).map (s.cw.v a.toNat)).getD i 0 else s.cw.v r i, 8⟩
  | .vmatch d a k =>
    some ⟨none, fun r i => if d.toNat ≤ r ∧ r < d.toNat + 4 ∧ (masked s k).getLsbD i = true
      then matchWord s a (masked s k) i (r - d.toNat) else s.cw.v r i, 8⟩
  | .xvdepth d k => some ⟨some 1, s.withLanes d (masked s k) fun i => BitVec.ofNat 32 (s.cw.depth i), 8⟩
  | _ => none

/-- R138: one combination; none where an addition overflows under TRAP. -/
def combine (op : RedOp) (rm : Rm) (o : Ovf) (a b : W32) : Option W32 :=
  match op with
  | .add => some (vAdd a b)
  | .min => some (vMinS a b)
  | .minn => some (vMinN a b)
  | .max => some (vMaxS a b)
  | .maxn => some (vMaxN a b)
  | .and => some (a &&& b)
  | .or => some (a ||| b)
  | .xor => some (a ^^^ b)
  | .fadd => (FFmt.f32.finish o (FFmt.f32.round rm (Num.add rm (f32 a) (f32 b)))).map (BitVec.ofNat 32)
  | .fmin => some (BitVec.ofNat 32 (pickMinMax false .f32 a.toNat b.toNat))
  | .fmax => some (BitVec.ofNat 32 (pickMinMax true .f32 a.toNat b.toNat))
/-- R138: what an inactive lane contributes, and how the result is extended. -/
def identityOf : RedOp → W32
  | .add | .maxn | .or | .xor => 0
  | .min => 0x7FFFFFFF
  | .minn | .and => 0xFFFFFFFF
  | .max | .fadd => 0x80000000
  | .fmin => 0x7F800000
  | .fmax => 0xFF800000
def extended (op : RedOp) (v : W32) : Word :=
  match op with
  | .add | .min | .max => BitVec.ofInt 64 v.toInt
  | _ => BitVec.ofNat 64 v.toNat
/-- R68: node i of level l. -/
def treeNode (f : W32 → W32 → Option W32) (leaf : Nat → W32) : Nat → Nat → Option W32
  | 0, i => some (leaf i)
  | l + 1, i => match treeNode f leaf l (2 * i), treeNode f leaf l (2 * i + 1) with
    | some a, some b => f a b
    | _, _ => none
/-- R68, R139: the running value at lane i over the active lanes, from the first one's own value. -/
def running (op : RedOp) (rm : Rm) (o : Ovf) (m : Mask) (v : Nat → W32) (i : Nat) : Option W32 :=
  match (activeList m).filter fun j => j ≤ i with
  | [] => none
  | j :: rest =>
    let first := match op with
      | .fadd | .fmin | .fmax => if (f32 (v j)).isNan then (0x7FC00000 : W32) else v j
      | _ => v j
    rest.foldl (fun acc q => acc.bind fun x => combine op rm o x (v q)) (some first)
/-- R143: p, the exact sum of eight products rounded once, then one addition. -/
def dotForm (rm : Rm) (o : Ovf) (acc a b c : W32) : Option W32 :=
  let sa := c.toNat % 256
  let sb := c.toNat / 256 % 256
  if sa % 64 = 63 ∨ sb % 64 = 63 ∨ (f32 acc).isNan = true then some 0x7FC00000
  else
    let code (x : W32) (e : Nat) : Nat := x.toNat / 16 ^ e % 16
    let sum : Int := ((List.range 8).map fun e =>
      q4Times8 (scaleType sa) (code a e) * q4Times8 (scaleType sb) (code b e)).sum
    let p := FFmt.f32.roundInf .rne (Num.ofInt false sum ((sa % 64 : Nat) + (sb % 64 : Nat) - 70))
    (FFmt.f32.finish o (FFmt.f32.round rm (Num.add rm (f32 acc) (FFmt.f32.value p)))).map (BitVec.ofNat 32)
def dotOperand (s : State) : Instr → Option (VReg × VReg × VReg × (Nat → W32) × KReg × Rm × Ovf × Nat)
  | .vdp4 d a b c k rm o => some (d, a, c, s.operand (.reg b), k, rm, o, 8)
  | .vdp4Lit d a c k rm o l => some (d, a, c, fun _ => l, k, rm, o, 12)
  | _ => none

end Sys2Proof.Machine

open Sys2Proof Sys2Proof.Machine in
/-- R118: mask instructions act on whole registers, whatever the slot's mask; KSTS writes a pair.
R129: VCMP writes all 128 bits of its mask register, 0 for the lanes that are not active. -/
def Obligations.MaskRegistersAreWritten : Prop :=
  ((∀ (s : State) (i : Instr) (d : KReg) (v : Mask), kopForm s i = some (d, v) → s.unlimited →
    ∃ t, exec i s = .next t ∧ GoesOn s t s.S (s.withK d v) s.cw.v (s.slotAt (s.after 4))) ∧
  (∀ (s : State) (i : Instr) (d : SReg) (v : Word), kopScalar s i = some (d, v) → s.unlimited →
    ∃ t, exec i s = .next t ∧ GoesOn s t (s.withS d v) s.K s.cw.v (s.slotAt (s.after 4))) ∧
  (∀ (s : State) (r : SReg) (a : KReg), r.toNat % 2 = 0 → s.unlimited →
    ∃ t, exec (.ksts r a) s = .next t ∧
      GoesOn s t (fun q => if q = r ∧ q ≠ 0 then BitVec.ofNat 64 (s.K a).toNat
        else if q = r + 1 then BitVec.ofNat 64 ((s.K a).toNat / 2 ^ 64) else s.S q) s.K s.cw.v (s.slotAt (s.after 4)))) ∧
  (∀ (s : State) (i : Instr) (d : KReg) (p : Nat → Bool) (k : KReg) (len : Nat), cmpForm s i = some (d, p, k, len) → s.unlimited →
    ∃ t, exec i s = .next t ∧
      GoesOn s t s.S (s.withK d (laneMask fun j => (masked s k).getLsbD j && p j)) s.cw.v (s.slotAt (s.after len)))

open Sys2Proof Sys2Proof.Machine in
/-- R280: the LANE functions read a lane, or its trap record, or write one lane; every execution mask is ignored.
R135, R136, R137, R140, R141, R142: pack, unpack, permute, compress, match and depth write the lanes the manual gives
them, no latch, and nothing else. -/
def Obligations.LaneInstructionsWriteTheirLanes : Prop :=
  ((∀ (s : State) (i : Instr) (d : SReg) (v : Word), laneForm s i = some (d, v) → s.unlimited →
    ∃ t, exec i s = .next t ∧ GoesOn s t (s.withS d v) s.K s.cw.v (s.slotAt (s.after 4))) ∧
  (∀ (s : State) (r : VReg) (a b : SReg), s.unlimited →
    ∃ t, exec (.lput r a b) s = .next t ∧
      GoesOn s t s.S s.K (s.withLane r.toNat ((s.S b).toNat % 128) (BitVec.ofNat 32 (s.S a).toNat)) (s.slotAt (s.after 4)))) ∧
  (∀ (s : State) (i : Instr) (F : LaneForm), laneOpForm s i = some F → s.unlimited → (∀ n, F.feat = some n → s.hasFeature n) →
    ∃ t, exec i s = .next t ∧ GoesOn s t s.S s.K F.regs (s.slotAt (s.after F.len)))

open Sys2Proof Sys2Proof.Machine in
/-- R68, R138: VRED writes the root of the fixed tree over the active lanes and the identity elsewhere, extended; with an
overflow under TRAP in any node it traps OVFTRAP in every active lane (R299).
R68, R139: VSCAN gives each active lane the running value in lane order; where one overflows under TRAP it traps OVFTRAP
in that lane and every active lane above it, and writes nothing (R299). -/
def Obligations.ReductionAndScanKeepTheirOrders : Prop :=
  (∀ (s : State) (op : RedOp) (d : SReg) (a : VReg) (k : KReg) (rm : Rm) (o : Ovf), s.unlimited →
    let m := masked s k
    let root := treeNode (combine op rm o) (fun i => if m.getLsbD i then s.cw.v a.toNat i else identityOf op) 7 0
    (∀ v, root = some v → ∃ t, exec (.vred op d a k rm o) s = .next t ∧
      GoesOn s t (s.withS d (extended op v)) s.K s.cw.v (s.slotAt (s.after 8))) ∧
    (root = none → ∃ recs, sameRecs .ovftrap m recs ∧
      s.trapsBy (exec (.vred op d a k rm o) s) (lanesTrap .ovftrap m recs s.cs.pc))) ∧
  (∀ (s : State) (op : RedOp) (d a : VReg) (k : KReg) (rm : Rm) (o : Ovf), s.unlimited →
    let m := masked s k
    let run := running op rm o m (s.cw.v a.toNat)
    ((∀ i, i < 128 → m.getLsbD i = true → run i ≠ none) → ∃ t, exec (.vscan op d a k rm o) s = .next t ∧
      GoesOn s t s.S s.K (s.withLanes d m fun i => (run i).getD 0) (s.slotAt (s.after 8))) ∧
    (∀ bad : Mask, bad ≠ 0 → (∀ i, i < 128 → (bad.getLsbD i = true ↔ m.getLsbD i = true ∧ run i = none)) →
      ∃ recs, sameRecs .ovftrap bad recs ∧
        s.trapsBy (exec (.vscan op d a k rm o) s) (lanesTrap .ovftrap bad recs s.cs.pc)))

open Sys2Proof Sys2Proof.Machine in
/-- R143, R299: VDP4 in both forms: the dot product of eight codes added to each active lane, or OVFTRAP in the lanes that
overflow under TRAP. That a sum of zero products is +0 is the model's choice (log 45). -/
def Obligations.DotProductAccumulates : Prop :=
  ∀ (s : State) (i : Instr) (d a c : VReg) (b : Nat → W32) (k : KReg) (rm : Rm) (o : Ovf) (len : Nat),
    dotOperand s i = some (d, a, c, b, k, rm, o, len) → s.unlimited → s.hasFeature 4 →
    let m := masked s k
    let f := fun j => dotForm rm o (s.cw.v d.toNat j) (s.cw.v a.toNat j) (b j) (s.cw.v c.toNat j)
    ((∀ j, j < 128 → m.getLsbD j = true → f j ≠ none) → ∃ t, exec i s = .next t ∧
      GoesOn s t s.S s.K (s.withLanes d m fun j => (f j).getD 0) (s.slotAt (s.after len))) ∧
    (∀ bad : Mask, bad ≠ 0 → (∀ j, j < 128 → (bad.getLsbD j = true ↔ m.getLsbD j = true ∧ f j = none)) →
      ∃ recs, sameRecs .ovftrap bad recs ∧ s.trapsBy (exec i s) (lanesTrap .ovftrap bad recs s.cs.pc))

open Sys2Proof Sys2Proof.Machine in
/-- R55, R56: quantising 32 finite values takes the smallest scale whose range holds them all (62 where none does) and for
each the nearest code, of two the one with bit 0 clear, and never the code of negative zero; a NaN or infinite value makes
the block NaN.
R55, R136: an unpacked value is the code's value exactly, and the canonical NaN where E is 63. -/
def Obligations.QuantisingIsNearestAndUnpackingExact : Prop :=
  (∀ (t : BlockType) (xs : List Machine.Num),
    (∀ x ∈ xs, ∃ n m e, x = .fin n m e) →
      (∃ E, (quantise t xs).1 = t.code.toNat * 64 + E ∧ E ≤ 62 ∧ (E < 62 → q4Fits t xs E = true) ∧
        (∀ E', E' < E → q4Fits t xs E' = false) ∧ (quantise t xs).2.length = xs.length ∧
        ∀ (j : Nat) (x : Machine.Num), xs[j]? = some x → ∃ c, (quantise t xs).2[j]? = some c ∧ c < 16 ∧ (c = 8 → t = .int) ∧
          ∀ c', c' < 16 → q4Dist t x E c ≤ q4Dist t x E c' ∧
            (q4Dist t x E c' = q4Dist t x E c → q4Times8 t c' ≠ q4Times8 t c → c % 2 = 0)) ∧
    ((∃ x ∈ xs, ∀ n m e, x ≠ .fin n m e) → quantise t xs = (t.code.toNat * 64 + 63, xs.map fun _ => 0))) ∧
  (∀ scale code : Nat, scale < 256 → code < 16 →
    let p := FFmt.f32.roundInf .rne (q4Value scale code)
    (scale % 64 = 63 → p = 0x7FC00000) ∧
    (scale % 64 ≠ 63 → FFmt.f32.isUnits p (-149) (q4Times8 (scaleType scale) code * 2 ^ (scale % 64 + 114)) ∧
      (q4Times8 (scaleType scale) code = 0 → p = 0)))

namespace Sys2Proof.Machine

/-! ### The XV unit and its tables -/

/-- XV in its three forms: pip vector, X, Y, mask, steps (R146). -/
def xvForm : Instr → Option (VReg × VReg × VReg × KReg × List Nat)
  | .xv p x y k => some (p, x, y, k, [0, 1])
  | .xvS0 p x y k => some (p, x, y, k, [0])
  | .xvS1 p x y k => some (p, x, y, k, [1])
  | _ => none
/-- The pip of a step (R144). -/
def pipAt (word : W32) (step : Nat) : Nat := if step = 0 then word.toNat % 65536 else word.toNat / 65536

/-- FP32 arithmetic of the pips: the exact result rounded once with RNE, an overflow as an infinity (R150). -/
def pf (x : Num) : W32 := BitVec.ofNat 32 (FFmt.f32.roundInf .rne x)
def pBool (b : Bool) : W32 := if b then 0x3F800000 else 0
def pBounded (f : Sfn) (a : W32) : W32 := BitVec.ofNat 32 ((FFmt.f32.finish .inf (FFmt.f32.sfn f a.toNat)).getD 0)
def pMin (a b : W32) : W32 := BitVec.ofNat 32 (pickMinMax false .f32 a.toNat b.toNat)
def pMax (a b : W32) : W32 := BitVec.ofNat 32 (pickMinMax true .f32 a.toNat b.toNat)
def positive (a : W32) : Bool := (Num.fin false 0 0).lt (f32 a)
def byPow (x : Num) (n : Nat) : Num := match x with | .fin s m e => .fin s m (e - n) | x => x

/-- The pips of R149 but TBLWR and HALT, on a stack written top first: a, b, c are the values popped. None for another code
or too few entries. -/
def pipEffect (x y : W32) (table : Nat → Nat → W32) (counter : Nat → W32) (code param : Nat) : List W32 → Option (List W32)
  | st => match code, st with
    | 0x00, st => some st
    | 0x01, st => some (x :: st)
    | 0x02, st => some (y :: st)
    | 0x03, st => some (pf (Num.ofInt false (BitVec.ofNat 10 param).toInt 0) :: st)
    | 0x04, a :: st => some (a :: a :: st)
    | 0x05, a :: b :: st => some (b :: a :: st)
    | 0x06, _ :: st => some st
    | 0x07, a :: b :: st => some (b :: a :: b :: st)
    | 0x08, a :: b :: st => some (pf (Num.add .rne (f32 b) (f32 a)) :: st)
    | 0x09, a :: b :: st => some (pf (Num.add .rne (f32 b) (f32 a).neg) :: st)
    | 0x0A, a :: b :: st => some (pf (Num.mul (f32 b) (f32 a)) :: st)
    | 0x0B, a :: b :: st =>
      some (BitVec.ofNat 32 ((FFmt.f32.finish .inf (FFmt.f32.fdiv .rne b.toNat a.toNat)).getD 0) :: st)
    | 0x0C, a :: b :: c :: st => some (pf (Num.add .rne (Num.mul (f32 c) (f32 b)) (f32 a)) :: st)
    | 0x0D, a :: b :: st => some (pMin b a :: st)
    | 0x0E, a :: b :: st => some (pMax b a :: st)
    | 0x0F, a :: st => some (BitVec.ofNat 32 (signFlip .f32 a.toNat) :: st)
    | 0x10, a :: st => some (BitVec.ofNat 32 (signOff .f32 a.toNat) :: st)
    | 0x11, a :: st => some (pBounded .rcp a :: st)
    | 0x12, a :: st => some (pBounded .rsq a :: st)
    | 0x13, a :: st => some (pBounded .sqrt a :: st)
    | 0x14, a :: st => some (pBounded .exp2 a :: st)
    | 0x15, a :: st => some (pBounded .log2 a :: st)
    | 0x16, a :: st => some (pBounded .exp a :: st)
    | 0x17, a :: st => some (pBounded .log a :: st)
    | 0x18, a :: st => some (pBounded .tanh a :: st)
    | 0x19, a :: st => some (pBounded .sigm a :: st)
    | 0x1A, a :: st => some (pBounded .erf a :: st)
    | 0x1B, a :: st => some (pBounded .gelu a :: st)
    | 0x1C, a :: st => some (pBounded .gelut a :: st)
    | 0x1D, a :: st => some (pBounded .silu a :: st)
    | 0x1E, a :: st => some (pBounded .softp a :: st)
    | 0x1F, a :: st => some ((if (f32 a).isNan then 0x7FC00000 else if positive a then a else 0) :: st)
    | 0x20, a :: st =>
      some ((if (f32 a).isNan then 0x7FC00000 else if positive a then a else pf (byPow (f32 a) param)) :: st)
    | 0x21, a :: b :: c :: st => some (pMin (pMax c b) a :: st)
    | 0x22, a :: st => some (lutEval (table param) a :: st)
    | 0x23, a :: b :: c :: st => some ((if (f32 a).isZero then b else c) :: st)
    | 0x24, a :: b :: st => some (pBool ((f32 b).lt (f32 a)) :: st)
    | 0x25, a :: b :: st => some (pBool ((f32 b).eq (f32 a)) :: st)
    | 0x26, a :: st => some (BitVec.ofNat 32 (FFmt.f32.frnd .rdn a.toNat) :: st)
    | 0x27, a :: st => some (pf (Num.mul (f32 a) (f32 a)) :: st)
    | 0x39, st => some (counter param :: st)
    | _, _ => none
/-- How many entries a pip pops and pushes, by its code, and how many bits of PARAM it uses (R149). -/
def pipCounts (code : Nat) : Option (Nat × Nat × Nat) :=
  if code = 0x00 then some (0, 0, 0)
  else if code = 0x01 ∨ code = 0x02 then some (0, 1, 0)
  else if code = 0x03 then some (0, 1, 10)
  else if code = 0x04 then some (1, 2, 0)
  else if code = 0x05 then some (2, 2, 0)
  else if code = 0x06 then some (1, 0, 0)
  else if code = 0x07 then some (2, 3, 0)
  else if code ≤ 0x0B ∨ code = 0x0D ∨ code = 0x0E ∨ code = 0x24 ∨ code = 0x25 then some (2, 1, 0)
  else if code = 0x0C ∨ code = 0x21 ∨ code = 0x23 then some (3, 1, 0)
  else if code = 0x20 then some (1, 1, 4)
  else if code = 0x22 then some (1, 1, 2)
  else if code ≤ 0x27 then some (1, 1, 0)
  else if code = 0x38 then some (2, 0, 2)
  else if code = 0x39 then some (0, 1, 3)
  else none
/-- The first check of R148 that a pip fails at a depth, TBLWR's check of its index apart. -/
def pipCheck (sys : Bool) (depth code param : Nat) : Option Cause :=
  match pipCounts code with
  | none => some .xvop
  | some (pops, pushes, bits) =>
    if 2 ^ bits ≤ param then some .xvop
    else if (code = 0x38 ∨ code = 0x39) ∧ sys = false then some .xvpriv
    else if depth < pops then some .xvund
    else if 8 < depth - pops + pushes then some .xvovf
    else none
/-- A pip's latency class (R149). An unassigned code has none: that it counts 1 is the model's choice (log 55). -/
def pipClass (code : Nat) : Nat := if 0x11 ≤ code ∧ code ≤ 0x17 then 4 else if 0x18 ≤ code ∧ code ≤ 0x22 then 8 else 1
/-- A stack of 8 entries whose used part, top first, is a list. -/
def stackOf (l junk : List W32) : Stack := { entries := l.reverse ++ junk, depth := l.length }
def Stack.list (s : Stack) : List W32 := (s.entries.take s.depth).reverse

/-- The lanes that an XV runs on, each with its steps: the active lanes, or those of the mask that a trap has recorded, of
which some go on at step 1 (R283). What each comes to, at the table generations and counters it finds. -/
def State.runsOn (s : State) (k : KReg) (steps : List Nat) : List (Nat × List Nat) :=
  match s.cs.xvres with
  | none => (activeList (Machine.masked s k)).map fun j => (j, steps)
  | some (m, one) => (activeList m).map fun j => (j, if one.getLsbD j then [1] else steps)
def xvEnv (s t : State) (gens : List Nat) (x y : VReg) (i : Nat) : PipEnv :=
  { x := s.cw.v x.toNat i, y := s.cw.v y.toNat i
    table := fun n word => ((s.bank (bankOf s.cur.1)).table n).word (gens.getD n 0) word
    counter := fun n => BitVec.ofNat 32 (t.evcnt (coreOf s.cur.1) n).toNat }
def xvRun (s t : State) (gens : List Nat) (p x y : VReg) (steps : List Nat) (i : Nat) : LaneRun :=
  runLane s.cw.system (xvEnv s t gens x y i) (s.cw.v p.toNat i) steps
    { stack := { entries := (List.range 8).map (s.cw.entry i), depth := s.cw.depth i }, ran := [], cycles := 0, tblw := [], fail := none }

/-- An XV of a bank that is to write a table has issued and not retired (R157, R159). -/
def State.tableWriteOpen (s : State) (b n : Nat) : Prop :=
  ∃ i, i < 8 ∧ ∃ x pc p, (s.wave (8 * b + i)).pend = .xv x pc p ∧ ∃ e ∈ p.tblw, e.1 = n
/-- An XV of a bank that has latched a generation of a table has issued and not retired. -/
def State.tableReadOpen (s : State) (b n gen : Nat) : Prop :=
  ∃ i, i < 8 ∧ ∃ x pc p, (s.wave (8 * b + i)).pend = .xv x pc p ∧ p.gens[n]? = some gen
/-- A table cannot take a TBLWR yet: its inactive generation is read, or a write or a load of it is open (R148, R159). -/
def State.tableBusy (s : State) (b n : Nat) : Prop :=
  s.tableReadOpen b n (1 - ((s.bank b).table n).cur) ∨ s.tableWriteOpen b n ∨ ∃ l ∈ (s.bank b).loads, l.table = n

/-- The last value that a list of writes gives a key. -/
def lastWrite {α : Type} (l : List (Nat × α)) (k : Nat) (old : α) : α :=
  match l.reverse.find? fun e => e.1 == k with
  | some e => e.2
  | none => old

/-- The issuing wave's stacks have changed in the lanes of a mask, to `D` entries in lane i, entry e being `E i e`, and its
vector registers to `V`; nothing else has. -/
structure StacksGoOn (s t : State) (D : Nat → Nat) (E : Nat → Nat → W32) (V : Nat → Nat → W32) : Prop where
  only : OnlyWave s t
  depth : ∀ i, i < 128 → t.cw.depth i = D i
  entry : ∀ i e, i < 128 → e < 8 → t.cw.entry i e = E i e
  vregs : ∀ r i, i < 128 → t.cw.v r i = V r i
  slot : t.cs = s.slotAt (s.after 4)
  other : t.cw.slot (otherSlot s.cur.2) = s.cw.slot (otherSlot s.cur.2)
  rest : t.cw = { s.cw with
    ostacks := t.cw.ostacks, depths := t.cw.depths, vregs := t.cw.vregs, slotA := t.cw.slotA, slotB := t.cw.slotB }

/-- The issuing slot has gone on behind itself; beside the issuing wave, which holds the scalar registers `S`, only its own
bank has changed. -/
structure GoesOnInBank (s t : State) (S : SReg → Word) : Prop where
  mid : ∃ u, OnlyWave s u ∧ t = { u with waves := t.waves, banks := t.banks }
  banks : ∀ b, b ≠ bankOf s.cur.1 → t.bank b = s.bank b
  waves : ∀ w, w ≠ s.cur.1 → t.wave w = s.wave w
  sregs : ∀ r, t.S r = S r
  slot : t.cs = s.slotAt (s.after 4)
  other : t.cw.slot (otherSlot s.cur.2) = s.cw.slot (otherSlot s.cur.2)
  rest : t.cw = { s.cw with sregs := t.cw.sregs, slotA := t.cw.slotA, slotB := t.cw.slotB }

/-- A cluster-window offset may be used: within CLSIZE, and its bank has no owner or that of the set (R51; log 53). -/
def stripeOpen (s : State) (T : Team) (o : Nat) : Prop :=
  o < T.clSize ∧ ∀ v, (s.bank (T.setBanks.getD (o / 128 % T.setBanks.length) 0)).owner = some v → v = T.vf
/-- A 32-bit word of the issuing wave's team window at an offset, and of its team's cluster window (R39, R40). -/
def windowWord (s : State) (T : Team) (cluster : Bool) (o : Nat) : W32 :=
  let byte (q : Nat) : Nat :=
    if cluster then (match T.clLoc q with | .share b o' => (SMap.get zeros (s.bank b).share o').toNat | _ => 0)
    else (SMap.get zeros (s.bank (bankOf s.cur.1)).share q).toNat
  BitVec.ofNat 32 (byte o + 256 * byte (o + 1) + 65536 * byte (o + 2) + 16777216 * byte (o + 3))

end Sys2Proof.Machine

open Sys2Proof Sys2Proof.Machine in
/-- R148, R149, R150, R151: a pip that passes its checks has the effect of the table on the lane's stack; one that fails a check
leaves no trace and gives the first failing check's cause; either counts its class, an unassigned code 1 (log 55). TBLWR holds b
for word a of its table, if a is an integral value from 0 to 513.
R147: a lane runs its steps until one fails or is HALT, which counts a cycle; that a HALT with PARAM is XVOP is log 46. -/
def Obligations.PipsFollowTheTable : Prop :=
  (∀ (sys : Bool) (env : PipEnv) (step code param cyc : Nat) (l junk : List W32), code < 64 → code ≠ 0x3F →
    l.length + junk.length = 8 →
    let r0 : LaneRun := { stack := stackOf l junk, ran := [], cycles := cyc, tblw := [], fail := none }
    let r := runPip sys env step (code + 64 * param) r0
    (∀ c, pipCheck sys l.length code param = some c → r.fail = some (c, step) ∧ r.stack = r0.stack ∧ r.tblw = [] ∧
      r.cycles = cyc + pipClass code) ∧
    (pipCheck sys l.length code param = none → ∀ out, pipEffect env.x env.y env.table env.counter code param l = some out →
      r.fail = none ∧ r.stack.list = out ∧ r.stack.entries.length = 8 ∧ r.tblw = [] ∧ r.cycles = cyc + pipClass code) ∧
    (pipCheck sys l.length code param = none → code = 0x38 → ∀ a b st, l = a :: b :: st →
      (∀ n : Nat, n ≤ 513 → (f32 a).eq (Num.ofInt false n 0) = true →
        r.fail = none ∧ r.stack.list = st ∧ r.stack.entries.length = 8 ∧ r.tblw = [(param, n, b)] ∧ r.cycles = cyc + 1) ∧
      ((∀ n : Nat, n ≤ 513 → (f32 a).eq (Num.ofInt false n 0) = false) →
        r.fail = some (.xvop, step) ∧ r.stack = r0.stack ∧ r.tblw = [] ∧ r.cycles = cyc + 1))) ∧
  (∀ (sys : Bool) (env : PipEnv) (word : W32) (step : Nat) (rest : List Nat) (r0 : LaneRun),
    let pip := pipAt word step
    let r := { r0 with ran := r0.ran ++ [step] }
    (pip % 64 = 0x3F → pip / 64 = 0 → runLane sys env word (step :: rest) r0 = { r with cycles := r0.cycles + 1 }) ∧
    (pip % 64 = 0x3F → pip / 64 ≠ 0 →
      runLane sys env word (step :: rest) r0 = { r with cycles := r0.cycles + 1, fail := some (.xvop, step) }) ∧
    (pip % 64 ≠ 0x3F → let q := runPip sys env step pip r
      (q.fail ≠ none → runLane sys env word (step :: rest) r0 = q) ∧
      (q.fail = none → runLane sys env word (step :: rest) r0 = runLane sys env word rest q ∧ runLane sys env word [] q = q)))

open Sys2Proof Sys2Proof.Machine in
/-- R147, R151: XV latches the current generations, runs its active lanes on the stacks as they stand and holds the results
until it retires, 2 cycles and the longest lane's classes later. Until then nothing but its slot has changed.
R283: behind a trap of its own it runs the recorded lanes instead, those that failed at step 1 from there.
R148, R159: one with a TBLWR waits while its table is busy.
R147, R151, R159: at XV_RETIRE the held stacks and depths stand in the wave and the table words in the inactive
generations; if no lane has failed nothing else changes but event counts, and otherwise the wave then traps in the lanes
that failed. A wave whose flows are over retires with the last of what it has issued (R34, R275). -/
def Obligations.XvRunsItsLanesAndRetires : Prop :=
  (∀ (s : State) (i : Instr) (p x y : VReg) (k : KReg) (steps : List Nat), xvForm i = some (p, x, y, k, steps) → s.unlimited →
    s.hasFeature 1 →
    let writes (n : Nat) : Prop := ∃ l ∈ s.runsOn k steps, ∃ st ∈ l.2, pipAt (s.cw.v p.toNat l.1) st % 64 = 0x38 ∧
      pipAt (s.cw.v p.toNat l.1) st / 64 = n
    ((∃ n, n < 4 ∧ writes n ∧ s.tableBusy (bankOf s.cur.1) n) → exec i s = .next s) ∧
    ((∀ n, n < 4 → writes n → ¬ s.tableBusy (bankOf s.cur.1) n) → ∃ t q, exec i s = .next t ∧ OnlyWave s t ∧ t.cs = s.slotAt (s.after 4) ∧
      t.cw.slot (otherSlot s.cur.2) = s.cw.slot (otherSlot s.cur.2) ∧
      t.cw = { s.cw with slotA := t.cw.slotA, slotB := t.cw.slotB, pend := .xv s.cur.2 s.cs.pc q } ∧
      (let lanes := s.runsOn k steps
       let run := fun (l : Nat × List Nat) => xvRun s t q.gens p x y l.2 l.1
       q.held = false ∧ q.ins = ⟨p, x, y, lanes⟩ ∧
       q.tblw = lanes.flatMap (fun j => (run j).tblw.map fun e => (e.1, 1024 * (1 - q.gens.getD e.1 0) + e.2.1, e.2.2)) ∧
       q.gens = (List.range 4).map (fun n => ((s.bank (bankOf s.cur.1)).table n).cur) ∧
       q.due = s.cycle + 2 + (lanes.map fun j => (run j).cycles).foldl Nat.max 0 ∧
       q.depths = lanes.map (fun j => (j.1, (run j).stack.depth)) ∧
       q.ostacks = lanes.flatMap (fun j => (run j).stack.entries.zipIdx.map fun e => (8 * j.1 + e.2, e.1)) ∧
       q.fails = lanes.filterMap (fun j => (run j).fail.map fun f => (j.1, f.1, f.2))))) ∧
  (∀ (s : State) (w : Nat) (x : SlotId) (pc : Word) (p : XvPend), (s.wave w).pend = .xv x pc p →
    ∃ t, (∀ i, i < 128 → (t.wave w).depth i = lastWrite p.depths i ((s.wave w).depth i)) ∧
      (∀ i e, i < 128 → e < 8 → (t.wave w).entry i e = lastWrite p.ostacks (8 * i + e) ((s.wave w).entry i e)) ∧
      t.wave w = { s.wave w with ostacks := (t.wave w).ostacks, depths := (t.wave w).depths, pend := .none } ∧
      (∀ v, v ≠ w → t.wave v = s.wave v) ∧ (∀ a, t.byte a = s.byte a) ∧
      t = { s with waves := t.waves, banks := t.banks, cores := t.cores } ∧ (∀ b, b ≠ bankOf w → t.bank b = s.bank b) ∧
      (∀ c, c ≠ coreOf w → t.core c = s.core c) ∧
      t.core (coreOf w) = { s.core (coreOf w) with evcnt := (t.core (coreOf w)).evcnt } ∧
      ((s.core (coreOf w)).evsel = [] → t.core (coreOf w) = s.core (coreOf w)) ∧
      t.bank (bankOf w) = { s.bank (bankOf w) with tables := (t.bank (bankOf w)).tables } ∧
      (∀ n, (p.tblw.filter fun e => e.1 == n) = [] → (t.bank (bankOf w)).table n = (s.bank (bankOf w)).table n) ∧
      (∀ n, (p.tblw.filter fun e => e.1 == n) ≠ [] → ((t.bank (bankOf w)).table n).loaded = true ∧
        ((t.bank (bankOf w)).table n).cur = ((s.bank (bankOf w)).table n).cur) ∧
      (∀ n k, SMap.get zeros ((t.bank (bankOf w)).table n).words k =
        lastWrite ((p.tblw.filter fun e => e.1 == n).map (·.2)) k (SMap.get zeros ((s.bank (bankOf w)).table n).words k)) ∧
      ((s.wave w).noFlow = true → exec (.xvRetire w) s = .next (t.endDying w)) ∧
      ((s.wave w).noFlow = false → p.fails = [] → exec (.xvRetire w) s = .next t) ∧
      ((s.wave w).noFlow = false → p.fails ≠ [] → ∃ recs mask cause, exec (.xvRetire w) s = .next (takeTrap t w x
          { cause := cause, addr := 0, n := 0, eng := false, xvres := true, mask := mask, recs := recs, pc := pc, chain := pc
            next := pc }) ∧
        (∀ j, j < 128 → (mask.getLsbD j = true ↔ ∃ f ∈ p.fails, f.1 = j)) ∧
        (∀ j, j < 128 → SMap.get (fun _ => LaneRec.zero) recs j = match p.fails.find? fun g => g.1 == j with
          | some f => { cause := f.2.1.code, step := BitVec.ofNat 8 f.2.2, addr := 0 }
          | none => LaneRec.zero) ∧
        ∀ f, p.fails.find? (fun g => g.1 == lowestLane mask) = some f → cause = f.2.1))

open Sys2Proof Sys2Proof.Machine in
/-- R153: the stack instructions act in every active lane, or, where one of them is full or empty, trap in those lanes and
act in none. -/
def Obligations.StackInstructionsActInEveryLane : Prop :=
  ∀ (s : State) (a d : VReg) (k : KReg), s.unlimited → s.hasFeature 1 →
    let m := masked s k
    let D := s.cw.depth
    let E := s.cw.entry
    let on (i : Nat) : Bool := m.getLsbD i
    ((∀ i, i < 128 → on i = true → D i < 8) → ∃ t, exec (.xvpush a k) s = .next t ∧
      StacksGoOn s t (fun i => if on i then D i + 1 else D i) (fun i e => if on i ∧ e = D i then s.cw.v a.toNat i else E i e)
        s.cw.v) ∧
    ((∀ i, i < 128 → on i = true → 0 < D i) →
      (∃ t, exec (.xvpop d k) s = .next t ∧
        StacksGoOn s t (fun i => if on i then D i - 1 else D i) E (s.withLanes d m fun i => E i (D i - 1))) ∧
      ∃ t, exec (.xvpeek d k) s = .next t ∧ StacksGoOn s t D E (s.withLanes d m fun i => E i (D i - 1))) ∧
    (∃ t, exec (.xvclr k) s = .next t ∧
      StacksGoOn s t (fun i => if on i then 0 else D i) (fun i e => if on i then 0 else E i e) s.cw.v) ∧
    (∀ bad : Mask, bad ≠ 0 → (∀ i, i < 128 → (bad.getLsbD i = true ↔ on i = true ∧ D i = 8)) →
      ∃ recs, sameRecs .xvovf bad recs ∧ s.trapsBy (exec (.xvpush a k) s) (lanesTrap .xvovf bad recs s.cs.pc)) ∧
    (∀ bad : Mask, bad ≠ 0 → (∀ i, i < 128 → (bad.getLsbD i = true ↔ on i = true ∧ D i = 0)) →
      ∃ recs, sameRecs .xvund bad recs ∧ s.trapsBy (exec (.xvpop d k) s) (lanesTrap .xvund bad recs s.cs.pc) ∧
        s.trapsBy (exec (.xvpeek d k) s) (lanesTrap .xvund bad recs s.cs.pc))

open Sys2Proof Sys2Proof.Machine in
/-- R156, R157, R158: TBLLD reads 514 words of a scratchpad window, or traps MALIGN or SPBOUND; at its completion they stand
in the inactive generation, marked loaded, once no XV in flight has latched that generation or is to write the table (R159).
A stripe whose bank another VF holds lies outside the cluster window (log 53). TBLSW switches, once no load of the table and no
XV that is to write it is open; TBLGEN reads the state. Each waits as the manual says. -/
def Obligations.TablesLoadSwitchAndRead : Prop :=
  (∀ (s : State) (n : TableId) (a : SReg) (T : Team) (cluster : Bool) (o : Nat), s.unlimited → s.hasFeature 1 →
    s.teamOf s.cur.1 = some T → o % 8 = 0 → (s.S a).toNat = (if cluster then 0xFF10000000000000 else 0xFF00000000000000) + o →
    o + 2056 ≤ (if cluster then T.clSize else T.spSize) → T.spSize ≤ 0x10000000000000 → s.poison = [] →
    (cluster = true → ∀ j, j < 257 → stripeOpen s T (o + 8 * j)) →
    ∃ t, exec (.tblld n a) s = .next t ∧ GoesOnInBank s t s.S ∧
      t.bank (bankOf s.cur.1) = { s.bank (bankOf s.cur.1) with loads := (s.bank (bankOf s.cur.1)).loads ++
        [{ wave := s.cur.1, launch := T.launch, table := n.toNat
           words := (List.range 514).map fun j => windowWord s T cluster (o + 4 * j) }] }) ∧
  (∀ (s : State) (n : TableId) (a : SReg), s.unlimited → s.hasFeature 1 → (s.S a).toNat % 8 ≠ 0 →
    s.trapsBy (exec (.tblld n a) s) (instrTrap .malign (s.S a) s.cs.pc)) ∧
  (∀ (s : State) (n : TableId) (a : SReg) (T : Team), s.unlimited → s.hasFeature 1 → (s.S a).toNat % 8 = 0 →
    s.teamOf s.cur.1 = some T →
    ¬ (0xFF00000000000000 ≤ (s.S a).toNat ∧ (s.S a).toNat + 2056 ≤ 0xFF00000000000000 + T.spSize) →
    ¬ (0xFF10000000000000 ≤ (s.S a).toNat ∧ (s.S a).toNat + 2056 ≤ 0xFF10000000000000 + T.clSize ∧
      ∀ j, j < 257 → stripeOpen s T ((s.S a).toNat - 0xFF10000000000000 + 8 * j)) →
    s.trapsBy (exec (.tblld n a) s) (instrTrap .spbound (s.S a) s.cs.pc)) ∧
  (∀ (s : State) (b : Nat) (l : TableLoad) (rest : List TableLoad), (s.bank b).loads = l :: rest →
    ¬ s.tableReadOpen b l.table (1 - ((s.bank b).table l.table).cur) → ¬ s.tableWriteOpen b l.table →
    ∃ t, exec (.tblldComplete b) s = .next t ∧ t = { s with banks := t.banks } ∧ (∀ c, c ≠ b → t.bank c = s.bank c) ∧
      t.bank b = { s.bank b with tables := (t.bank b).tables, loads := rest } ∧
      (∀ n, n ≠ l.table → (t.bank b).table n = (s.bank b).table n) ∧
      (let T := (s.bank b).table l.table
       let T' := (t.bank b).table l.table
       T'.cur = T.cur ∧ T'.loaded = true ∧ (∀ j, j < 1024 → l.words.length ≤ 1024 →
         T'.word (1 - T.cur) j = l.words.getD j (T.word (1 - T.cur) j) ∧ (T.cur ≤ 1 → T'.word T.cur j = T.word T.cur j)))) ∧
  (∀ (s : State) (n : TableId), s.unlimited → s.hasFeature 1 →
    let B := s.bank (bankOf s.cur.1)
    ((∃ l ∈ B.loads, l.table = n.toNat) ∨ s.tableWriteOpen (bankOf s.cur.1) n.toNat → exec (.tblsw n) s = .next s) ∧
    ((∀ l ∈ B.loads, l.table ≠ n.toNat) → ¬ s.tableWriteOpen (bankOf s.cur.1) n.toNat → ∃ t, exec (.tblsw n) s = .next t ∧ GoesOnInBank s t s.S ∧
      t.bank (bankOf s.cur.1) = { B with tables := (t.bank (bankOf s.cur.1)).tables } ∧
      ∀ m, (t.bank (bankOf s.cur.1)).table m =
        if m = n.toNat then { B.table m with cur := 1 - (B.table m).cur, loaded := false } else B.table m)) ∧
  (∀ (s : State) (d : SReg) (n : TableId), s.unlimited → s.hasFeature 1 →
    let B := s.bank (bankOf s.cur.1)
    let T := B.table n.toNat
    let busy := s.tableReadOpen (bankOf s.cur.1) n.toNat (1 - T.cur)
    ((∃ l ∈ B.loads, l.wave = s.cur.1) → exec (.tblgen d n) s = .next s) ∧
    ((∀ l ∈ B.loads, l.wave ≠ s.cur.1) → ∀ v, (busy ∧ v = 4 ∨ ¬ busy ∧ v = 0) → ∃ t, exec (.tblgen d n) s = .next t ∧
      GoesOn s t (s.withS d (BitVec.ofNat 64 (T.cur + (if T.loaded then 2 else 0) + v))) s.K s.cw.v (s.slotAt (s.after 4))))

namespace Sys2Proof.Machine

/-! ### Synchronisation -/

/-- The own bank, its point `n`, and the number of the issuing wave in it. -/
def State.ownBank (s : State) : Bank := s.bank (bankOf s.cur.1)
def State.rvNow (s : State) (rv : BitVec 6) : Rv := s.ownBank.rv rv.toNat
/-- Members of a set of waves. -/
def members (m : BitVec 8) : Nat := ((List.range 8).filter fun i => m.getLsbD i).length
/-- R175: the waves counted by a point of n waves. -/
def counted (T : Team) (n : Nat) : BitVec 8 :=
  BitVec.ofNat 8 ((List.range 8).map fun i => if i < n ∧ T.retired.getLsbD i = false then 2 ^ i else 0).sum
/-- R325: a wave may arrive. -/
def mayArriveAt (r : Rv) (i : Nat) : Prop := r.init = true ∧ r.memb.getLsbD i = true ∧ r.who.getLsbD i = false
/-- R176: the flow of the issuing slot has arrived by a BARSYNC at its address and not returned. -/
def atFlow (s : State) (e : SyncRec) : Bool := e.place == slotPlace s.cur.2 && e.mask == s.cs.mask && e.pc == s.cs.pc
/-- R176: a generation later than `g`. -/
def laterGen (gen g : Nat) : Prop := 1 ≤ (gen + 2 ^ 32 - g) % 2 ^ 32 ∧ (gen + 2 ^ 32 - g) % 2 ^ 32 < 2 ^ 31
/-- R176: the point after an arrival of wave i. -/
def arrived (r : Rv) (i : Nat) : Rv :=
  if r.arr + 1 = r.exp then { r with gen := r.gen + 1, arr := 0, who := 0, exp := members r.memb }
  else { r with arr := r.arr + 1, who := r.who ||| BitVec.ofNat 8 (2 ^ i) }
/-- Of the own bank, only the point `rv` has changed, to `r`. -/
def onlyPoint (s t : State) (rv : BitVec 6) (r : Rv) : Prop :=
  t.ownBank = { s.ownBank with rvs := t.ownBank.rvs } ∧ ∀ n, t.ownBank.rv n = if n = rv.toNat then r else s.ownBank.rv n

/-- R49: what n landed bytes make of an arrival word's count and generation. -/
def landed (target count gen n : Nat) : Nat × Nat :=
  let c := (count + n) % 2 ^ 32
  if target = 0 then (c, gen) else (c % target, (gen + c / target) % 2 ^ 32)
open Classical in
/-- The location that an arrival word's address names in a scratchpad window, for the issuing wave (R38, R177). -/
noncomputable def awPlace (s : State) (T : Team) (a : Nat) : Option (Nat × Nat) :=
  if 0xFF00000000000000 ≤ a ∧ a < 0xFF10000000000000 ∧ a - 0xFF00000000000000 < T.spSize then
    some (bankOf s.cur.1, a - 0xFF00000000000000)
  else if 0xFF10000000000000 ≤ a ∧ a < 0xFF20000000000000 ∧ stripeOpen s T (a - 0xFF10000000000000) then
    (match T.clLoc (a - 0xFF10000000000000) with | .share b o => some (b, o) | _ => none)
  else none
/-- A 32-bit word of a bank's share. -/
def shareWord (s : State) (b o : Nat) : Nat :=
  ((List.range 4).map fun i => (SMap.get zeros (s.bank b).share (o + i)).toNat * 256 ^ i).sum

/-- The transfers stand as they did, but for source bytes that they have still to read and now keep (R200). -/
def onlyEarly (s t : State) : Prop :=
  (t.xfers.map fun x => { x with early := [] }) = s.xfers.map fun x => { x with early := [] }
/-- What a waiter has found, once `v` stands in the arrival word at an offset that it watches (R177, R327). -/
def finds (e : Waiter) (o v : Nat) (f : Option (BitVec 32)) : Prop :=
  (e.found ≠ none → f = e.found) ∧
  ∀ g, e.found = none → e.aw = some (o, g) →
    (laterGen (v / 2 ^ 64) g.toNat → f = some (BitVec.ofNat 32 (v / 2 ^ 64))) ∧ (¬ laterGen (v / 2 ^ 64) g.toNat → f = none)

/-- The issuing slot has gone on behind itself with the scalar registers `S`, and n bytes of one bank's share from an
offset have become those of `v`. The waits that watch the line are woken, those for a generation find it, and poison marks of
the bytes are cleared. -/
structure GoesOnStore (s t : State) (S : SReg → Word) (b o n v : Nat) : Prop where
  mid : ∃ u, OnlyWave s u ∧ t = { u with
    waves := t.waves, banks := t.banks, poison := t.poison, waiters := t.waiters, xfers := t.xfers }
  early : onlyEarly s t
  share : ∀ c q, SMap.get zeros (t.bank c).share q =
    if c = b ∧ o ≤ q ∧ q < o + n then BitVec.ofNat 8 (v / 256 ^ (q - o)) else SMap.get zeros (s.bank c).share q
  banks : ∀ c, t.bank c = { s.bank c with share := (t.bank c).share }
  wakes : ∀ e ∈ s.waiters, e.line = (1 + b, o / 128) → ∃ f, { e with woken := true, found := f } ∈ t.waiters ∧ finds e o v f
  waves : ∀ w, w ≠ s.cur.1 → t.wave w = s.wave w
  sregs : ∀ r, t.S r = S r
  slot : t.cs = s.slotAt (s.after 4)
  other : t.cw.slot (otherSlot s.cur.2) = s.cw.slot (otherSlot s.cur.2)
  rest : t.cw = { s.cw with sregs := t.cw.sregs, slotA := t.cw.slotA, slotB := t.cw.slotB }

/-- The issuing slot parks at its instruction: nothing else changes. -/
def parksAs (s t : State) (p : Park) : Prop :=
  OnlyWave s t ∧ t.cs = { s.cs with park := p, chain := none } ∧
    t.cw = { s.cw with slotA := t.cw.slotA, slotB := t.cw.slotB } ∧
    t.cw.slot (otherSlot s.cur.2) = s.cw.slot (otherSlot s.cur.2)

/-- The bank that DQSTEAL names (R178). -/
def stealBank (s : State) (v : Nat) : Nat := 2 * (8 * clusterOf (coreOf s.cur.1) + v % 8) + v / 8

end Sys2Proof.Machine

open Sys2Proof Sys2Proof.Machine in
/-- R175, R325: BARINIT sets a point up once, with the waves that have not left; a repetition with the same n changes
nothing; any other use traps ILL.
R176, R325: BARARR arrives and reads the generation; the last arrival begins the next one. BARWAIT goes on once its
generation has passed and parks before. BARSYNC does both, arriving once: a slot that comes back to it only waits. -/
def Obligations.RendezvousPointsCountAndWait : Prop :=
  (∀ (s : State) (rv : BitVec 6) (b : SReg) (T : Team), s.unlimited → s.teamOf s.cur.1 = some T → T.waves ≤ 8 →
    let v := (s.S b).toNat
    let r := s.rvNow rv
    (1 ≤ v → v ≤ T.waves → r.init = false → ∃ t, exec (.barinit rv b) s = .next t ∧ GoesOnInBank s t s.S ∧
      onlyPoint s t rv { init := true, n := v, exp := members (counted T v), arr := 0, memb := counted T v, gen := 0, who := 0 }) ∧
    (1 ≤ v → v ≤ T.waves → r.init = true → r.n = v → ∃ t, exec (.barinit rv b) s = .next t ∧
      GoesOn s t s.S s.K s.cw.v (s.slotAt (s.after 4))) ∧
    (v = 0 ∨ T.waves < v ∨ (r.init = true ∧ r.n ≠ v) → s.trapsBy (exec (.barinit rv b) s) (instrTrap .ill 0 s.cs.pc))) ∧
  (∀ (s : State) (d b : SReg) (rv : BitVec 6), s.unlimited →
    let r := s.rvNow rv
    let i := waveNo s.cur.1
    (mayArriveAt r i → ∃ t, exec (.bararr d rv) s = .next t ∧ GoesOnInBank s t (s.withS d (BitVec.ofNat 64 r.gen.toNat)) ∧
      onlyPoint s t rv (arrived r i)) ∧
    (¬ mayArriveAt r i → s.trapsBy (exec (.bararr d rv) s) (instrTrap .ill 0 s.cs.pc)) ∧
    (r.init = true → laterGen r.gen.toNat ((s.S b).toNat % 2 ^ 32) → ∃ t, exec (.barwait rv b) s = .next t ∧
      GoesOn s t s.S s.K s.cw.v (s.slotAt (s.after 4))) ∧
    (r.init = true → ¬ laterGen r.gen.toNat ((s.S b).toNat % 2 ^ 32) → ∃ t, exec (.barwait rv b) s = .next t ∧
      parksAs s t (.barwait rv.toNat (BitVec.ofNat 32 (s.S b).toNat))) ∧
    (r.init = false → s.trapsBy (exec (.barwait rv b) s) (instrTrap .ill 0 s.cs.pc)) ∧
    (∀ e, s.cw.syncs.find? (atFlow s) = some e →
      (laterGen r.gen.toNat e.gen.toNat → ∃ t, exec (.barsync rv) s = .next t ∧ OnlyWave s t ∧ t.cs = s.slotAt (s.after 4) ∧
        t.cw.slot (otherSlot s.cur.2) = s.cw.slot (otherSlot s.cur.2) ∧
        t.cw = { s.cw with
          slotA := t.cw.slotA, slotB := t.cw.slotB
          syncs := s.cw.syncs.filter fun e => !atFlow s e }) ∧
      (¬ laterGen r.gen.toNat e.gen.toNat → ∃ t, exec (.barsync rv) s = .next t ∧
        parksAs s t (.barwait rv.toNat e.gen))) ∧
    ((∀ e ∈ s.cw.syncs, atFlow s e = false) →
      (mayArriveAt r i → r.arr + 1 = r.exp → ∃ t, exec (.barsync rv) s = .next t ∧ GoesOnInBank s t s.S ∧
        onlyPoint s t rv (arrived r i)) ∧
      (mayArriveAt r i → r.arr + 1 ≠ r.exp → ∃ t, exec (.barsync rv) s = .next t ∧ onlyPoint s t rv (arrived r i) ∧
        (∃ u, OnlyWave s u ∧ t = { u with waves := t.waves, banks := t.banks }) ∧
        t.cs = { s.cs with park := .barwait rv.toNat r.gen, chain := none } ∧
        t.cw = { s.cw with
          slotA := t.cw.slotA, slotB := t.cw.slotB
          syncs := { place := slotPlace s.cur.2, mask := s.cs.mask, pc := s.cs.pc, rv := rv.toNat, gen := r.gen } :: s.cw.syncs }) ∧
      (¬ mayArriveAt r i → s.trapsBy (exec (.barsync rv) s) (instrTrap .ill 0 s.cs.pc))))

open Sys2Proof Sys2Proof.Machine in
/-- R49, R177, R327: AWSET writes TARGET and clears COUNT, AWADD adds bytes by the rule of R49, AWWAIT reads a generation that
has come and parks before; each checks its address in the manual's order. What a write brings is tested for those that wait.
R320: a poisoned word that is read raises POISON. -/
def Obligations.ArrivalWordsCount : Prop :=
  ∀ (s : State) (d a b : SReg) (T : Team), s.unlimited → s.teamOf s.cur.1 = some T →
    let A := (s.S a).toNat
    (∀ c o, A % 16 = 0 → awPlace s T A = some (c, o) →
      let target := shareWord s c o
      let count := shareWord s c (o + 4)
      let gen := shareWord s c (o + 8)
      let add := landed target count gen ((s.S b).toNat % 2 ^ 32)
      (∃ t, exec (.awset a b) s = .next t ∧ GoesOnStore s t s.S c o 16 ((s.S b).toNat % 2 ^ 32 + gen * 2 ^ 64)) ∧
      let clean := s.poisonLoc (.share c o) 16 = false
      (clean → ∃ t, exec (.awadd a b) s = .next t ∧
        GoesOnStore s t s.S c o 16 (target + add.1 * 2 ^ 32 + add.2 * 2 ^ 64)) ∧
      (clean → laterGen gen ((s.S b).toNat % 2 ^ 32) → ∃ t, exec (.awwait d a b) s = .next t ∧
        GoesOn s t (s.withS d (BitVec.ofNat 64 gen)) s.K s.cw.v (s.slotAt (s.after 4))) ∧
      (clean → ¬ laterGen gen ((s.S b).toNat % 2 ^ 32) → ∃ t, exec (.awwait d a b) s = .next t ∧
        parksAs s { t with waiters := s.waiters } (.awwait (s.S a) (BitVec.ofNat 32 (s.S b).toNat) d none) ∧
        t.waiters = { wave := s.cur.1, x := s.cur.2, line := (1 + c, o / 128), woken := false, found := none
                      aw := some (o, BitVec.ofNat 32 (s.S b).toNat) } ::
          s.waiters.filter fun e => !(e.wave == s.cur.1 && e.x == s.cur.2)) ∧
      (¬ clean → ∀ i, i = Instr.awadd a b ∨ i = .awwait d a b →
        ∃ u, OnlyWave s u ∧ u.cur = s.cur ∧ u.cw = s.cw ∧
          exec i s = .next (u.consume s.cur.1 s.cur.2 (instrTrap .poison (s.S a) s.cs.pc)))) ∧
    (∀ i, i = Instr.awset a b ∨ i = .awadd a b ∨ i = .awwait d a b →
      (A % 16 ≠ 0 → s.trapsBy (exec i s) (instrTrap .malign (s.S a) s.cs.pc)) ∧
      (A % 16 = 0 → (A < 0xFF00000000000000 ∨ 0xFF20000000000000 ≤ A) →
        s.trapsBy (exec i s) (instrTrap .prot (s.S a) s.cs.pc)) ∧
      (A % 16 = 0 → 0xFF00000000000000 ≤ A → A < 0xFF20000000000000 → awPlace s T A = none →
        s.trapsBy (exec i s) (instrTrap .spbound (s.S a) s.cs.pc)))

open Sys2Proof Sys2Proof.Machine in
/-- R178, R328: the deque: push and pop at the bottom, steal from the top of a bank of the same VF, count; a push onto 256
words and a steal with reserved bits trap ILL, and a bank of a quarantined core yields 0. -/
def Obligations.DequesPushPopAndSteal : Prop :=
  ∀ (s : State) (d a : SReg), s.unlimited →
    let B := s.ownBank
    let v := (s.S a).toNat
    (v = 0 → ∃ t, exec (.dqpush a) s = .next t ∧ GoesOn s t s.S s.K s.cw.v (s.slotAt (s.after 4))) ∧
    (v ≠ 0 → B.deque.length < 256 → ∃ t, exec (.dqpush a) s = .next t ∧ GoesOnInBank s t s.S ∧
      t.ownBank = { B with deque := B.deque ++ [s.S a] }) ∧
    (v ≠ 0 → 256 ≤ B.deque.length → s.trapsBy (exec (.dqpush a) s) (instrTrap .ill 0 s.cs.pc)) ∧
    (∀ l x, B.deque = l ++ [x] → ∃ t, exec (.dqpop d) s = .next t ∧ GoesOnInBank s t (s.withS d x) ∧
      t.ownBank = { B with deque := l }) ∧
    (B.deque = [] → ∃ t, exec (.dqpop d) s = .next t ∧ GoesOnInBank s t (s.withS d 0) ∧ t.ownBank = B) ∧
    let gone := (s.core (stealBank s v / 2)).margin.state = 2
    (v < 16 → ¬ gone → ∀ T, (s.bank (stealBank s v)).team = some T → T.vf = s.vfOf s.cur.1 →
      ∃ t, exec (.dqsteal d a) s = .next t ∧
        (∃ u, OnlyWave s u ∧ t = { u with waves := t.waves, banks := t.banks }) ∧ t.cs = s.slotAt (s.after 4) ∧
        t.cw = { s.cw with sregs := t.cw.sregs, slotA := t.cw.slotA, slotB := t.cw.slotB } ∧
        (∀ r, t.S r = s.withS d ((s.bank (stealBank s v)).deque.headD 0) r) ∧ (∀ w, w ≠ s.cur.1 → t.wave w = s.wave w) ∧
        ∀ c, t.bank c = if c = stealBank s v then { s.bank c with deque := (s.bank c).deque.tail } else s.bank c) ∧
    (v < 16 → gone ∨ (∀ T, (s.bank (stealBank s v)).team = some T → T.vf ≠ s.vfOf s.cur.1) → ∃ t, exec (.dqsteal d a) s = .next t ∧
      GoesOn s t (s.withS d 0) s.K s.cw.v (s.slotAt (s.after 4))) ∧
    (16 ≤ v → s.trapsBy (exec (.dqsteal d a) s) (instrTrap .ill 0 s.cs.pc)) ∧
    ∃ t, exec (.dqcnt d) s = .next t ∧
      GoesOn s t (s.withS d (BitVec.ofNat 64 B.deque.length)) s.K s.cw.v (s.slotAt (s.after 4))

namespace Sys2Proof.Machine

/-! ### Rollback -/

/-- R232: queue block `q` of VF `v`. -/
def queueAt (v q : Nat) : Nat := 0x40000000 + 0x1000 * v + 0x40 * q
def State.inError (s : State) (v q : Nat) : Prop := s.regBits (queueAt v q + 32) 0 2 = 2
/-- R308: queue `q` of VF `v` has entered ERROR with ERRADDR `a`. -/
def errorAt (t : State) (v q : Nat) (a : Word) : Prop := t.inError v q ∧ t.reg (queueAt v q + 40) = a
/-- Bits `lo` to `lo + n - 1` of a number. -/
abbrev bitField (v lo n : Nat) : Nat := v / 2 ^ lo % 2 ^ n
/-- The snapshots of a launch: whole pages, no two alike, each in canonical form. -/
structure SnapsOk (l : Launch) : Prop where
  apart : (l.snaps.map (·.page)).Nodup
  pages : ∀ e ∈ l.snaps, e.page % 4096 = 0 ∧ SMap.wf zeros e.bytes = true ∧ (∀ x ∈ e.bytes, x.1 < 4096) ∧ ∀ o ∈ e.marks, o < 4096
/-- R321: a launch that is placed again after a rollback. -/
def mayReplay (l : Launch) : Prop := bitField (l.word 0) 10 1 = 1 ∧ l.snapLost = false ∧ l.sentNet = false ∧ l.rollbacks < 2
/-- R321: launch `l` has been rolled back, from `s` to `t`. A page that has come to hold a verified image keeps it (R261); that the
launch's matrix operations, audits and checks go with it is log 39. -/
structure RolledBack (s t : State) (l : Launch) : Prop where
  waves : ∀ w T, s.teamOf w = some T → T.launch = l.key → (t.wave w).resident = false
  xfers : ∀ x ∈ t.xfers, x.launch ≠ l.key
  audits : ∀ a ∈ t.audits, a.launch ≠ l.key
  orders : ∀ c, ∀ o ∈ (t.core c).queue, o.launch ≠ l.key
  again : mayReplay l → t.launches.head? = some { l with placed := 0, retired := 0, rollbacks := l.rollbacks + 1, killed := false, snaps := [], unsnapped := [] } ∧
    ∀ m ∈ t.launches.tail, m.key ≠ l.key
  checks : ∀ c, ∀ k ∈ (t.core c).checks, k.stage ≠ 6 → ∀ T, s.teamOf k.wave = some T → T.launch ≠ l.key
  restored : mayReplay l → (∀ e ∈ l.snaps, ∀ o, o < 4096 →
      t.byte (e.page + o) = if s.guarded e.page = true then s.byte (e.page + o) else SMap.get zeros e.bytes o) ∧
    ∀ a, (∀ e ∈ l.snaps, a / 4096 ≠ e.page / 4096) → t.byte a = s.byte a
  dropped : ¬ mayReplay l → errorAt t l.vf l.q l.packetAddr ∧ (∀ m ∈ t.launches, m.key ≠ l.key) ∧ ∀ a, t.byte a = s.byte a

/-! ### Memory -/

/-- The issuing wave belongs to no audit re-run: its accesses to tenant memory go to memory itself (R318). -/
def State.plainTeam (s : State) (w : Nat) : Prop := ∀ T, s.teamOf w = some T → T.rerun = false
def bytesOf : Size → Nat
  | .b8 => 1 | .b16 => 2 | .b32 => 4 | .b64 => 8
def atomBytes (wide : Bool) : Nat := if wide then 8 else 4

/-- A byte of a location: memory or a bank's share. -/
def State.byteOf (s : State) (l : Loc) (i : Nat) : Byte :=
  match l with
  | .phys a => s.byte (a + i)
  | .share b o => SMap.get zeros (s.bank b).share (o + i)
  | _ => 0
/-- `n` bytes of a location, little-endian (R3). -/
def State.dataAt (s : State) (l : Loc) (n : Nat) : Nat := ((List.range n).map fun i => (s.byteOf l i).toNat * 256 ^ i).sum
/-- No byte of it is poisoned (R320). -/
def State.clean (s : State) (l : Loc) (n : Nat) : Prop := ∀ i, i < n → SMap.get (fun _ => false) s.poison (l.markKey + i) = false
/-- Tenant memory or a scratchpad. -/
def Loc.plain : Loc → Prop
  | .phys _ | .share _ _ => True
  | _ => False
/-- Tenant memory, a scratchpad, or ABUF: where a VST writes bytes. -/
def Loc.stored : Loc → Prop
  | .phys _ | .share _ _ | .abuf _ _ => True
  | _ => False
/-- R352: the checked stages that a memory instruction with these element addresses enters: 5, and 7 where one of them lies in
a scratchpad window. -/
def accessStages (as : List Word) : List Nat :=
  if ∃ a ∈ as, 0xFF00000000000000 ≤ a.toNat ∧ a.toNat < 0xFF20000000000000 then [5, 7] else [5]
/-- NOREPLAY of the page that an address was translated on (R322). -/
def norepOf (leaf : Option Leaf) : Bool := match leaf with | some l => l.noreplay | none => false
/-- R163: what a load extends to 64 bits. -/
def extendedTo (sx : Bool) (n v : Nat) : Word :=
  if sx = true ∧ 2 ^ (8 * n - 1) ≤ v then BitVec.ofInt 64 ((v : Int) - 2 ^ (8 * n)) else BitVec.ofNat 64 v

/-- The issuing wave is in a step of a capsule that may execute another instruction (R211). -/
def State.inStep (s : State) (c : Capsule) : Prop := s.cw.capsule = some c ∧ s.cw.handler = false ∧ c.instrs < 64
/-- R329: the windows that a body may not reach: the typed buffers, the scratchpads, system configuration. -/
def windowAddress (a : Word) : Bool :=
  decide ((0xFE00000000000000 ≤ a.toNat ∧ a.toNat < 0xFE30000000000000) ∨
    (0xFF00000000000000 ≤ a.toNat ∧ a.toNat < 0xFF20000000000000) ∨ 0xFFF0000000000000 ≤ a.toNat)
/-- R211: a byte of memory as a step sees it: what its newest buffered store of that byte holds, else memory. -/
def stepByte (s : State) (c : Capsule) (a : Nat) : Byte :=
  match c.buffer.reverse.find? fun e => match e.loc with | .phys p => decide (p ≤ a ∧ a < p + e.size) | _ => false with
  | some e => (match e.loc with | .phys p => BitVec.ofNat 8 (e.value.toNat / 256 ^ (a - p)) | _ => 0)
  | none => s.byte a
/-- SLD and SST in both forms: register, base, offset, qualifiers, length (R162). -/
def sldForm : Instr → Option (SReg × SReg × Int × MemQ × Nat)
  | .sld t sb imm m => some (t, sb, imm.toInt, m, 8)
  | .sldLit t sb m l => some (t, sb, l.toInt, m, 12)
  | _ => none
def sstForm : Instr → Option (SReg × SReg × Int × MemQ × Nat)
  | .sst t sb imm m => some (t, sb, imm.toInt, m, 8)
  | .sstLit t sb m l => some (t, sb, l.toInt, m, 12)
  | _ => none
/-- VLD and VST: register, base, offset register, mask, offset, qualifiers, length. -/
def vldForm : Instr → Option (VReg × SReg × VReg × KReg × Int × MemQ × Nat)
  | .vld t sb vo k imm m => some (t, sb, vo, k, imm.toInt, m, 8)
  | .vldLit t sb vo k m l => some (t, sb, vo, k, l.toInt, m, 12)
  | _ => none
def vstForm : Instr → Option (VReg × SReg × VReg × KReg × Int × MemQ × Nat)
  | .vst t sb vo k imm m => some (t, sb, vo, k, imm.toInt, m, 8)
  | .vstLit t sb vo k m l => some (t, sb, vo, k, l.toInt, m, 12)
  | _ => none
/-- VATOM and MRED; the flag says that old values are returned. -/
def vatomForm : Instr → Option (AtomOp × VReg × SReg × VReg × KReg × Int × AtomQ × Bool)
  | .vatom op t sb vo k imm m => some (op, t, sb, vo, k, imm.toInt, m, true)
  | .mred op t sb vo k imm m => some (op, t, sb, vo, k, imm.toInt, m, false)
  | _ => none
/-- R163: the address of a scalar access and of a lane's element. -/
def State.scalarAddr (s : State) (sb : SReg) (off : Int) : Word := BitVec.ofInt 64 ((s.S sb).toNat + off)
def State.elementAddr (s : State) (sb : SReg) (off : Int) (vo : VReg) (n j : Nat) : Word :=
  BitVec.ofInt 64 ((s.S sb).toNat + off + (if vo = 60 then ((n * j : Nat) : Int) else (s.cw.v vo.toNat j).toInt))
/-- The value of a vector register, or of a pair, in a lane (R162). -/
def State.laneData (s : State) (t : VReg) (wide : Bool) (j : Nat) : Word :=
  BitVec.ofNat 64 ((s.cw.v t.toNat j).toNat + if wide then 2 ^ 32 * (s.cw.v (t.toNat + 1) j).toNat else 0)

/-- The instruction has issued and entered the checked stages `st`: its slot stands behind it, what is to come is pending, and the
commit gate holds `gs` more. Beside that only counts, held translations (R46), and which writes of other dies its die has seen
(R225) have changed. -/
structure Issued (s t : State) (len : Nat) (st : List Nat) (p : Pend) (gs : List Effect) : Prop where
  mid : ∃ u, OnlyWave s u ∧ t = { u with waves := t.waves, tlb := t.tlb, clocks := t.clocks, crossing := t.crossing }
  waves : ∀ w, w ≠ s.cur.1 → t.wave w = s.wave w
  slot : t.cs = s.slotAt (s.after len)
  other : t.cw.slot (otherSlot s.cur.2) = s.cw.slot (otherSlot s.cur.2)
  rest : t.cw = { s.cw with slotA := t.cw.slotA, slotB := t.cw.slotB, pend := p, gates := t.cw.gates }
  gates : t.cw.gates =
    s.cw.gates ++ gs.map fun e => { x := s.cur.2, mask := s.cs.mask, pc := s.cs.pc, hand := s.cw.handler, stages := st, effect := e }

/-- What the stores of a list make of a byte of one kind of location, in order. -/
def storedByte (base : Loc → Option Nat) (es : List StoreElem) (a : Nat) (old : Byte) : Byte :=
  es.foldl (fun old e => match base e.loc with
    | some p => if p ≤ a ∧ a < p + e.size then BitVec.ofNat 8 (e.value.toNat / 256 ^ (a - p)) else old
    | none => old) old
def physBase : Loc → Option Nat
  | .phys a => some a
  | _ => none
def shareBase (b : Nat) : Loc → Option Nat
  | .share c o => if c = b then some o else none
  | _ => none
def abufBase (c : Nat) : Loc → Option Nat
  | .abuf d o => if d = c then some o else none
  | _ => none

/-- R167: f(old, b), on values of n bytes. -/
def combined (op : AtomOp) (n : Nat) (old b expected : Nat) : Nat :=
  let signed (v : Nat) : Int := if 2 ^ (8 * n - 1) ≤ v then (v : Int) - 2 ^ (8 * n) else v
  match op with
  | .add => (old + b) % 2 ^ (8 * n)
  | .min => if signed old ≤ signed b then old else b
  | .max => if signed old ≤ signed b then b else old
  | .minn => if old ≤ b then old else b
  | .maxn => if old ≤ b then b else old
  | .and => old &&& b
  | .or => old ||| b
  | .xor => old ^^^ b
  | .swap => b
  | .cas => if old = expected then b else old
  | .fadd => FFmt.f32.roundInf .rne (Num.add .rne (FFmt.f32.value old) (FFmt.f32.value b))
  | .fmin => pickMinMax false .f32 old b
  | .fmax => pickMinMax true .f32 old b
/-- A byte of memory or of a bank's share, by one number: its physical address, or beyond all of those bank by bank. -/
def State.cellAt (s : State) (k : Nat) : Byte :=
  if k < 2 ^ 60 then s.byte k else SMap.get zeros (s.bank ((k - 2 ^ 60) / 2 ^ 20)).share ((k - 2 ^ 60) % 2 ^ 20)
def cellOf : Loc → Option Nat
  | .phys a => if a + 8 ≤ 2 ^ 60 then some a else none
  | .share b o => if o + 8 ≤ 2 ^ 20 then some (2 ^ 60 + b * 2 ^ 20 + o) else none
  | _ => none
/-- Atomics in order: each reads, combines and writes as one event. The bytes after, and the old values. -/
def atomSequence (op : AtomOp) : List (Nat × Nat × Nat × Nat) → (Nat → Byte) → (Nat → Byte) × List Nat
  | [], m => (m, [])
  | (a, n, b, exp) :: rest, m =>
    let old := ((List.range n).map fun i => (m (a + i)).toNat * 256 ^ i).sum
    let new := combined op n old b exp
    let r := atomSequence op rest fun q => if a ≤ q ∧ q < a + n then BitVec.ofNat 8 (new / 256 ^ (q - a)) else m q
    (r.1, old :: r.2)

/-- The registers after returned values have been written, in order (R163). -/
def returned (W : Wave) (rets : List LoadRet) : Wave :=
  rets.foldl (fun W r => match r.dest with
    | .scalar d => W.setS d r.value
    | .lane t wide i =>
      let W1 := W.setV t.toNat i (BitVec.ofNat 32 r.value.toNat)
      if wide then W1.setV (t.toNat + 1) i (BitVec.ofNat 32 (r.value.toNat / 2 ^ 32)) else W1) W

/-- What slot x of a wave has in the commit gate (R249). -/
def gateOf (s : State) (w : Nat) (x : SlotId) : Option Gated := (s.wave w).gates.find? fun g => g.x == x
/-- A transfer of the issuing wave in a stream of the set that neither is complete nor has stopped: the slot has started it,
or it was started for a lane that has since come to the slot (R33, R171). -/
def transferOpen (s : State) (streams : BitVec 16) : Prop :=
  ∃ x ∈ s.xfers, x.wave = s.cur.1 ∧ x.launch = s.launchKey s.cur.1 ∧
    (x.x = s.cur.2 ∨ ∃ i, i < 128 ∧ x.mask.getLsbD i = true ∧ s.cs.mask.getLsbD i = true) ∧ streams.getLsbD x.strm.toNat = true ∧ ¬ (x.fault ≠ none ∧ x.chainDue = [])
def mwaitForm : Instr → Option (SReg × SReg × Int × WaitQ × Nat)
  | .mwait t sb imm q => some (t, sb, imm.toInt, q, 8)
  | .mwaitLit t sb q l => some (t, sb, l.toInt, q, 12)
  | _ => none
/-- A scalar access of an instruction: kind, address, bytes, and what a fault record says of it: read, write, atomic. -/
structure AccessForm where
  acc : Acc
  addr : Nat → Word
  size : Nat
  rd : Bool
  wr : Bool
  at_ : Bool
def scalarAccess (s : State) (i : Instr) : Option AccessForm :=
  match sldForm i, sstForm i, mwaitForm i, i with
  | some (_, sb, off, m, _), _, _, _ => some ⟨.load, fun _ => s.scalarAddr sb off, bytesOf m.size, true, false, false⟩
  | _, some (_, sb, off, m, _), _, _ => some ⟨.store, fun _ => s.scalarAddr sb off, bytesOf m.size, false, true, false⟩
  | _, _, some (_, sb, off, q, _), _ => some ⟨.load, fun _ => s.scalarAddr sb off, atomBytes q.wide, true, false, false⟩
  | _, _, _, .satom _ _ sb imm m => some ⟨.atomic, fun _ => s.scalarAddr sb imm.toInt, atomBytes m.wide, false, false, true⟩
  | _, _, _, _ => none
/-- A vector access: its mask register, and the address of each lane's element. -/
def vectorAccess (s : State) (i : Instr) : Option (KReg × AccessForm) :=
  match vldForm i, vstForm i, vatomForm i with
  | some (_, sb, vo, k, off, m, _), _, _ =>
    some (k, ⟨.load, s.elementAddr sb off vo (bytesOf m.size), bytesOf m.size, true, false, false⟩)
  | _, some (_, sb, vo, k, off, m, _), _ =>
    some (k, ⟨.vstore, s.elementAddr sb off vo (bytesOf m.size), bytesOf m.size, false, true, false⟩)
  | _, _, some (_, _, sb, vo, k, off, m, _) =>
    some (k, ⟨.atomic, s.elementAddr sb off vo (atomBytes m.wide), atomBytes m.wide, false, false, true⟩)
  | _, _, _ => none
/-- R48, R302: what a VF's fault buffer holds once an access of the issuing wave waits for a granule. -/
def granuleNoted (s : State) (F : AccessForm) (f : FaultBuffer) (g : Nat × Nat) : FaultBuffer :=
  let vf := s.vfOf s.cur.1
  if s.parkedOn vf g then f
  else if f.recs.length < 8 * 2 ^ s.regBits (partOff (s.vfPart vf)) 25 3 then
    { f with
      recs := f.recs ++ [{ vaddr := BitVec.ofNat 64 g.1, vf := vf, rd := F.rd, wr := F.wr, at_ := F.at_, eng := false
                           gsz := g.2, wave := s.cur.1, seq := f.nextSeq }]
      nextSeq := f.nextSeq + 1 }
  else { f with dropped := true }
/-- The issuing slot is parked on granules at its instruction, and each has its record. -/
structure ParksOn (s u : State) (F : AccessForm) (gs : List (Nat × Nat)) : Prop where
  slot : u.cs = { s.cs with park := .granule gs }
  rest : u.cw = { s.cw with slotA := u.cw.slotA, slotB := u.cw.slotB }
  other : u.cw.slot (otherSlot s.cur.2) = s.cw.slot (otherSlot s.cur.2)
  waves : ∀ w, w ≠ s.cur.1 → u.wave w = s.wave w
  bytes : ∀ a, u.byte a = s.byte a
  fbuf : ∀ v, u.fbuf v = if v = s.vfOf s.cur.1 then gs.foldl (granuleNoted s F) (s.fbuf v) else s.fbuf v

/-- A trap of slot x with POISON in lanes, or of a scalar access (R284, R300). -/
def poisonArgs (pc : Word) (bad : List (Option Nat × Word)) : TrapArgs :=
  let lanes := bad.filterMap fun e => e.1.map fun i => (i, e.2)
  let addr (i : Nat) : Word := match lanes.find? fun e => e.1 == i with | some e => e.2 | none => 0
  let mask := laneMask fun i => lanes.any fun e => e.1 == i
  match lanes with
  | [] => instrTrap .poison ((bad.headD (none, 0)).2) pc
  | _ => { cause := .poison, addr := addr (lowestLane mask), n := 0, eng := false, xvres := false, mask := mask
           recs := laneRecs mask fun i => { cause := 0x25, step := 0, addr := addr i }, pc := pc, chain := pc, next := pc }

/-- The line of memory or of a share that a location lies in, as a waiter names it (R172). -/
def lineOfLoc : Loc → Nat × Nat
  | .phys a => (0, a / 128)
  | .share b o => (1 + b, o / 128)
  | _ => (0, 0)
/-- R173: whether a core lies within a scope of another. -/
def scopeReaches (sc : Scope) (core c : Nat) : Prop :=
  match sc with
  | .wave | .team => c = core
  | .cluster => c / 8 = core / 8
  | .die => c / 64 = core / 64
  | .package | .system => True

/-! ### Where an address leads (R37 to R47, R296) -/

/-- R45: a bit of a table entry, the frame that it names, and its reserved bits. -/
def entryBit (e n : Nat) : Bool := e / 2 ^ n % 2 == 1
def entryFrame (e : Nat) : Nat := 4096 * bitField e 12 44
def entryReserved (e : Nat) : Prop := bitField e 8 4 ≠ 0 ∨ bitField e 56 8 ≠ 0
/-- R45: the entry at a depth of the walk, 0 to 4 for the levels 5 to 1, in a table; the table at a depth. -/
def entryIn (s : State) (va table depth : Nat) : Nat :=
  s.dataAt (.phys (table + 8 * (va / 2 ^ (48 - 9 * depth) % if depth = 0 then 256 else 512))) 8
def tableOf (s : State) (root va : Nat) : Nat → Nat
  | 0 => root
  | n + 1 => entryFrame (entryIn s va (tableOf s root va n) n)
def pathEntry (s : State) (root va depth : Nat) : Nat := entryIn s va (tableOf s root va depth) depth
/-- R45: an entry that names the next table. -/
def linksOn (e : Nat) : Prop := entryBit e 0 = true ∧ entryBit e 1 = false ∧ bitField e 2 6 = 0 ∧ ¬ entryReserved e
/-- R45, R300: a malformed entry at a depth. -/
def malformedAt (e depth : Nat) : Prop :=
  entryBit e 0 = true ∧ (entryReserved e ∨ (entryBit e 1 = true ∧ (depth ≤ 1 ∨ (depth < 4 ∧ entryBit e 7 = true))) ∨
    (entryBit e 1 = false ∧ (depth = 4 ∨ bitField e 2 6 ≠ 0)))
/-- R45: the page of a leaf entry, of 2 ^ bits bytes. -/
def pageLeaf (e bits : Nat) : Leaf :=
  { base := entryFrame e / 2 ^ bits * 2 ^ bits, bits := bits, w := entryBit e 2, x := entryBit e 3, sysatom := entryBit e 4
    conf := entryBit e 5, noreplay := entryBit e 6 }
/-- R45: the 16 entries of a 64 KiB page are alike. -/
def alike (s : State) (table va e : Nat) : Prop :=
  ∀ j, j < 16 → let f := s.dataAt (.phys (table + 8 * (va / 2 ^ 16 % 32 * 16 + j))) 8
    f % 4096 = e % 4096 ∧ bitField f 56 8 = 0 ∧ entryFrame f = entryFrame e / 2 ^ 16 * 2 ^ 16 + 4096 * j

/-- R45, R47, R48: what a walk of VF v's table finds at the first entry that does not link on. -/
structure WalksBy (s : State) (v va n : Nat) : Prop where
  absent : entryBit (pathEntry s (s.reg (0x1000 + 0x20 * v + 8)).toNat va n) 0 = false →
    let e := pathEntry s (s.reg (0x1000 + 0x20 * v + 8)).toNat va n
    let bits := if n = 4 then (if entryBit e 7 then 16 else 12) else 48 - 9 * n
    walk s v va = .absent (va / 2 ^ bits * 2 ^ bits) bits (if n = 4 then (if entryBit e 7 then 1 else 0) else 5 - n)
  malformed : malformedAt (pathEntry s (s.reg (0x1000 + 0x20 * v + 8)).toNat va n) n → walk s v va = .malformed
  leaf : let e := pathEntry s (s.reg (0x1000 + 0x20 * v + 8)).toNat va n
    entryBit e 0 = true → entryBit e 1 = true → ¬ malformedAt e n →
    (n = 4 → entryBit e 7 = false → walk s v va = .leaf (pageLeaf e 12)) ∧
    (n = 4 → entryBit e 7 = true → alike s (tableOf s (s.reg (0x1000 + 0x20 * v + 8)).toNat va n) va e →
      walk s v va = .leaf (pageLeaf e 16)) ∧
    (n < 4 → walk s v va = .leaf (pageLeaf e (48 - 9 * n)))

/-- R37, R296: what a wave's element of `n` bytes at `a`, aligned to its size, comes to before its data is read. -/
structure ResolvesBy (s : State) (w : Nat) (acc : Acc) (a : Word) (n : Nat) : Prop where
  misaligned : a.toNat % n ≠ 0 → resolve s w acc a n = .fault .malign
  hole : a.toNat % n = 0 → (2 ^ 56 ≤ a.toNat ∧ a.toNat < 0xFE00000000000000) ∨
    (0xFE30000000000000 ≤ a.toNat ∧ a.toNat < 0xFF00000000000000) ∨
    (0xFF20000000000000 ≤ a.toNat ∧ a.toNat < 0xFFF0000000000000) → resolve s w acc a n = .fault .xlate
  buffer : a.toNat % n = 0 → 0xFE00000000000000 ≤ a.toNat → a.toNat < 0xFE30000000000000 →
    ¬ (acc = .vstore ∧ 0xFE10000000000000 ≤ a.toNat ∧ a.toNat < 0xFE20000000000000) → resolve s w acc a n = .fault .prot
  abuf : a.toNat % n = 0 → acc = .vstore → 0xFE10000000000000 ≤ a.toNat → a.toNat < 0xFE20000000000000 →
    let o := a.toNat - 0xFE10000000000000
    let split : Prop := ∃ u v, (s.bank (w / 16 * 2)).owner = some u ∧ (s.bank (w / 16 * 2 + 1)).owner = some v ∧ u ≠ v
    (¬ split → resolve s w acc a n = if o < 0x40000 then .ok (.abuf (w / 16) o) none else .fault .bufbound) ∧
    (split → resolve s w acc a n =
      if o < 0x20000 then .ok (.abuf (w / 16) (0x20000 * (w / 8 % 2) + o)) none else .fault .bufbound)
  team : a.toNat % n = 0 → 0xFF00000000000000 ≤ a.toNat → a.toNat < 0xFF10000000000000 → ∀ T, s.teamOf w = some T →
    let o := a.toNat - 0xFF00000000000000
    let stack := acc = .push ∨ acc = .pop
    (o < T.spSize ∨ (stack ∧ o < T.spSize + 1024 * T.waves) → resolve s w acc a n = .ok (.share (w / 8) o) none) ∧
    (¬ (o < T.spSize ∨ (stack ∧ o < T.spSize + 1024 * T.waves)) → resolve s w acc a n = .fault .spbound)
  cluster : a.toNat % n = 0 → 0xFF10000000000000 ≤ a.toNat → a.toNat < 0xFF20000000000000 → ∀ T, s.teamOf w = some T →
    let o := a.toNat - 0xFF10000000000000
    let span := T.setBanks.length
    (stripeOpen s T o → resolve s w acc a n = .ok (.share (T.setBanks.getD (o / 128 % span) 0)
      (T.spSize + 1024 * T.waves + (o / 128 / span * 128 + o % 128))) none) ∧
    (¬ stripeOpen s T o → resolve s w acc a n = .fault .spbound)
  system : a.toNat % n = 0 → 0xFFF0000000000000 ≤ a.toNat →
    ((s.wave w).system = true → n = 8 → acc ≠ .atomic → resolve s w acc a n = .ok (.win (a.toNat - 0xFFF0000000000000)) none) ∧
    ((s.wave w).system = false ∨ n ≠ 8 ∨ acc = .atomic → resolve s w acc a n = .fault .prot)
  tenant : a.toNat % n = 0 → a.toNat < 2 ^ 56 →
    let vf := s.vfOf w
    let writes := acc ≠ .load ∧ acc ≠ .pop
    match translate s (w / 128) vf a.toNat with
    | .malformed => resolve s w acc a n = .fault .xlate
    | .absent base _ g => resolve s w acc a n = if s.regBits (0x1000 + 0x20 * vf) 1 1 = 1 then .park base g else .fault .xlate
    | .leaf l =>
      let pa := l.base + a.toNat % 2 ^ l.bits
      let barred := l.conf = true ∨ (writes ∧ (l.w = false ∨ s.guarded pa = true)) ∨
        s.portRefuses (w / 1024) (s.partWorld (s.partOf w)) pa = true
      (barred → resolve s w acc a n = .fault .prot) ∧ (¬ barred → resolve s w acc a n = .ok (.phys pa) (some l))

end Sys2Proof.Machine

open Sys2Proof Sys2Proof.Machine in
/-- R162, R163: SLD and SST in both forms, outside a capsule step: the element's address, its bytes at the location in tenant
memory or a scratchpad that the address resolves to, extended, or the store as it enters the commit gate. R249, R258: a load from
the system configuration window enters the gate too, and reads as it leaves it.
R211, R329: in a capsule step SLD returns the bytes that the step's own SST wrote, the newest, and memory otherwise, and SST is
buffered; both count, and trap CAPILL on a window, CAPLIM at the fifth SST of a step. -/
def Obligations.ScalarAccessesIssue : Prop :=
  ((∀ (s : State) (i : Instr) (t sb : SReg) (off : Int) (m : MemQ) (len : Nat) (loc : Loc) (leaf : Option Leaf),
    sldForm i = some (t, sb, off, m, len) → s.unlimited → s.plainTeam s.cur.1 → loc.plain → s.clean loc (bytesOf m.size) →
    resolve s s.cur.1 .load (s.scalarAddr sb off) (bytesOf m.size) = .ok loc leaf →
    ∃ u, exec i s = .next u ∧ Issued s u len (accessStages [s.scalarAddr sb off])
      (.load s.cur.2 s.cs.pc (accessStages [s.scalarAddr sb off])
        [{ dest := .scalar t, value := extendedTo m.sx (bytesOf m.size) (s.dataAt loc (bytesOf m.size))
           addr := s.scalarAddr sb off, poisoned := false }]) []) ∧
  (∀ (s : State) (i : Instr) (t sb : SReg) (off : Int) (m : MemQ) (len o : Nat) (leaf : Option Leaf),
    sldForm i = some (t, sb, off, m, len) → s.unlimited →
    resolve s s.cur.1 .load (s.scalarAddr sb off) (bytesOf m.size) = .ok (.win o) leaf →
    ∃ u, exec i s = .next u ∧ Issued s u len (accessStages [s.scalarAddr sb off]) s.cw.pend [.read
      [{ loc := .win o, size := bytesOf m.size, sx := m.sx, dest := .scalar t, addr := s.scalarAddr sb off }]]) ∧
  (∀ (s : State) (i : Instr) (t sb : SReg) (off : Int) (m : MemQ) (len : Nat) (loc : Loc) (leaf : Option Leaf),
    sstForm i = some (t, sb, off, m, len) → s.unlimited →
    resolve s s.cur.1 .store (s.scalarAddr sb off) (bytesOf m.size) = .ok loc leaf →
    ∃ u, exec i s = .next u ∧ Issued s u len (accessStages [s.scalarAddr sb off]) s.cw.pend [.store
      [{ addr := s.scalarAddr sb off, loc := loc, size := bytesOf m.size, value := s.S t, norep := norepOf leaf }]])) ∧
  ((∀ (s : State) (i : Instr) (t sb : SReg) (off : Int) (m : MemQ) (len : Nat) (c : Capsule) (a : Nat) (leaf : Option Leaf),
    sldForm i = some (t, sb, off, m, len) → s.inStep c → (∀ r ∈ [t, sb], bodyReg r) → s.plainTeam s.cur.1 →
    windowAddress (s.scalarAddr sb off) = false →
    resolve s s.cur.1 .load (s.scalarAddr sb off) (bytesOf m.size) = .ok (.phys a) leaf → s.clean (.phys a) (bytesOf m.size) →
    ∃ u, exec i s = .next u ∧ u.cs = s.slotAt (s.after len) ∧
      u.cw = { s.cw with
        slotA := u.cw.slotA, slotB := u.cw.slotB, capsule := some { c with instrs := c.instrs + 1 }
        pend := .load s.cur.2 s.cs.pc [5] [
          { dest := .scalar t, addr := s.scalarAddr sb off, poisoned := false
            value := extendedTo m.sx (bytesOf m.size)
              ((List.range (bytesOf m.size)).map fun j => (stepByte s c (a + j)).toNat * 256 ^ j).sum }] } ∧
      (∀ w, w ≠ s.cur.1 → u.wave w = s.wave w) ∧ ∀ b, u.byte b = s.byte b) ∧
  (∀ (s : State) (i : Instr) (t sb : SReg) (off : Int) (m : MemQ) (len : Nat) (c : Capsule) (loc : Loc) (leaf : Option Leaf),
    sstForm i = some (t, sb, off, m, len) → s.inStep c → (∀ r ∈ [t, sb], bodyReg r) →
    windowAddress (s.scalarAddr sb off) = false →
    resolve s s.cur.1 .store (s.scalarAddr sb off) (bytesOf m.size) = .ok loc leaf →
    (c.ssts < 4 → ∃ u, exec i s = .next u ∧ u.cs = s.slotAt (s.after len) ∧
      u.cw = { s.cw with
        slotA := u.cw.slotA, slotB := u.cw.slotB
        capsule := some { c with
          instrs := c.instrs + 1, ssts := c.ssts + 1
          buffer := c.buffer ++ [{ addr := s.scalarAddr sb off, loc := loc, size := bytesOf m.size, value := s.S t
                                   norep := norepOf leaf }] } } ∧
      (∀ w, w ≠ s.cur.1 → u.wave w = s.wave w) ∧ ∀ b, u.byte b = s.byte b) ∧
    (4 ≤ c.ssts → ∃ u, u.cs = s.cs ∧ u.cw = s.cw ∧ u.cur = s.cur ∧ (∀ w, u.wave w = s.wave w) ∧ (∀ b, u.byte b = s.byte b) ∧
      exec i s = .next (takeTrap u s.cur.1 s.cur.2 (instrTrap .caplim 0 s.cs.pc)))) ∧
  (∀ (s : State) (i : Instr) (t sb : SReg) (off : Int) (m : MemQ) (len : Nat) (c : Capsule),
    sldForm i = some (t, sb, off, m, len) ∨ sstForm i = some (t, sb, off, m, len) → s.inStep c →
    (∀ r ∈ [t, sb], bodyReg r) → windowAddress (s.scalarAddr sb off) = true →
    s.trapsBy (exec i s) (instrTrap .capill (s.scalarAddr sb off) s.cs.pc)))

open Sys2Proof Sys2Proof.Machine in
/-- R162, R163, R166, R167: VLD, VST, VATOM and MRED act on the elements of the active lanes in lane order; with no active
lane they go on. -/
def Obligations.VectorAccessesIssue : Prop :=
  (∀ (s : State) (i : Instr) (t : VReg) (sb : SReg) (vo : VReg) (k : KReg) (off : Int) (m : MemQ) (len : Nat) (loc : Nat → Loc)
      (leaf : Nat → Option Leaf), vldForm i = some (t, sb, vo, k, off, m, len) → s.unlimited → s.plainTeam s.cur.1 →
    masked s k ≠ 0 → (∀ j ∈ activeList (masked s k), (loc j).plain ∧ s.clean (loc j) (bytesOf m.size) ∧
      resolve s s.cur.1 .load (s.elementAddr sb off vo (bytesOf m.size) j) (bytesOf m.size) = .ok (loc j) (leaf j)) →
    let st := accessStages ((activeList (masked s k)).map (s.elementAddr sb off vo (bytesOf m.size)))
    ∃ u, exec i s = .next u ∧ Issued s u len st (.load s.cur.2 s.cs.pc st ((activeList (masked s k)).map fun j =>
      { dest := .lane t (m.size = .b64) j
        value := extendedTo m.sx (bytesOf m.size) (s.dataAt (loc j) (bytesOf m.size))
        addr := s.elementAddr sb off vo (bytesOf m.size) j, poisoned := false })) []) ∧
  (∀ (s : State) (i : Instr) (t : VReg) (sb : SReg) (vo : VReg) (k : KReg) (off : Int) (m : MemQ) (len : Nat) (loc : Nat → Loc)
      (leaf : Nat → Option Leaf), vstForm i = some (t, sb, vo, k, off, m, len) → s.unlimited → masked s k ≠ 0 →
    (∀ j ∈ activeList (masked s k),
      resolve s s.cur.1 .vstore (s.elementAddr sb off vo (bytesOf m.size) j) (bytesOf m.size) = .ok (loc j) (leaf j)) →
    let st := accessStages ((activeList (masked s k)).map (s.elementAddr sb off vo (bytesOf m.size)))
    ∃ u, exec i s = .next u ∧ Issued s u len st s.cw.pend [.store ((activeList (masked s k)).map fun j =>
      { addr := s.elementAddr sb off vo (bytesOf m.size) j, loc := loc j, size := bytesOf m.size, value := s.laneData t (m.size = .b64) j
        norep := norepOf (leaf j) })]) ∧
  (∀ (s : State) (i : Instr) (op : AtomOp) (t : VReg) (sb : SReg) (vo : VReg) (k : KReg) (off : Int) (m : AtomQ) (ret : Bool)
      (loc : Nat → Loc) (leaf : Nat → Option Leaf), vatomForm i = some (op, t, sb, vo, k, off, m, ret) → s.unlimited →
    masked s k ≠ 0 → (∀ j ∈ activeList (masked s k),
      resolve s s.cur.1 .atomic (s.elementAddr sb off vo (atomBytes m.wide) j) (atomBytes m.wide) = .ok (loc j) (leaf j)) →
    let st := accessStages ((activeList (masked s k)).map (s.elementAddr sb off vo (atomBytes m.wide)))
    ∃ u, exec i s = .next u ∧ Issued s u 8 st s.cw.pend [.atomic op ((activeList (masked s k)).map fun j =>
      { loc := loc j, size := atomBytes m.wide, lane := some j, operand := s.laneData t m.wide j
        expected := s.laneData (t + if m.wide then 2 else 1) m.wide j
        dest := if ret then some (.lane t m.wide j) else none, addr := s.elementAddr sb off vo (atomBytes m.wide) j
        norep := norepOf (leaf j) })]) ∧
  (∀ (s : State) (op : AtomOp) (t sb : SReg) (imm : BitVec 16) (m : AtomQ) (loc : Loc) (leaf : Option Leaf), s.unlimited →
    resolve s s.cur.1 .atomic (s.scalarAddr sb imm.toInt) (atomBytes m.wide) = .ok loc leaf →
    ∃ u, exec (.satom op t sb imm m) s = .next u ∧ Issued s u 8 (accessStages [s.scalarAddr sb imm.toInt]) s.cw.pend [.atomic op
      [{ loc := loc, size := atomBytes m.wide, lane := none
         operand := BitVec.ofNat 64 ((s.S t).toNat % 2 ^ (8 * atomBytes m.wide))
         expected := BitVec.ofNat 64 ((s.S (t + 1)).toNat % 2 ^ (8 * atomBytes m.wide)), dest := some (.scalar t)
         addr := s.scalarAddr sb imm.toInt, norep := norepOf leaf }]]) ∧
  (∀ (s : State) (i : Instr) (k : KReg) (len : Nat), s.unlimited → masked s k = 0 →
    ((∃ t sb vo off m, vldForm i = some (t, sb, vo, k, off, m, len)) ∨ (∃ t sb vo off m, vstForm i = some (t, sb, vo, k, off, m, len)) ∨
      (∃ op t sb vo off m ret, vatomForm i = some (op, t, sb, vo, k, off, m, ret) ∧ len = 8)) →
    ∃ u, exec i s = .next u ∧ GoesOn s u s.S s.K s.cw.v (s.slotAt (s.after len)))

open Sys2Proof Sys2Proof.Machine in
/-- R163, R300, R320, R321: a load's data is written to its registers, in order; poisoned data raises POISON in its lanes, or
for the instruction, and writes nothing: the wave is parked with a record, and its launch is rolled back.
R163, R249: as a store leaves the gate its bytes, and no others, change in memory, in the shares and in ABUF; a store to the
system configuration window is then a level-S wave's write of it (R258), and a load from there reads it. The gate holds the
effect no more; a wave whose flows are over, and that has nothing else to finish, then retires (R275). That a launch's matrix
operations and audits go with it in a rollback is the model's choice (log 39). -/
def Obligations.LoadsReturnAndStoresReachMemory : Prop :=
  (∀ (s : State) (w : Nat) (x : SlotId) (pc : Word) (st : List Nat) (rets : List LoadRet),
    (s.wave w).pend = .load x pc st rets →
    ((∀ r ∈ rets, r.poisoned = false) → ∃ t, exec (.loadDataReturn w x) s = .next t ∧
      t.wave w = { returned (s.wave w) rets with pend := .none } ∧ (∀ v, v ≠ w → t.wave v = s.wave v) ∧
      t = { s with waves := t.waves }) ∧
    (∀ d v a, rets = [{ dest := .scalar d, value := v, addr := a, poisoned := true }] → s.teamOf w = none →
      exec (.loadDataReturn w x) s =
        .next (takeTrap (s.setWave w { s.wave w with pend := .none }) w x (instrTrap .poison a pc))) ∧
    (∀ bad, bad = (rets.filter fun r => r.poisoned).map (fun r =>
        (match r.dest with | .lane _ _ i => some i | .scalar _ => none, r.addr)) → bad ≠ [] →
      exec (.loadDataReturn w x) s =
        .next ((takeTrap (s.setWave w { s.wave w with pend := .none }) w x (poisonArgs pc bad)).rollbackOf w)) ∧
    ((∃ r ∈ rets, r.poisoned = true) → ∀ T l, s.teamOf w = some T → s.launchOf T.launch = some l → SnapsOk l → l.vf < 192 →
      l.q < 8 → (∀ v, (s.wave v).capsule = none) → ∃ t, exec (.loadDataReturn w x) s = .next t ∧ RolledBack s t l ∧
        ({ wave := w, ticket := 0, cause := 0x25, nested := (s.wave w).handler, eng := false } : RingRec) ∈
          (t.part (s.vfPart T.vf)).ringWait)) ∧
  ((∀ (s : State) (w : Nat) (x : SlotId) (g : Gated) (es : List StoreElem), gateOf s w x = some g → g.effect = .store es →
    s.plainTeam w → (∀ e ∈ es, e.loc.stored ∧ 0 < e.size) → (s.wave w).noFlow = false →
    ∃ t, exec (.commitGateRelease w x) s = .next t ∧
      t.wave w = { s.wave w with gates := (s.wave w).gates.filter fun g => !(g.x == x) } ∧
      (∀ v, v ≠ w → t.wave v = s.wave v) ∧ (∀ a, t.byte a = storedByte physBase es a (s.byte a)) ∧
      (∀ b o, SMap.get zeros (t.bank b).share o = storedByte (shareBase b) es o (SMap.get zeros (s.bank b).share o)) ∧
      (∀ b, t.bank b = { s.bank b with share := (t.bank b).share }) ∧
      (∀ c o, SMap.get zeros (t.core c).abuf o = storedByte (abufBase c) es o (SMap.get zeros (s.core c).abuf o)) ∧
      (∀ c, t.core c = { s.core c with evcnt := (t.core c).evcnt, abuf := (t.core c).abuf }) ∧ onlyEarly s t ∧
      t = { s with waves := t.waves, banks := t.banks, cores := t.cores, pmem := t.pmem, plain := t.plain, poison := t.poison
                   waiters := t.waiters, launches := t.launches, win := t.win, audits := t.audits, xfers := t.xfers
                   clocks := t.clocks, crossing := t.crossing }) ∧
  (∀ (s : State) (w : Nat) (x : SlotId) (g : Gated), gateOf s w x = some g →
    ∃ v, v = { s with waves := v.waves, cores := v.cores, xfers := v.xfers } ∧ onlyEarly s v ∧
      (∀ c, v.core c = { s.core c with evcnt := (v.core c).evcnt }) ∧ (∀ u, u ≠ w → v.wave u = s.wave u) ∧
      v.wave w = { s.wave w with gates := (s.wave w).gates.filter fun g => !(g.x == x) } ∧
      (∀ e o, g.effect = .store [e] → e.loc = .win o →
        exec (.commitGateRelease w x) s = .next ((winWrite v o .wave e.value).endDying w)) ∧
      (∀ e o, g.effect = .read [e] → e.loc = .win o → e.size = 8 → (s.wave w).noFlow = false →
        exec (.commitGateRelease w x) s = .next (v.setWave w { v.wave w with
          pend := .load x g.pc [] [{ dest := e.dest, value := winRead v o, addr := e.addr, poisoned := false }] }))) ∧
  (∀ (s : State) (w : Nat) (x : SlotId) (g : Gated), (s.wave w).gates = [g] → g.x = x → g.effect = .store [] →
    (s.wave w).resident = true → (s.wave w).noFlow = true → (s.wave w).pend = .none →
    ∃ t, exec (.commitGateRelease w x) s = .next t ∧ (t.wave w).resident = false ∧ ∀ v, v ≠ w → t.wave v = s.wave v))

open Sys2Proof Sys2Proof.Machine in
/-- R167, R168, R169, R249: as an atomic leaves the gate, each of its elements in lane order reads, combines and writes tenant
memory, or a scratchpad, as one event; old values are returned where the instruction returns them.
R296, R300: where an element's data is poisoned, POISON is raised in its lanes, MRED's too, and no element is performed. -/
def Obligations.AtomicsActInLaneOrder : Prop :=
  (∀ (s : State) (w : Nat) (x : SlotId) (g : Gated) (op : AtomOp) (es : List AtomElem), gateOf s w x = some g →
    g.effect = .atomic op es → s.plainTeam w → (s.wave w).noFlow = false →
    (∀ e ∈ es, cellOf e.loc ≠ none ∧ s.clean e.loc e.size ∧
      (e.size = 4 ∨ e.size = 8 ∧ op ≠ .fadd ∧ op ≠ .fmin ∧ op ≠ .fmax) ∧ e.operand.toNat < 2 ^ (8 * e.size) ∧
      e.expected.toNat < 2 ^ (8 * e.size)) →
    let r := atomSequence op (es.map fun e => ((cellOf e.loc).getD 0, e.size, e.operand.toNat, e.expected.toNat)) s.cellAt
    ∃ t, exec (.commitGateRelease w x) s = .next t ∧ (∀ v, v ≠ w → t.wave v = s.wave v) ∧ (∀ k, t.cellAt k = r.1 k) ∧
      (∀ a, 2 ^ 60 ≤ a → t.byte a = s.byte a) ∧ (∀ b, t.bank b = { s.bank b with share := (t.bank b).share }) ∧
      (let rest := (s.wave w).gates.filter fun g => !(g.x == x)
      ((∀ e ∈ es, e.dest = none) → t.wave w = { s.wave w with gates := rest }) ∧
      (es ≠ [] → (∀ e ∈ es, e.dest ≠ none) → ∃ rets,
        t.wave w = { s.wave w with pend := .load x g.pc [] rets, gates := rest } ∧
        rets.map (fun q => q.value.toNat) = r.2 ∧ rets.map (fun q => some q.dest) = es.map (fun e => e.dest) ∧
        ∀ q ∈ rets, q.poisoned = false))) ∧
  (∀ (s : State) (w : Nat) (x : SlotId) (g : Gated) (op : AtomOp) (es : List AtomElem), gateOf s w x = some g →
    g.effect = .atomic op es → (∃ e ∈ es, s.poisonLoc e.loc e.size = true) →
    ∃ v, v = { s with waves := v.waves, cores := v.cores, xfers := v.xfers } ∧ onlyEarly s v ∧
      (∀ c, v.core c = { s.core c with evcnt := (v.core c).evcnt }) ∧ (∀ u, u ≠ w → v.wave u = s.wave u) ∧
      v.wave w = { s.wave w with gates := (s.wave w).gates.filter fun g => !(g.x == x) } ∧
      exec (.commitGateRelease w x) s = .next (((takeTrap v w x (poisonArgs g.pc
        ((es.filter fun e => s.poisonLoc e.loc e.size).map fun e => (e.lane, e.addr)))).rollbackOf w).endDying w))

open Sys2Proof Sys2Proof.Machine in
/-- R37, R39, R40, R42, R45 to R47, R296: where an address leads, by the map, the layout of a share, the stripes of a cluster
window and the walk of the VF's table, and which check fails first. A translation that is held and differs from the walk may
serve instead (R46; log 7); that a stripe whose bank has another owner is outside is log 53.
R163, R277, R284, R296: where elements fault, a scalar access traps with the element's cause and address, and a vector
access in every failing lane, each with its own cause and address; TCAUSE and TADDR are the lowest lane's. No element is
performed.
R47, R48, R302: elements on granules that are not resident park the slot at the instruction, if none faults, with one record
for each granule that no access of the VF waits for yet, and the record dropped where the buffer is full. All this holds of
loads, stores, atomics, MRED and MWAIT. That the record of an atomic says AT alone is the model's choice (log 44). -/
def Obligations.AccessesFaultOrPark : Prop :=
  ((∀ (s : State) (w : Nat) (acc : Acc) (a : Word) (n : Nat), 0 < n → ResolvesBy s w acc a n) ∧
  (∀ (s : State) (v va n : Nat), va < 2 ^ 56 → n ≤ 4 →
    (∀ k, k < n → linksOn (pathEntry s (s.reg (0x1000 + 0x20 * v + 8)).toNat va k)) → WalksBy s v va n) ∧
  (∀ (s : State) (c v va : Nat),
    ((∀ l ∈ s.heldFor c v va, Walk.leaf l = walk s v va) → translate s c v va = walk s v va) ∧
    (translate s c v va = walk s v va ∨ ∃ l ∈ s.heldFor c v va, translate s c v va = .leaf l))) ∧
  ((∀ (s : State) (i : Instr) (F : AccessForm) (c : Cause), scalarAccess s i = some F → s.unlimited →
    resolve s s.cur.1 F.acc (F.addr 0) F.size = .fault c → s.trapsLogged (exec i s) (instrTrap c (F.addr 0) s.cs.pc)) ∧
  (∀ (s : State) (i : Instr) (k : KReg) (F : AccessForm) (fault : Nat → Option Cause) (e : Nat),
    vectorAccess s i = some (k, F) → s.unlimited →
    (∀ j c, fault j = some c ↔ (j ∈ activeList (masked s k) ∧ resolve s s.cur.1 F.acc (F.addr j) F.size = .fault c)) →
    fault e ≠ none → (∀ j, j < e → fault j = none) →
    ∃ mask recs, (∀ j, j < 128 → mask.getLsbD j = (fault j).isSome) ∧
      (∀ j, j < 128 → SMap.get (fun _ => LaneRec.zero) recs j = match fault j with
        | some c => { cause := c.code, step := 0, addr := F.addr j }
        | none => LaneRec.zero) ∧
      s.trapsLogged (exec i s) { cause := (fault e).getD .xlate, addr := F.addr e, n := 0, eng := false
                                 xvres := false, mask := mask, recs := recs, pc := s.cs.pc, chain := s.cs.pc, next := s.cs.pc })) ∧
  (∀ (s : State) (i : Instr) (F : AccessForm) (base gsz : Nat), scalarAccess s i = some F → s.unlimited →
    resolve s s.cur.1 F.acc (F.addr 0) F.size = .park base gsz →
    ∃ u, exec i s = .next u ∧ ParksOn s u F [(base, gsz)]) ∧
  (∀ (s : State) (i : Instr) (k : KReg) (F : AccessForm), vectorAccess s i = some (k, F) → s.unlimited →
    let found := (activeList (masked s k)).filterMap fun j =>
      match resolve s s.cur.1 F.acc (F.addr j) F.size with | .park base gsz => some (base, gsz) | _ => none
    (∀ j ∈ activeList (masked s k), ∀ c, resolve s s.cur.1 F.acc (F.addr j) F.size ≠ .fault c) → found ≠ [] →
    ∃ u, exec i s = .next u ∧ ParksOn s u F found.eraseDups)

open Sys2Proof Sys2Proof.Machine in
/-- R172: MWAIT returns at once a value other than the expected one, else parks and watches the line; woken or timed out, it
reads again and goes on with what it reads. -/
def Obligations.MwaitReadsParksAndReturns : Prop :=
  (∀ (s : State) (i : Instr) (t sb : SReg) (off : Int) (q : WaitQ) (len : Nat) (loc : Loc) (leaf : Option Leaf),
    mwaitForm i = some (t, sb, off, q, len) → s.unlimited → s.plainTeam s.cur.1 → loc.plain → s.clean loc (atomBytes q.wide) →
    resolve s s.cur.1 .load (s.scalarAddr sb off) (atomBytes q.wide) = .ok loc leaf →
    let v := s.dataAt loc (atomBytes q.wide)
    (v ≠ (s.S t).toNat % 2 ^ (8 * atomBytes q.wide) → ∃ u, exec i s = .next u ∧ (∀ r, u.S r = s.withS t (BitVec.ofNat 64 v) r) ∧
      u.cs = s.slotAt (s.after len) ∧ u.cw = { s.cw with sregs := u.cw.sregs, slotA := u.cw.slotA, slotB := u.cw.slotB } ∧
      (∀ w, w ≠ s.cur.1 → u.wave w = s.wave w) ∧ ∀ a, u.byte a = s.byte a) ∧
    (v = (s.S t).toNat % 2 ^ (8 * atomBytes q.wide) → ∃ u limit, exec i s = .next u ∧
      u.cs = { s.cs with park := .mwait t len (s.scalarAddr sb off) q.wide limit, chain := none } ∧
      limit = (if s.cw.mwtimeo = 0 then none else some (s.cycle + s.cw.mwtimeo.toNat)) ∧
      ({ wave := s.cur.1, x := s.cur.2, line := lineOfLoc loc, woken := false, aw := none, found := none } : Waiter) ∈ u.waiters ∧
      (∀ r, u.S r = s.S r) ∧ ∀ a, u.byte a = s.byte a)) ∧
  (∀ (s : State) (i : Instr) (w : Nat) (x : SlotId) (t : SReg) (len : Nat) (a : Word) (wide : Bool) (limit : Option Nat)
      (loc : Loc) (leaf : Option Leaf), i = .mwaitWake w x ∨ i = .mwaitTimeout w x →
    ((s.wave w).slot x).park = .mwait t len a wide limit → s.plainTeam w → loc.plain → s.clean loc (atomBytes wide) →
    resolve s w .load a (atomBytes wide) = .ok loc leaf →
    ∃ u, exec i s = .next u ∧
      (∀ r, (u.wave w).s r = if r = t ∧ r ≠ 0 then BitVec.ofNat 64 (s.dataAt loc (atomBytes wide)) else (s.wave w).s r) ∧
      (u.wave w).slot x = { (s.wave w).slot x with
        park := .none, pc := ((s.wave w).slot x).pc + BitVec.ofNat 64 len, chain := none, xvres := none } ∧
      (∀ v, v ≠ w → u.wave v = s.wave v) ∧ (∀ b, u.byte b = s.byte b) ∧
      ∀ e ∈ u.waiters, ¬ (e.wave = w ∧ e.x = x))

open Sys2Proof Sys2Proof.Machine in
/-- R170, R171: a full or release fence waits for the transfers that its slot has started in the named streams; an acquire
fence goes on.
R44, R173, R333: ICINV of an empty range goes on; another waits, and at its completion no core within the scope, which counts
from the core that issued it, holds a word of a line of the range that it had fetched for the issuing VF. The words of other
lines stay, but for the copies of one physical word, which go together: the model's choice (log 8). -/
def Obligations.FencesAndInvalidationsWait : Prop :=
  (∀ (s : State) (streams : BitVec 16) (sc : Scope), s.unlimited →
    (∀ i, i = Instr.fence streams sc ∨ i = .fenceRel streams sc →
      (transferOpen s streams → exec i s = .next s) ∧
      (¬ transferOpen s streams → ∃ t, exec i s = .next t ∧ GoesOn s t s.S s.K s.cw.v (s.slotAt (s.after 4)))) ∧
    ∃ t, exec (.fenceAcq streams sc) s = .next t ∧ GoesOn s t s.S s.K s.cw.v (s.slotAt (s.after 4))) ∧
  ((∀ (s : State) (sc : Scope) (a b : SReg), s.unlimited →
    (s.S b = 0 → ∃ t, exec (.icinv sc a b) s = .next t ∧ GoesOn s t s.S s.K s.cw.v (s.slotAt (s.after 4))) ∧
    (s.S b ≠ 0 → ∃ t, exec (.icinv sc a b) s = .next t ∧ parksAs s t (.op (.icinv sc (coreOf s.cur.1) (s.S a).toNat (s.S b).toNat)))) ∧
  (∀ (s : State) (w : Nat) (x : SlotId) (sc : Scope) (core lo n : Nat), (s.wave w).frozen = none →
    ((s.wave w).slot x).park = .op (.icinv sc core lo n) → 0 < n →
    ∃ t, exec (.icinvCompletion w x) s = .next t ∧
      (t.wave w).slot x = { (s.wave w).slot x with
        park := .none, pc := ((s.wave w).slot x).pc + 4, chain := none, xvres := none } ∧
      (∀ v, v ≠ w → t.wave v = s.wave v) ∧ t = { s with waves := t.waves, cores := t.cores } ∧
      (∀ c, ¬ scopeReaches sc core c → (t.core c).icache = (s.core c).icache) ∧
      ∀ c pa held, scopeReaches sc core c →
        ((pa, held) ∈ (t.core c).icache ↔ (pa, held) ∈ (s.core c).icache ∧ ∀ e ∈ held, e.2 / 2 ^ 56 = s.vfOf w →
          n < 2 ^ 32 ∧ ¬ (lo / 128 ≤ e.2 % 2 ^ 56 / 128 ∧ e.2 % 2 ^ 56 / 128 ≤ (lo + n - 1) / 128))))

namespace Sys2Proof.Machine

/-! ### The matrix array -/

/-- `n` bytes of a buffer from an offset, little-endian. -/
def leAt (m : SMap Byte) (o n : Nat) : Nat := ((List.range n).map fun i => (SMap.get zeros m (o + i)).toNat * 256 ^ i).sum
/-- A byte as a signed number. -/
def signedByte (v : Nat) : Int := if 128 ≤ v then (v : Int) - 256 else v
/-- R65: the pairs that the array accepts. -/
abbrev allowedPair (a w : ArrayFmt) : Prop :=
  (a = .f16 ∨ a = .bf16) ∧ (w = .f16 ∨ w = .bf16) ∨
  (a = .e4m3 ∨ a = .e5m2 ∨ a = .q4) ∧ (w = .e4m3 ∨ w = .e5m2 ∨ w = .q4) ∨ a = .i8 ∧ w = .i8
/-- R180: the tile depth. -/
def tileDepth (w : ArrayFmt) : Nat := if w = .q4 then 256 else 128
/-- R188: bytes of a weight tile. -/
def weightBytes : ArrayFmt → Nat
  | .f16 | .bf16 => 32768
  | .q4 => 17408
  | _ => 16384
/-- R189: bytes of M rows of K elements. -/
def activationBytes (f : ArrayFmt) (K M : Nat) : Nat :=
  match f with
  | .f16 | .bf16 => 2 * K * M
  | .q4 => K / 2 * M + K / 32 * M
  | _ => K * M
/-- R188: weight (k, j) of a latched tile. -/
def weightAt (W : Weights) (k j : Nat) : Num :=
  match W.fmt with
  | .f16 => FFmt.f16.value (leAt W.bytes (2 * (128 * j + k)) 2)
  | .bf16 => FFmt.bf16.value (leAt W.bytes (2 * (128 * j + k)) 2)
  | .e4m3 => FFmt.e4m3.value (leAt W.bytes (128 * j + k) 1)
  | .e5m2 => FFmt.e5m2.value (leAt W.bytes (128 * j + k) 1)
  | .i8 => Num.ofInt false (signedByte (leAt W.bytes (128 * j + k) 1)) 0
  | .q4 => q4Value (leAt W.bytes (16384 + 8 * j + k / 32) 1) (leAt W.bytes (128 * j + k / 2) 1 / 16 ^ (k % 2) % 16)
/-- R189: activation (m, k) of M rows of K elements. -/
def activationAt (f : ArrayFmt) (b : SMap Byte) (K M m k : Nat) : Num :=
  match f with
  | .f16 => FFmt.f16.value (leAt b (2 * K * m + 2 * k) 2)
  | .bf16 => FFmt.bf16.value (leAt b (2 * K * m + 2 * k) 2)
  | .e4m3 => FFmt.e4m3.value (leAt b (K * m + k) 1)
  | .e5m2 => FFmt.e5m2.value (leAt b (K * m + k) 1)
  | .i8 => Num.ofInt false (signedByte (leAt b (K * m + k) 1)) 0
  | .q4 => q4Value (leAt b (K / 2 * M + K / 32 * m + k / 32) 1) (leAt b (K / 2 * m + k / 2) 1 / 16 ^ (k % 2) % 16)
/-- R66, R67: the result for row m and column j of an operation, from a starting value. -/
def arrayResult (o : MatrixOp) (m j : Nat) (start : W32) : W32 :=
  let K := tileDepth o.weights.fmt
  let G := if o.fmt = .f16 ∨ o.fmt = .bf16 then 8 else 32
  if o.fmt = .i8 then
    BitVec.ofInt 32 (start.toInt + ((List.range K).map fun k =>
      signedByte (leAt o.acts (K * m + k) 1) * signedByte (leAt o.weights.bytes (128 * j + k) 1)).sum)
  else
    (List.range (K / G)).foldl (fun acc g =>
      let p := (List.range G).foldl (fun p k => Num.add .rne p
        (Num.mul (activationAt o.fmt o.acts K o.rows m (G * g + k)) (weightAt o.weights (G * g + k) j))) (Num.fin false 0 0)
      pf (Num.add .rne (f32 acc) (f32 (pf p)))) start

/-- R43: where element (m, j) of a tile of a bank lies in the core's CBUF, and what it holds. -/
def tilePlace (s : State) (b : Nat) (t : Tile) (m j : Nat) : Nat := s.bufBase b + 0x10000 * t.toNat + 512 * m + 4 * j
def tileWord (s : State) (b : Nat) (t : Tile) (m j : Nat) : W32 :=
  BitVec.ofNat 32 (leAt (s.core (coreOfBank b)).cbuf (tilePlace s b t m j) 4)
/-- Of a core's CBUF, `n` rows of a tile from row `m` have become `v`. -/
def rowsBecome (s t : State) (b : Nat) (c : Tile) (m n : Nat) (v : Nat → Nat → W32) : Prop :=
  (∀ q j, q < n → j < 128 → BitVec.ofNat 32 (leAt (t.core (coreOfBank b)).cbuf (tilePlace s b c (m + q) j) 4) = v q j) ∧
  ∀ o, ¬ (tilePlace s b c m 0 ≤ o ∧ o < tilePlace s b c (m + n) 0) →
    SMap.get zeros (t.core (coreOfBank b)).cbuf o = SMap.get zeros (s.core (coreOfBank b)).cbuf o
/-- A bank has a tile (R43). -/
abbrev tileThere (s : State) (b : Nat) (c : Tile) : Prop := 0x10000 * (c.toNat + 1) ≤ s.bufSize b
/-- R183: an operation of the matrix order has the tile's bytes. -/
def tileHeld (s : State) (b : Nat) (c : Tile) : Prop :=
  ∃ o ∈ (s.core (coreOfBank b)).queue, ∃ u, o.target = .inr u ∧ tilePlace s o.bank u 0 0 = tilePlace s b c 0 0
/-- R182: no chained command of the issuing wave has still to enter this core's matrix order. -/
def nothingChained (s : State) : Prop := ∀ x ∈ s.xfers, x.wave = s.cur.1 → bankOf s.cur.1 ∉ x.chainDue
/-- R320: none of `n` bytes of a buffer is poisoned. -/
def unmarked (s : State) (l : Nat → Loc) (o n : Nat) : Prop := ∀ e ∈ s.poison, ¬ ((l o).markKey ≤ e.1 ∧ e.1 < (l o).markKey + n)
/-- An operation as it enters the matrix order (R181, R184, R185): the bank's weight set and the activation bytes as they
stand. -/
structure Entered (s : State) (o : MatrixOp) (target : (Nat × VReg) ⊕ Tile) (f : ArrayFmt) (acc : Bool) (index rows : Nat) :
    Prop where
  at_ : o.wave = s.cur.1 ∧ o.launch = s.launchKey s.cur.1 ∧ o.bank = bankOf s.cur.1 ∧ o.target = target ∧ o.fmt = f ∧ o.acc = acc ∧ o.rows = rows ∧ o.done = 0
  weights : o.weights = (s.bank (bankOf s.cur.1)).weights
  acts : ∀ i, i < activationBytes f (tileDepth o.weights.fmt) rows → SMap.get zeros o.acts i =
    SMap.get zeros (s.core (coreOf s.cur.1)).abuf (s.bufBase (bankOf s.cur.1) + 64 * index + i)
  frame : o.pc = s.cs.pc ∧ o.sys = s.cw.system ∧ o.failed = false

/-- Of the poison marks, those of the `n` bytes from a location are cleared, and no other has changed (R300, R320). -/
def marksWiped (s t : State) (l : Loc) (n : Nat) : Prop :=
  ∀ k, SMap.get (fun _ => false) t.poison k =
    if l.markKey ≤ k ∧ k < l.markKey + n then false else SMap.get (fun _ => false) s.poison k
/-- R320: the instruction would read a poisoned byte of a buffer: MACHINE, and the launch is rolled back. -/
def machineTaken (s : State) (i : Instr) : Prop :=
  ∃ u, OnlyWave s u ∧ u.cur = s.cur ∧ u.cw = s.cw ∧
    exec i s = .next (u.consume s.cur.1 s.cur.2 (instrTrap .machine 0 s.cs.pc))
/-- The own core has changed in its CBUF or its matrix order alone, and only its own core has. -/
def ownCoreOnly (s t : State) : Prop :=
  (∀ c, c ≠ coreOf s.cur.1 → t.core c = s.core c) ∧ t.core (coreOf s.cur.1) = { s.core (coreOf s.cur.1) with
    evcnt := (t.core (coreOf s.cur.1)).evcnt, cbuf := (t.core (coreOf s.cur.1)).cbuf, queue := (t.core (coreOf s.cur.1)).queue }

end Sys2Proof.Machine

open Sys2Proof Sys2Proof.Machine in
/-- R181, R184, R185, R188 to R191: WLOAD latches a weight tile from WBUF; MMA and MMAD join the matrix order with the bank's
weight set and their activation rows as they stand, and MMAD's wave then waits. A chained command to come (R182) or a held
tile (R183) lets them wait; a pair that R65 forbids is ILL (R297); a poisoned operand is MACHINE (R320), rows of a tile that MMA adds
to among them (log 32). -/
def Obligations.MatrixOperationsEnterTheOrder : Prop :=
  ∀ (s : State) (f : ArrayFmt) (a : SReg), s.unlimited → (f = .q4 → s.hasFeature 0) →
    let b := bankOf s.cur.1
    let core := coreOf s.cur.1
    let size := s.bufSize b
    let v := (s.S a).toNat
    let W := (s.bank b).weights
    let need := fun M => 64 * v + activationBytes f (tileDepth W.fmt) M
    (s.chainPending s.cur.1 = true → ∀ acc t r r' d, ∀ i ∈ [Instr.wload f a, .mma f acc t a r, .mmad f r' d a],
      exec i s = .next s) ∧
    (nothingChained s →
      (v < 2 ^ 16 → 64 * v + weightBytes f ≤ size → unmarked s (.wbuf core) (s.bufBase b + 64 * v) (weightBytes f) →
        ∃ t, exec (.wload f a) s = .next t ∧ GoesOnInBank s t s.S ∧
          t.bank b = { s.bank b with weights := (t.bank b).weights } ∧ (t.bank b).weights.fmt = f ∧
          ∀ i, i < weightBytes f →
            SMap.get zeros (t.bank b).weights.bytes i = SMap.get zeros (s.core core).wbuf (s.bufBase b + 64 * v + i)) ∧
      (v < 2 ^ 16 → 64 * v + weightBytes f ≤ size →
        s.marksIn (Loc.wbuf core (s.bufBase b + 64 * v)).markKey (weightBytes f) ≠ [] → machineTaken s (.wload f a)) ∧
      (2 ^ 16 ≤ v ∨ size < 64 * v + weightBytes f → s.trapsBy (exec (.wload f a) s) (instrTrap .bufbound 0 s.cs.pc)) ∧
      (∀ (acc : Bool) (c : Tile) (r : SReg), let M := (s.S r).toNat + 1
        (v < 2 ^ 16 → M ≤ 128 → tileThere s b c → need M ≤ size → allowedPair f W.fmt → ¬ tileHeld s b c →
          unmarked s (.abuf core) (s.bufBase b + 64 * v) (activationBytes f (tileDepth W.fmt) M) →
          (acc = true → unmarked s (.cbuf core) (tilePlace s b c 0 0) (512 * M)) →
          ∃ t u o, exec (.mma f acc c a r) s = .next t ∧ GoesOn s u s.S s.K s.cw.v (s.slotAt (s.after 4)) ∧
            t = { u with cores := t.cores } ∧ ownCoreOnly s t ∧ Entered s o (.inr c) f acc v M ∧
            (t.core core).queue = (s.core core).queue ++ [o] ∧ (t.core core).cbuf = (s.core core).cbuf) ∧
        (2 ^ 16 ≤ v ∨ 128 < M ∨ ¬ tileThere s b c ∨ size < need M →
          s.trapsBy (exec (.mma f acc c a r) s) (instrTrap .bufbound 0 s.cs.pc)) ∧
        (v < 2 ^ 16 → M ≤ 128 → tileThere s b c → need M ≤ size →
          (s.marksIn (Loc.abuf core (s.bufBase b + 64 * v)).markKey (activationBytes f (tileDepth W.fmt) M) ≠ [] ∨
            (acc = true ∧ s.marksIn (Loc.cbuf core (tilePlace s b c 0 0)).markKey (512 * M) ≠ [])) →
          machineTaken s (.mma f acc c a r)) ∧
        (v < 2 ^ 16 → M ≤ 128 → tileThere s b c → need M ≤ size →
          unmarked s (.abuf core) (s.bufBase b + 64 * v) (activationBytes f (tileDepth W.fmt) M) →
          (acc = true → unmarked s (.cbuf core) (tilePlace s b c 0 0) (512 * M)) →
          (tileHeld s b c → exec (.mma f acc c a r) s = .next s) ∧
          (¬ tileHeld s b c → ¬ allowedPair f W.fmt →
            s.trapsBy (exec (.mma f acc c a r) s) (instrTrap .ill 0 s.cs.pc)))) ∧
      (∀ (r : BitVec 2) (d : VReg), let M := r.toNat + 1
        (v < 2 ^ 16 → need M ≤ size → allowedPair f W.fmt →
          unmarked s (.abuf core) (s.bufBase b + 64 * v) (activationBytes f (tileDepth W.fmt) M) →
          ∃ t u o, exec (.mmad f r d a) s = .next t ∧ Issued s u 4 [] (.mmad s.cur.2) [] ∧
            t = { u with cores := t.cores } ∧ ownCoreOnly s t ∧ Entered s o (.inl (s.cur.1, d)) f false v M ∧
            (t.core core).queue = (s.core core).queue ++ [o] ∧ (t.core core).cbuf = (s.core core).cbuf) ∧
        (v < 2 ^ 16 → need M ≤ size → ¬ allowedPair f W.fmt →
          unmarked s (.abuf core) (s.bufBase b + 64 * v) (activationBytes f (tileDepth W.fmt) M) →
          s.trapsBy (exec (.mmad f r d a) s) (instrTrap .ill 0 s.cs.pc)) ∧
        (v < 2 ^ 16 → need M ≤ size →
          s.marksIn (Loc.abuf core (s.bufBase b + 64 * v)).markKey (activationBytes f (tileDepth W.fmt) M) ≠ [] →
          machineTaken s (.mmad f r d a)) ∧
        (2 ^ 16 ≤ v ∨ size < need M → s.trapsBy (exec (.mmad f r d a) s) (instrTrap .bufbound 0 s.cs.pc))))

open Sys2Proof Sys2Proof.Machine in
/-- R183, R187, R192, R193: MDRAIN and MFILL move tile rows in all 128 lanes, CZERO makes a tile +0, CWAIT goes on; each waits
while the tile is held, and is BUFBOUND for rows past 127 or a tile that the bank does not have. What the wave's transfers
have still to read of the tile they keep as it was (R200). Rows written over poisoned bytes clear the marks, and MDRAIN of poisoned
ones raises MACHINE (R320; log 32). -/
def Obligations.TileInstructionsMoveRows : Prop :=
  ∀ (s : State) (c : Tile) (r : BitVec 2) (d : VReg) (a : SReg), s.unlimited → nothingChained s →
    let b := bankOf s.cur.1
    let m := (s.S a).toNat
    let n := r.toNat + 1
    let core := coreOf s.cur.1
    (tileThere s b c → ¬ tileHeld s b c →
      (m + n ≤ 128 →
        (s.marksIn (Loc.cbuf core (tilePlace s b c m 0)).markKey (512 * n) ≠ [] → machineTaken s (.mdrain r d c a)) ∧
        (unmarked s (.cbuf core) (tilePlace s b c m 0) (512 * n) → ∃ t, exec (.mdrain r d c a) s = .next t ∧ GoesOn s t s.S s.K
          (fun q j => if d.toNat ≤ q ∧ q < d.toNat + n then tileWord s b c (m + (q - d.toNat)) j else s.cw.v q j)
          (s.slotAt (s.after 4))) ∧
        (∃ t u, exec (.mfill r c d a) s = .next t ∧ GoesOn s u s.S s.K s.cw.v (s.slotAt (s.after 4)) ∧
          t = { u with cores := t.cores, xfers := t.xfers, poison := t.poison } ∧ onlyEarly s t ∧ ownCoreOnly s t ∧
          (t.core core).queue = (s.core core).queue ∧ marksWiped s t (.cbuf core (tilePlace s b c m 0)) (512 * n) ∧
          rowsBecome s t b c m n fun q j => s.cw.v (d.toNat + q) j)) ∧
      (∃ t u, exec (.czero c) s = .next t ∧ GoesOn s u s.S s.K s.cw.v (s.slotAt (s.after 4)) ∧
        t = { u with cores := t.cores, xfers := t.xfers, poison := t.poison } ∧ onlyEarly s t ∧ ownCoreOnly s t ∧
        (t.core core).queue = (s.core core).queue ∧ marksWiped s t (.cbuf core (tilePlace s b c 0 0)) (512 * 128) ∧
        rowsBecome s t b c 0 128 fun _ _ => 0) ∧
      (∃ t, exec (.cwait c) s = .next t ∧ GoesOn s t s.S s.K s.cw.v (s.slotAt (s.after 4)))) ∧
    (tileThere s b c → tileHeld s b c → (∀ i ∈ [Instr.czero c, .cwait c], exec i s = .next s) ∧
      (m + n ≤ 128 → ∀ i ∈ [Instr.mdrain r d c a, .mfill r c d a], exec i s = .next s)) ∧
    (128 < m + n → ∀ i ∈ [Instr.mdrain r d c a, .mfill r c d a], s.trapsBy (exec i s) (instrTrap .bufbound 0 s.cs.pc)) ∧
    (¬ tileThere s b c → ∀ i ∈ [Instr.mdrain r d c a, .mfill r c d a, .czero c, .cwait c],
      s.trapsBy (exec i s) (instrTrap .bufbound 0 s.cs.pc))

open Sys2Proof Sys2Proof.Machine in
/-- R66, R67, R186, R190, R191: a row leaves the draining edge as the array's result for it, into its tile row, or into its
vector register while the wave waits; the operation retires behind its last row and lets the wave go on, or retire if its flows
are over (R275). -/
def Obligations.ArrayRowsAreTheResults : Prop :=
  ∀ (s : State) (core : Nat) (o : MatrixOp) (rest : List MatrixOp), (s.core core).queue = o :: rest →
    (o.done < o.rows → o.failed = false → allowedPair o.fmt o.weights.fmt →
      ∃ t, exec (.arrayRowDrain core) s = .next t ∧
        t = { s with
          waves := t.waves, cores := t.cores, stages := [{ core := core, stage := 6, pc := o.pc }], poison := t.poison } ∧
        (t.core core).queue = { o with done := o.done + 1 } :: rest ∧
        (∀ k, k ≠ core → k ≠ coreOfBank o.bank → t.core k = s.core k) ∧
        t.core core = { s.core core with
          evcnt := (t.core core).evcnt, cbuf := (t.core core).cbuf, queue := (t.core core).queue } ∧
        (∀ w d, o.target = .inl (w, d) → (s.wave w).waitsMmad = false → ∀ u, t.wave u = s.wave u) ∧
        (∀ c, o.target = .inr c → coreOfBank o.bank = core → (∀ w, t.wave w = s.wave w) ∧
          marksWiped s t (.cbuf core (tilePlace s o.bank c o.done 0)) 512 ∧
          rowsBecome s t o.bank c o.done 1 fun _ j =>
            arrayResult o o.done j (if o.acc then tileWord s o.bank c o.done j else 0)) ∧
        (∀ w d x, o.target = .inl (w, d) → (s.wave w).resident = true → (s.wave w).pend = .mmad x →
          (t.core core).cbuf = (s.core core).cbuf ∧ t.poison = s.poison ∧ (∀ u, u ≠ w → t.wave u = s.wave u) ∧
          t.wave w = { s.wave w with vregs := (t.wave w).vregs } ∧
          ∀ q j, j < 128 → (t.wave w).v q j = if q = d.toNat + o.done then arrayResult o o.done j 0 else (s.wave w).v q j)) ∧
    (o.rows ≤ o.done → (∀ x ∈ s.xfers, x.cbufWait = 0) →
      (∀ w d, o.target = .inl (w, d) → (s.wave w).waitsMmad = true → (s.wave w).noFlow = true → (s.wave w).gates = [] →
        ∃ t, exec (.matrixOpRetire core) s = .next t ∧ (t.wave w).resident = false ∧ ∀ u, u ≠ w → t.wave u = s.wave u) ∧
      ((∀ w d, o.target = .inl (w, d) → (s.wave w).noFlow = false) → ∃ t, exec (.matrixOpRetire core) s = .next t ∧
      t = { s with waves := t.waves, cores := t.cores } ∧ t.core core = { s.core core with queue := rest } ∧
      (∀ k, k ≠ core → t.core k = s.core k) ∧
      ∀ u, t.wave u = match o.target with
        | .inl (w, _) => if u = w ∧ (s.wave w).waitsMmad = true
            then { s.wave u with pend := .none } else s.wave u
        | .inr _ => s.wave u))

namespace Sys2Proof.Machine

/-! ### Copies and messages -/

/-- A byte of the issuing wave's share, and of a bank's. -/
def shareByte (s : State) (b o : Nat) : Byte := SMap.get zeros (s.bank b).share o
/-- R194: the record at an offset of a bank's share. -/
def recordAt (s : State) (b o : Nat) : BufRec :=
  let v := leAt (s.bank b).share o 32
  { base := BitVec.ofNat 64 v, extent := v / 2 ^ 64 % 2 ^ 32, stride1 := v / 2 ^ 96 % 2 ^ 32, stride2 := v / 2 ^ 128 % 2 ^ 32
    count0 := v / 2 ^ 160 % 2 ^ 16, count1 := v / 2 ^ 176 % 2 ^ 16, count2 := v / 2 ^ 192 % 2 ^ 16, fmt := v / 2 ^ 208 % 2 ^ 8
    bounds := v / 2 ^ 216 % 4, reserved := v / 2 ^ 218 % 2 ^ 38 }
/-- R195: the size of an element that is no q4 code. -/
def elementBytes (r : BufRec) : Nat :=
  if r.fmt = 0x00 ∨ r.fmt = 0x05 ∨ r.fmt = 0x06 then 4
  else if r.fmt = 0x01 ∨ r.fmt = 0x02 ∨ r.fmt = 0x07 ∨ r.fmt = 0x08 then 2 else 1
abbrev plainFormat (r : BufRec) : Prop := r.fmt ≤ 0x0A ∨ r.fmt = 0x0F
def elementCount (r : BufRec) : Nat := r.count0 * r.count1 * r.count2
/-- R195: the offset of element e from BASE, none for one that clamping drops. -/
def elementAt (r : BufRec) (e : Nat) : Option Nat :=
  let o := e % r.count0 * elementBytes r + e / r.count0 % r.count1 * r.stride1 + e / (r.count0 * r.count1) * r.stride2
  if o + elementBytes r ≤ r.extent then some o
  else if r.bounds = 1 then none else if r.bounds = 2 then some (o % r.extent) else some o

/-- R305, check 1: what is wrong with a record's address, and with an arrival word's. -/
def recordFault (T : Team) (a : Nat) : Option Cause :=
  if a % 32 ≠ 0 then some .malign
  else if ¬ (0xFF00000000000000 ≤ a ∧ a < 0xFF10000000000000) then some .prot
  else if T.spSize < a - 0xFF00000000000000 + 32 then some .spbound else none
open Classical in
noncomputable def wordFault (s : State) (T : Team) (r : SReg) (a : Nat) : Option Cause :=
  if r = 0 then none
  else if a % 16 ≠ 0 then some .malign
  else if ¬ (0xFF00000000000000 ≤ a ∧ a < 0xFF20000000000000) then some .prot
  else if a < 0xFF10000000000000 then (if a - 0xFF00000000000000 < T.spSize then none else some .spbound)
  else if stripeOpen s T (a - 0xFF10000000000000) then none else some .spbound
/-- R305, check 2, of a record that is not q4. -/
def layoutFault (r : BufRec) : Option Cause :=
  if plainFormat r ∧ (r.base.toNat % elementBytes r ≠ 0 ∨ r.stride1 % elementBytes r ≠ 0 ∨ r.stride2 % elementBytes r ≠ 0) then
    some .malign
  else if r.reserved ≠ 0 ∨ r.bounds = 3 ∨ 0x10 ≤ r.fmt ∨
      r.bounds = 2 ∧ (r.extent = 0 ∨ plainFormat r ∧ r.extent % elementBytes r ≠ 0) then some .bufbound
  else none

/-- R305, check 3, of records whose formats are not q4. -/
def pairUnlike (kind : XferKind) (D R : BufRec) : Prop :=
  elementCount D ≠ elementCount R ∨ (kind = .copy ∧ D.fmt ≠ R.fmt) ∨
    (kind = .convert ∧ D.fmt ≠ R.fmt ∧ (D.fmt = 0x0F ∨ R.fmt = 0x0F))
/-- R197: the range of an address: tenant memory, and the spaces from 0xFE00… on by their top twelve bits. -/
def inSpace (a : Word) (top : Nat) : Prop := a.toNat / 2 ^ 52 = top
def inTenant (a : Word) : Prop := a.toNat < 2 ^ 56
/-- R197: a scratchpad window or a typed buffer. -/
def innerPlace (a : Word) : Prop := inSpace a 0xFF0 ∨ inSpace a 0xFF1 ∨ inSpace a 0xFE0 ∨ inSpace a 0xFE1 ∨ inSpace a 0xFE2
def bufferPlace (a : Word) : Prop := inSpace a 0xFE0 ∨ inSpace a 0xFE1 ∨ inSpace a 0xFE2
/-- R197: an element of the record lies on a CONF page. -/
def onConf (s : State) (r : BufRec) : Prop :=
  inTenant r.base ∧ ∃ e o l, e < elementCount r ∧ elementAt r e = some o ∧
    translate s (clusterOf (coreOf s.cur.1)) (s.vfOf s.cur.1) (r.base.toNat + o) = .leaf l ∧ l.conf = true
/-- R305, check 4, but for the rings of bounce channels (R310): the destination's refusal, then the source's. -/
def destBarred (D : BufRec) (mc : BitVec 8) : Prop :=
  inSpace D.base 0xFE2 ∨ inSpace D.base 0xFFF ∨
    (mc ≠ 0 ∧ ¬ (inSpace D.base 0xFF0 ∨ inSpace D.base 0xFE0 ∨ inSpace D.base 0xFE1))
def sourceBarred (R : BufRec) : Prop := inSpace R.base 0xFE0 ∨ inSpace R.base 0xFE1 ∨ inSpace R.base 0xFFF
/-- R305, check 5: element e of a record of a plain format lies out of bounds, or beyond `room` bytes of a typed buffer. -/
def outside (r : BufRec) (room : Nat) (e o : Nat) : Prop :=
  elementAt r e = some o ∧ ((r.bounds = 0 ∧ r.extent < o + elementBytes r) ∨
    (bufferPlace r.base ∧ room < r.base.toNat % 2 ^ 52 + o + elementBytes r))
/-- The first such element is e, at the offset o. -/
def firstOutside (r : BufRec) (room e o : Nat) : Prop :=
  e < elementCount r ∧ outside r room e o ∧ ∀ f p, f < e → ¬ outside r room f p
def noneOutside (r : BufRec) (room : Nat) : Prop := ∀ e o, e < elementCount r → ¬ outside r room e o

/-- CPY and CPY.CVT: kind, destination, source, arrival word, chain register, stream, multicast mask. -/
def cpyForm : Instr → Option (XferKind × SReg × SReg × SReg × SReg × BitVec 4 × BitVec 8)
  | .cpy d r w c st _ m => some (.copy, d, r, w, c, st, m)
  | .cpyCvt d r w c st _ m => some (.convert, d, r, w, c, st, m)
  | _ => none
/-- R198: the banks that receive. -/
def reachedBanks (s : State) (T : Team) (mc : BitVec 8) : List Nat :=
  if mc = 0 then [bankOf s.cur.1]
  else (List.range T.setBanks.length).filterMap fun j => if mc.getLsbD j then T.setBanks[j]? else none
/-- The smallest part that banks see of a typed buffer (R42). -/
def smallestPart (s : State) (bs : List Nat) : Nat := bs.foldl (fun m b => Nat.min m (s.bufSize b)) 0x40000
/-- R197: of the transfers that wait at issue in the issuing wave's bank, those that still stand there, in their order. -/
def waitingTransfers (s : State) : List (Nat × SlotId × Word) :=
  (s.bank (bankOf s.cur.1)).waitQ.filter fun e =>
    let W := s.wave e.1
    W.resident && W.service.isNone && (W.slot e.2.1).live && (W.slot e.2.1).pc == e.2.2
/-- A transfer of the issuing slot has begun: the slot goes on, and no byte of memory or of a scratchpad has changed. -/
structure TransferStarted (s t : State) (x : Xfer) : Prop where
  mid : ∃ u, OnlyWave s u ∧ t = { u with
    waves := t.waves, banks := t.banks, tlb := t.tlb, clocks := t.clocks, crossing := t.crossing, fbufs := t.fbufs
    win := t.win, nextKey := s.nextKey + 1, xfers := s.xfers ++ [x] }
  banks : ∀ b, t.bank b = { s.bank b with waitQ := (t.bank b).waitQ }
  waves : ∀ w, w ≠ s.cur.1 → t.wave w = s.wave w
  slot : t.cs = s.slotAt (s.after 8)
  other : t.cw.slot (otherSlot s.cur.2) = s.cw.slot (otherSlot s.cur.2)
  rest : t.cw = { s.cw with slotA := t.cw.slotA, slotB := t.cw.slotB }
  who : x.key = s.nextKey ∧ x.wave = s.cur.1 ∧ x.x = s.cur.2 ∧ x.mask = s.cs.mask
/-- The elements of a record in the own team window, as a transfer that has read them holds them: all of them lie in the
window and are unpoisoned. -/
structure SourceRead (s : State) (T : Team) (R : BufRec) : Prop where
  plain : plainFormat R
  window : 0xFF00000000000000 ≤ R.base.toNat ∧ R.base.toNat < 0xFF10000000000000
  clean : unmarked s (.share (bankOf s.cur.1)) 0 T.spSize
  within : ∀ e o, e < elementCount R → elementAt R e = some o →
    R.base.toNat - 0xFF00000000000000 + o + elementBytes R ≤ T.spSize
def sourceData (s : State) (R : BufRec) : List (List (Byte × Bool)) :=
  (List.range (elementCount R)).map fun e => (List.range (elementBytes R)).map fun j =>
    match elementAt R e with
    | some o => (shareByte s (bankOf s.cur.1) (R.base.toNat - 0xFF00000000000000 + o + j), false)
    | none => (0, false)
/-- The issuing instruction traps; it has left the queue of its bank's waiting transfers. -/
def State.trapsInBank (s : State) (o : Out) (a : TrapArgs) : Prop :=
  ∃ v u, OnlyWave s v ∧ u = { v with banks := u.banks } ∧ (∀ b, u.bank b = { s.bank b with waitQ := (u.bank b).waitQ }) ∧
    u.cur = s.cur ∧ u.cw = s.cw ∧ o = .next (takeTrap u s.cur.1 s.cur.2 a)

/-- R306: a flow handle that the issuing wave may use. -/
def flowGood (s : State) (h : Nat) : Prop :=
  h < 4096 ∧ s.regBits (0x100000 + 0x20000 * s.partOf s.cur.1 + 0x20 * h) 0 1 = 1 ∧
    s.regBits (0x100000 + 0x20000 * s.partOf s.cur.1 + 0x20 * h) 8 8 = s.vfOf s.cur.1
/-- NSEND and NPOST: flow, record, arrival word, stream, and whether it sends. -/
def netForm : Instr → Option (SReg × SReg × SReg × BitVec 4 × Bool)
  | .nsend f r w st => some (f, r, w, st, true)
  | .npost f r w st => some (f, r, w, st, false)
  | _ => none
/-- R305, R306: the checks of NET behind check 1 pass. -/
def netPasses (s : State) (send : Bool) (h : Nat) (ra : Word) (r : BufRec) : Prop :=
  flowGood s h ∧ (send = true → r.bytes ≤ 0x1000000) ∧ confTouch s s.cur.1 r = false ∧
    (send = false → (spaceOf r.base).typed = false) ∧ r.check2 ra = none ∧ r.sparse = false ∧
    (if send then (spaceOf r.base).noSource else (spaceOf r.base).noDest) = false ∧
    r.check5 (roomOf s [bankOf s.cur.1] r) = none

/-- The store that puts an element of a transfer in place. -/
def landingStore (x : Xfer) (l : Loc) (i : Nat) : StoreElem :=
  { addr := x.dst.base, loc := l, size := elementBytes x.dst, norep := false
    value := BitVec.ofNat 64 (((x.data.getD i []).zipIdx.map fun e => e.1.1.toNat * 256 ^ e.2).sum) }
/-- A transfer to one receiver whose elements have been read whole and unpoisoned, of which `e` have landed. -/
structure Landing1 (s : State) (key : Nat) (x : Xfer) (b e : Nat) : Prop where
  found : s.xferBy key = some x
  clear : x.fault = none ∧ x.granule = none ∧ x.cbufWait = 0 ∧ x.team.rerun = false ∧ x.unmapped = []
  kind : x.kind = .copy ∨ x.kind = .recv
  read : x.data.length = x.units
  state : x.receivers = [b] ∧ x.landed = [e] ∧ x.chain = none ∧ x.chainDue = []
  plain : plainFormat x.dst ∧ plainFormat x.src
  data : ∀ u ∈ x.data, u.length = elementBytes x.dst ∧ ∀ p ∈ u, p.2 = false
  live : s.engLive x b = true
/-- R199: the chained commands' words. -/
def fmtCode : ArrayFmt → Nat
  | .f16 => 0 | .bf16 => 1 | .e4m3 => 2 | .e5m2 => 3 | .i8 => 4 | .q4 => 5
def wloadWord (f : ArrayFmt) (i : Nat) : Word := BitVec.ofNat 64 (0xC4 + fmtCode f * 2 ^ 22 + i * 2 ^ 32)
def mmaWord (f : ArrayFmt) (acc : Bool) (t : Tile) (i m : Nat) : Word :=
  BitVec.ofNat 64 (0x100000C4 + t.toNat * 2 ^ 8 + fmtCode f * 2 ^ 22 + (if acc then 2 ^ 26 else 0) + i * 2 ^ 32 + m * 2 ^ 48)
def czeroWord (t : Tile) : Word := BitVec.ofNat 64 (0x500000C4 + t.toNat * 2 ^ 8)
/-- A transfer with a chained command that may enter at bank `b`, receiver `r`: every byte has landed there. -/
structure ChainDue (s : State) (key : Nat) (x : Xfer) (r b : Nat) : Prop where
  found : s.xferBy key = some x
  at_ : x.receivers[r]? = some b ∧ (∀ q, q < r → x.receivers[q]? ≠ some b) ∧ b ∈ x.chainDue
  landed : x.units ≤ x.data.length ∧ x.units ≤ x.landed.getD r 0
  live : s.engLive x b = true
/-- The command has entered or has been discarded: the transfer waits for it no more. -/
def chainGone (s t : State) (x : Xfer) (r b : Nat) : Prop :=
  (t.xfers.map fun y => { y with early := [] }) = s.xfers.map fun y => if y.key = x.key then
    { x with chainDue := x.chainDue.filter fun c => c ≠ b, got := x.got.set r 0, early := [] } else { y with early := [] }
/-- A chained command enters now: its bounds, its pair and its tile allow it, and it reads no poisoned byte. -/
def commandGoes (s : State) (x : Xfer) (b : Nat) : Prop :=
  let core := coreOfBank b
  let W := (s.bank b).weights
  (∃ f i, i < 2 ^ 16 ∧ x.chain = some (wloadWord f i) ∧ 64 * i + weightBytes f ≤ s.bufSize b ∧
    unmarked s (.wbuf core) (s.bufBase b + 64 * i) (weightBytes f)) ∨
  (∃ f acc c i m, i < 2 ^ 16 ∧ m < 128 ∧ x.chain = some (mmaWord f acc c i m) ∧ tileThere s b c ∧ ¬ tileHeld s b c ∧
    allowedPair f W.fmt ∧ 64 * i + activationBytes f (tileDepth W.fmt) (m + 1) ≤ s.bufSize b ∧
    unmarked s (.abuf core) (s.bufBase b + 64 * i) (activationBytes f (tileDepth W.fmt) (m + 1)) ∧
    (acc = true → unmarked s (.cbuf core) (tilePlace s b c 0 0) (512 * (m + 1)))) ∨
  (∃ c, x.chain = some (czeroWord c) ∧ tileThere s b c ∧ ¬ tileHeld s b c)
/-- It has been discarded for a cause: the transfer has the fault, and its bounce channels halt (R298, R310). -/
def chainDropped (s t : State) (x : Xfer) (r b : Nat) (c : Cause) : Prop :=
  t = { s with xfers := t.xfers, win := t.win } ∧ (x.bounce = [] → t.win = s.win) ∧
    (∀ h ∈ x.bounce, h.2 < 4 → t.regBits (0x40000000 + 0x1000 * h.1 + 0x208 + 0x20 * h.2) 18 1 = 1) ∧
    t.xfers = s.xfers.map fun y => if y.key = x.key then
      { x with
        chainDue := x.chainDue.filter fun c => c ≠ b, got := x.got.set r 0, fault := some (x.fault.getD (c, 0)), bounce := [] } else y

end Sys2Proof.Machine

open Sys2Proof Sys2Proof.Machine in
/-- R197 to R200, R305: a CPY whose checks pass enters its engine and reads its records and its source as they stand; no byte
of memory or of a scratchpad has changed yet. That a copy whose source may be read reads it at once is the model's choice
(log 31). A multicast bit at or above SPAN or another chained command is ILL; with 32 transfers outstanding, or while
another waits before it, it waits; a failed check traps with its cause and address, and the five checks come in order. Those of q4
records are left out of the later clauses; a copy that touches the ring of a bounce channel without consuming its next slot is
PROT (R310). -/
def Obligations.CopiesEnterTheirEngine : Prop :=
  ∀ (s : State) (i : Instr) (kind : XferKind) (d r aw ch : SReg) (st : BitVec 4) (mc : BitVec 8) (T : Team),
    cpyForm i = some (kind, d, r, aw, ch, st, mc) → s.unlimited → s.teamOf s.cur.1 = some T →
    let w := s.cur.1
    let b := bankOf w
    let da := s.S d
    let sa := s.S r
    let D := recordAt s b (da.toNat - 0xFF00000000000000)
    let R := recordAt s b (sa.toNat - 0xFF00000000000000)
    let wellFormed := mc.toNat < 2 ^ 2 ^ T.span ∧ (ch = 0 ∨ chainCmd (s.S ch) ≠ none)
    (¬ wellFormed → s.trapsBy (exec i s) (instrTrap .ill 0 s.cs.pc)) ∧
    (wellFormed → s.mayEnter = false → ∃ t, exec i s = .next t ∧ t = { s with banks := t.banks } ∧
      (∀ c, t.bank c = { s.bank c with waitQ := (t.bank c).waitQ }) ∧ (w, s.cur.2, s.cs.pc) ∈ (t.bank b).waitQ) ∧
    (wellFormed → s.mayEnter = true →
      (∀ c a, copyChecks s w T kind da sa aw mc = some (c, a) → s.trapsInBank (exec i s) (instrTrap c a s.cs.pc)) ∧
      (copyChecks s w T kind da sa aw mc = none → ∃ t x, exec i s = .next t ∧ TransferStarted s t x ∧
        x.kind = kind ∧ x.strm = st ∧ x.src = R ∧ x.dst = D ∧ x.aw = (if aw = 0 then none else some (s.S aw)) ∧
        x.chain = (if ch = 0 then none else some (s.S ch)) ∧
        (T.rerun = false → x.receivers = reachedBanks s T mc) ∧ x.landed = x.receivers.map (fun _ => 0) ∧
        (plainFormat D → SourceRead s T R → x.fault = none ∧ x.data = sourceData s R))) ∧
    (s.mayEnter = true ↔ (s.xfers.filter fun x => x.kind != .recv && x.wave / 8 == b).length < 32 ∧
      (waitingTransfers s = [] ∨ (waitingTransfers s).head? = some (w, s.cur.2, s.cs.pc))) ∧
    (∀ c, recordFault T da.toNat = some c → copyChecks s w T kind da sa aw mc = some (c, da)) ∧
    (recordFault T da.toNat = none → (∀ c, recordFault T sa.toNat = some c → copyChecks s w T kind da sa aw mc = some (c, sa)) ∧
      (recordFault T sa.toNat = none →
        (∀ c, wordFault s T aw (s.S aw).toNat = some c → copyChecks s w T kind da sa aw mc = some (c, s.S aw)) ∧
        (wordFault s T aw (s.S aw).toNat = none →
          (∀ c, layoutFault D = some c → copyChecks s w T kind da sa aw mc = some (c, da)) ∧
          (layoutFault D = none → (∀ c, layoutFault R = some c → copyChecks s w T kind da sa aw mc = some (c, sa)) ∧
            (layoutFault R = none → elementCount D ≠ elementCount R →
              copyChecks s w T kind da sa aw mc = some (.bufbound, da)) ∧
            (layoutFault R = none → plainFormat D → plainFormat R →
              let chk := copyChecks s w T kind da sa aw mc
              let ringS := s.bounceBad (s.vfOf w) false (s.recPages (coreOf w) (s.vfOf w) R)
              let ringD := s.bounceBad (s.vfOf w) true (s.recPages (coreOf w) (s.vfOf w) D)
              (pairUnlike kind D R → chk = some (.bufbound, da)) ∧
              (¬ pairUnlike kind D R →
                (destBarred D mc → chk = some (.prot, da)) ∧
                (¬ destBarred D mc → (sourceBarred R → chk = some (.prot, sa)) ∧
                  (¬ sourceBarred R → (onConf s R → ¬ innerPlace D.base → chk = some (.prot, sa)) ∧
                    (¬ (onConf s R ∧ ¬ innerPlace D.base) →
                      (onConf s D → ¬ innerPlace R.base → chk = some (.prot, da)) ∧
                      (¬ (onConf s D ∧ ¬ innerPlace R.base) →
                        (ringS = true → chk = some (.prot, sa)) ∧ (ringS = false → ringD = true → chk = some (.prot, da)) ∧
                        (ringS = false → ringD = false → T.rerun = false →
                          let roomD := smallestPart s (reachedBanks s T mc)
                          let roomS := smallestPart s [b]
                          (∀ e o, firstOutside D roomD e o → chk = some (.bufbound, D.base + BitVec.ofNat 64 o)) ∧
                          (noneOutside D roomD → (∀ e o, firstOutside R roomS e o → chk = some (.bufbound, R.base + BitVec.ofNat 64 o)) ∧
                            (noneOutside R roomS → chk = none)))))))))))))

open Sys2Proof Sys2Proof.Machine in
/-- R202 to R204, R305, R306: NSEND reads its record and its elements and enters its engine; NPOST adds its record to the
flow's posted buffers. A flow that is not valid, or another VF's, is PROT with TADDR the handle. The model's choices: the
source is read at once (log 31), a message that is too large has its record's address in TADDR (log 30), and an NPOST is not
among the 32 transfers (log 47). -/
def Obligations.NetworkInstructionsSendAndPost : Prop :=
  ∀ (s : State) (i : Instr) (f r aw : SReg) (st : BitVec 4) (send : Bool) (T : Team), netForm i = some (f, r, aw, st, send) →
    s.unlimited → s.hasFeature 3 → s.teamOf s.cur.1 = some T → s.mayEnter = true →
    let ra := s.S r
    let h := (s.S f).toNat
    let R := recordAt s (bankOf s.cur.1) (ra.toNat - 0xFF00000000000000)
    let flow := 4096 * s.partOf s.cur.1 + h
    (∀ c, recordFault T ra.toNat = some c → s.trapsInBank (exec i s) (instrTrap c ra s.cs.pc)) ∧
    (recordFault T ra.toNat = none → wordFault s T aw (s.S aw).toNat = none →
      (¬ flowGood s h → s.trapsInBank (exec i s) (instrTrap .prot (s.S f) s.cs.pc)) ∧
      (flowGood s h → send = true → 0x1000000 < R.bytes → s.trapsInBank (exec i s) (instrTrap .bufbound ra s.cs.pc)) ∧
      (netPasses s send h ra R →
        (send = true → ∃ t x, exec i s = .next t ∧ TransferStarted s t x ∧ x.kind = .nsend ∧ x.strm = st ∧ x.src = R ∧
          x.aw = (if aw = 0 then none else some (s.S aw)) ∧ x.flow = flow ∧ x.landed = [] ∧
          (SourceRead s T R → x.fault = none ∧ x.data = sourceData s R)) ∧
        (send = false → ∃ (t u : State) (p : Posted), exec i s = .next t ∧ (∃ v, OnlyWave s v ∧ u = { v with waves := u.waves, banks := u.banks }) ∧
          t = { u with posted := t.posted } ∧ (∀ b, t.bank b = { s.bank b with waitQ := (t.bank b).waitQ }) ∧
          (∀ w, w ≠ s.cur.1 → t.wave w = s.wave w) ∧ t.cs = s.slotAt (s.after 8) ∧
          p.team = T ∧ p.waveIx = waveNo s.cur.1 ∧ p.x = s.cur.2 ∧ p.mask = s.cs.mask ∧ p.strm = st ∧ p.dst = R ∧ p.aw = (if aw = 0 then none else some (s.S aw)) ∧
          ∀ k, SMap.get (fun _ => []) t.posted k =
            if k = flow then SMap.get (fun _ => []) s.posted k ++ [p] else SMap.get (fun _ => []) s.posted k)))

open Sys2Proof Sys2Proof.Machine in
/-- R199, R298, R320: once the last byte has landed at a receiver the chained WLOAD, MMA or CZERO enters that core's matrix
order; one that meets a bound, a row count above 128 or a forbidden pair is discarded, and the transfer has the fault; one
that would read a poisoned byte raises MACHINE. After the entry the bytes that have landed there are counted at the arrival word (R49,
R199). That it waits for a held tile before it enters is the model's choice (log 48). -/
def Obligations.ChainedCommandsEnterTheOrder : Prop :=
  ∀ (s : State) (key : Nat) (x : Xfer) (r b : Nat), ChainDue s key x r b →
    let core := coreOfBank b
    let W := (s.bank b).weights
    let size := s.bufSize b
    let act := fun f M => activationBytes f (tileDepth W.fmt) M
    (x.aw = none → ∀ f i, i < 2 ^ 16 → x.chain = some (wloadWord f i) →
      unmarked s (.wbuf core) (s.bufBase b + 64 * i) (weightBytes f) →
      ∃ t, exec (.chainedCommandEntry key b) s = .next t ∧
        (if 64 * i + weightBytes f ≤ size then t = { s with banks := t.banks, xfers := t.xfers } ∧ chainGone s t x r b ∧
            (∀ c, c ≠ b → t.bank c = s.bank c) ∧
            t.bank b = { s.bank b with weights := (t.bank b).weights } ∧ (t.bank b).weights.fmt = f ∧
            ∀ k, k < weightBytes f → SMap.get zeros (t.bank b).weights.bytes k =
              SMap.get zeros (s.core core).wbuf (s.bufBase b + 64 * i + k)
          else chainDropped s t x r b .bufbound)) ∧
    (∀ f i, i < 2 ^ 16 → x.chain = some (wloadWord f i) → 64 * i + weightBytes f ≤ size →
      s.marksIn (Loc.wbuf core (s.bufBase b + 64 * i)).markKey (weightBytes f) ≠ [] → (s.wave x.wave).resident = true →
      s.xferOf (bankOf x.wave) x = true →
      exec (.chainedCommandEntry key b) s = .next (s.consume x.wave x.x (instrTrap .machine 0 (s.stopped x.wave x.x).pc))) ∧
    (x.aw = none → ∀ f acc c i m, i < 2 ^ 16 → m < 2 ^ 16 → x.chain = some (mmaWord f acc c i m) → ¬ tileHeld s b c →
      unmarked s (.abuf core) (s.bufBase b + 64 * i) (act f (m + 1)) →
      (acc = true → unmarked s (.cbuf core) (tilePlace s b c 0 0) (512 * (m + 1))) →
      let within := m < 128 ∧ tileThere s b c ∧ 64 * i + act f (m + 1) ≤ size
      ∃ t, exec (.chainedCommandEntry key b) s = .next t ∧
        (if within ∧ allowedPair f W.fmt then t = { s with cores := t.cores, xfers := t.xfers } ∧ chainGone s t x r b ∧
            (∀ k, k ≠ core → t.core k = s.core k) ∧ t.core core = { s.core core with queue := (t.core core).queue } ∧
            ∃ o, (t.core core).queue = (s.core core).queue ++ [o] ∧ o.bank = b ∧ o.target = .inr c ∧ o.fmt = f ∧ o.acc = acc ∧
              o.rows = m + 1 ∧ o.done = 0 ∧ o.weights = W ∧ ∀ k, k < act f (m + 1) →
                SMap.get zeros o.acts k = SMap.get zeros (s.core core).abuf (s.bufBase b + 64 * i + k)
          else chainDropped s t x r b (if within then .ill else .bufbound))) ∧
    (x.aw = none → ∀ c, x.chain = some (czeroWord c) →
      (¬ tileHeld s b c → tileThere s b c → ∃ t, exec (.chainedCommandEntry key b) s = .next t ∧
        t = { s with cores := t.cores, xfers := t.xfers, poison := t.poison } ∧ chainGone s t x r b ∧
        marksWiped s t (.cbuf core (tilePlace s b c 0 0)) (512 * 128) ∧ rowsBecome s t b c 0 128 fun _ _ => 0) ∧
      (¬ tileThere s b c → ∃ t, exec (.chainedCommandEntry key b) s = .next t ∧ chainDropped s t x r b .bufbound)) ∧
    (∀ aw o, x.aw = some aw → aw.toNat = 0xFF00000000000000 + o → o < 0x10000000000000 → 0 < x.got.getD r 0 →
      commandGoes s x b → let c := landed (shareWord s b o) (shareWord s b (o + 4)) (shareWord s b (o + 8)) (x.got.getD r 0)
      ∃ t, exec (.chainedCommandEntry key b) s = .next t ∧ chainGone s t x r b ∧
        ∀ d q, shareByte t d q = if d = b ∧ o ≤ q ∧ q < o + 16 then
          BitVec.ofNat 8 ((shareWord s b o + c.1 * 2 ^ 32 + c.2 * 2 ^ 64) / 256 ^ (q - o)) else shareByte s d q)

open Sys2Proof Sys2Proof.Machine in
/-- R49, R198, R200, R310: a group of a transfer's elements lands, each at its place, and the bytes are then counted at the
arrival word; a copy that is complete leaves its engine, and advances DSEQ of a bounce channel that it consumes.
R203, R204, R265, R286: a message that has been read leaves through its flow's port while the flow has credits; an accepted
one is counted at its arrival word and leaves its engine; an arriving one goes into the oldest posted buffer, or waits where
there is none, or where an ordered flow still fills one; a transfer that has stopped on a fault lets its slot trap with
TINFO.ENG at its next instruction, holds the fault while the service has the wave, or goes to the service if its slot has
ended. That groups land in element order (log 31), that the trap waits for a boundary (log 30), and the stream of a buffer's
fill (log 47) are the model's choices. -/
def Obligations.TransfersLandCompleteAndFault : Prop :=
  ((∀ (s : State) (key : Nat) (x : Xfer) (b e : Nat), Landing1 s key x b e → x.aw = none →
    0xFF00000000000000 ≤ x.dst.base.toNat → x.dst.base.toNat < 0xFF10000000000000 →
    ∀ place : Nat → Nat, (∀ i, e ≤ i → i < x.units → elementAt x.dst i = some (place i) ∧
      x.dst.base.toNat - 0xFF00000000000000 + place i + elementBytes x.dst ≤ x.team.spSize) →
    let n := Nat.min (512 / elementBytes x.dst) (x.units - e)
    let es := (List.range n).map fun i => landingStore x (.share b (x.dst.base.toNat - 0xFF00000000000000 + place (e + i))) (e + i)
    ∃ t, exec (.copyLanding key) s = .next t ∧ (∀ a, t.byte a = s.byte a) ∧
      (∀ c o, shareByte t c o = storedByte (shareBase c) es o (shareByte s c o)) ∧ (∀ w, t.wave w = s.wave w) ∧
      t.xferBy key = some { x with landed := [e + n], got := x.got.map fun _ => 0 }) ∧
  (∀ (s : State) (key : Nat) (x : Xfer) (b e p a g o : Nat) (aw : Word) (leaf : Option Leaf), Landing1 s key x b e → x.got = [g] →
    e + 1 = x.units → elementAt x.dst e = some p →
    engLoc s x.team b true x.openDst x.dst.base p (elementBytes x.dst) = .ok (.phys a) leaf →
    x.aw = some aw → aw.toNat = 0xFF00000000000000 + o → o < 0x10000000000000 →
    let T := shareWord s b o
    let c := landed T (shareWord s b (o + 4)) (shareWord s b (o + 8)) (g + elementBytes x.dst)
    ∃ t, exec (.copyLanding key) s = .next t ∧
      (∀ q, t.byte q = storedByte physBase [landingStore x (.phys a) e] q (s.byte q)) ∧
      (∀ d q, shareByte t d q = if d = b ∧ o ≤ q ∧ q < o + 16 then
        BitVec.ofNat 8 ((T + c.1 * 2 ^ 32 + c.2 * 2 ^ 64) / 256 ^ (q - o)) else shareByte s d q) ∧
      t.xferBy key = some { x with landed := [e + 1], got := [0] }) ∧
  (∀ (s : State) (key : Nat) (x : Xfer), s.xferBy key = some x → x.kind ≠ .nsend →
    (x.fault = none → x.units ≤ x.data.length → (∀ r, r < x.receivers.length → x.units ≤ x.landed.getD r 0) → x.chainDue = [] →
      ∃ t, exec (.copyCompletion key) s = .next t ∧ t.xfers = (s.xfers.filter fun y => y.key ≠ key) ∧
        (x.bounce = [] → t = { s with xfers := t.xfers }) ∧
        ((∀ h ∈ x.bounce, h.2 < 4) → let off (h : Nat × Nat) := 0x40000000 + 0x1000 * h.1 + 0x200 + 0x20 * h.2 + 16
          t = { s with xfers := t.xfers, win := t.win } ∧ (∀ q, (∀ h ∈ x.bounce, q / 8 ≠ off h / 8) → t.reg q = s.reg q) ∧
          ∀ h ∈ x.bounce, t.regBits (off h) 0 32 = s.regBits (off h) 0 32 ∧
            t.regBits (off h) 32 32 = (s.regBits (off h) 32 32 + 1) % 2 ^ 32)) ∧
    (x.fault ≠ none ∨ x.chainDue ≠ [] → x.receivers ≠ [] → exec (.copyCompletion key) s = .next s))) ∧
  ((∀ (s : State) (key : Nat) (x : Xfer), s.xferBy key = some x → x.kind = .nsend → (∀ y ∈ s.xfers, y.key = key → y = x) →
    x.landed = [] → x.fault = none →
    x.granule = none → x.cbufWait = 0 → x.data.length = x.units → x.src.q4 = false →
    let off := 0x100000 + 0x20000 * (x.flow / 4096) + 0x20 * (x.flow % 4096)
    let out := (s.xfers.filter fun y => y.kind == .nsend && y.flow == x.flow && y.landed != []).length
    (s.regBits (off + 16) 0 16 ≤ out → ∃ t, exec (.copyLanding key) s = .next t ∧ t.outputs = s.outputs ∧
      t.xferBy key = some x) ∧
    (out < s.regBits (off + 16) 0 16 → ∃ t, exec (.copyLanding key) s = .next t ∧
      t = { s with outputs := t.outputs, xfers := t.xfers, launches := t.launches } ∧
      t.outputs = s.outputs ++ [.message x.flow (s.regBits off 16 4) x.data.flatten] ∧
      t.xferBy key = some { x with landed := [x.units] } ∧
      ∀ l, s.launchOf x.launch = some l → t.launchOf x.launch = some { l with sentNet := true })) ∧
  (∀ (s : State) (key : Nat) (x : Xfer), s.xferBy key = some x → x.kind = .nsend → x.landed ≠ [] →
    (x.aw = none → exec (.remoteAcceptance key) s = .next { s with xfers := s.xfers.filter fun y => y.key ≠ key }) ∧
    (∀ aw o, x.aw = some aw → aw.toNat = 0xFF00000000000000 + o → o < 0x10000000000000 → x.message ≠ [] → x.src.q4 = false →
      s.engLive x (bankOf x.wave) = true →
      let b := bankOf x.wave
      let c := landed (shareWord s b o) (shareWord s b (o + 4)) (shareWord s b (o + 8)) x.data.flatten.length
      ∃ t, exec (.remoteAcceptance key) s = .next t ∧ t.xfers = (s.xfers.filter fun y => y.key ≠ key) ∧
        (∀ q, t.byte q = s.byte q) ∧ ∀ d q, shareByte t d q = if d = b ∧ o ≤ q ∧ q < o + 16 then
          BitVec.ofNat 8 ((shareWord s b o + c.1 * 2 ^ 32 + c.2 * 2 ^ 64) / 256 ^ (q - o)) else shareByte s d q)) ∧
  (∀ (s : State) (flow : Nat) (bs : List Byte), SMap.get (fun _ => []) s.arrived flow = [] →
    (SMap.get (fun _ => []) s.posted flow = [] → ∃ t, exec (.networkMessagePlacement flow bs) s = .next t ∧
      t = { s with arrived := t.arrived } ∧ SMap.get (fun _ => []) t.arrived flow = [bs] ∧
      ∀ f, f ≠ flow → SMap.get (fun _ => []) t.arrived f = SMap.get (fun _ => []) s.arrived f) ∧
    let ordered := s.regBits (0x100000 + 0x20000 * (flow / 4096) + 0x20 * (flow % 4096)) 1 1 = 1
    let filling := ∃ x ∈ s.xfers, x.kind = .recv ∧ x.flow = flow
    (ordered ∧ filling → ∃ t, exec (.networkMessagePlacement flow bs) s = .next t ∧
      t = { s with arrived := t.arrived } ∧ SMap.get (fun _ => []) t.arrived flow = [bs]) ∧
    (∀ p ps, SMap.get (fun _ => []) s.posted flow = p :: ps → p.aw = none → spaceOf p.dst.base = .tenant → plainFormat p.dst →
      ¬ (ordered ∧ filling) → ∃ t x, exec (.networkMessagePlacement flow bs) s = .next t ∧
        t = { s with posted := t.posted, xfers := s.xfers ++ [x], nextKey := s.nextKey + 1 } ∧
        (∀ f, SMap.get (fun _ => []) t.posted f = if f = flow then ps else SMap.get (fun _ => []) s.posted f) ∧
        x.kind = .recv ∧ x.flow = flow ∧ x.strm = p.strm ∧ x.dst = p.dst ∧ x.units = x.data.length ∧
        x.data.flatten.map (·.1) = bs.take (elementCount p.dst * elementBytes p.dst) ∧
        ∀ u ∈ x.data.dropLast, u.length = elementBytes p.dst)) ∧
  (∀ (s : State) (key : Nat) (x : Xfer) (c : Cause) (a : Word) (w : Nat), s.xferBy key = some x → x.fault = some (c, a) →
    x.chainDue = [] → s.teamAway x.team = false → s.xferHome x = some w → (s.wave w).resident = true → c ≠ .poison →
    let t := { s with xfers := s.xfers.filter fun y => y.key ≠ key }
    ((s.wave w).service = none → (s.wave w).handler = false → ((s.wave w).slot x.x).live = true → s.atBoundary w x.x = true →
      exec (.engineFault key) s = .next (takeTrap t w x.x { instrTrap c a ((s.wave w).slot x.x).pc with eng := true })) ∧
    (((s.wave w).slot x.x).live = false → (s.wave w).frozen = none → ∃ u, exec (.engineFault key) s = .next u ∧
      u = { t with parts := u.parts, launches := u.launches } ∧
      (u.part (s.partOf w)).ringWait = (s.part (s.partOf w)).ringWait ++
        [{ wave := w, ticket := 0, cause := c.code, nested := false, eng := true }] ∧
      ∀ l, s.launchOf x.launch = some l → u.launchOf x.launch = some { l with killed := true }) ∧
    (∀ v, (s.wave w).service = some v → ((s.wave w).slot x.x).live = true → (s.wave w).heldFault = none →
      exec (.engineFault key) s = .next (t.setWave w { s.wave w with heldFault := some { x := x.x, cause := c, addr := a } }))))

namespace Sys2Proof.Machine

/-! ### Capsules -/

/-- Eight bytes of memory. -/
def quad (s : State) (a : Nat) : Nat := ((List.range 8).map fun i => (s.byte (a + i)).toNat * 256 ^ i).sum
/-- R205: a LOCK word, and its fields. -/
def lockWord (seq st holder : Nat) : Nat := seq % 2 ^ 16 + st * 2 ^ 16 + holder * 2 ^ 24
def seqOf (l : Nat) : Nat := l % 2 ^ 16
def stateOf (l : Nat) : Nat := l / 2 ^ 16 % 2 ^ 8
def holderOf (l : Nat) : Nat := l / 2 ^ 24 % 2 ^ 40
/-- R329: a record that CAPENTER does not refuse with CAPREC. -/
structure RecordGood (s : State) (pa tag : Nat) : Prop where
  owner : quad s (pa + 104) = 0 ∨ quad s (pa + 104) = tag
  st : stateOf (quad s pa) < 3
  held : stateOf (quad s pa) ≠ 0 → holderOf (quad s pa) ≠ 0
  free : stateOf (quad s pa) = 0 → holderOf (quad s pa) = 0 ∧ quad s (pa + 16) % 2 ^ 56 = 0 ∧ quad s (pa + 16) / 2 ^ 60 = 0
  code : quad s (pa + 8) ≠ 0
  reserved : quad s (pa + 16) / 2 ^ 56 % 16 = 0 ∧ quad s (pa + 112) / 2 ^ 56 = 0 ∧
    ∀ i, 15 ≤ i → i < 32 → quad s (pa + 8 * i) = 0
/-- The wave's tag: its VF and its code object's load identifier (R205). -/
def tagOf (s : State) : Nat :=
  match s.teamOf s.cur.1 with
  | none => 0
  | some T => T.vf + (match s.launchOf T.launch with | some l => l.loadid.toNat % 2 ^ 56 | none => 0) * 2 ^ 8
/-- s48 to s55. -/
def capReg (n : Nat) : SReg := BitVec.ofNat 6 (48 + n)
/-- The scalar registers with s48 to s55 from a list (R214). -/
def withSaved (S : SReg → Word) (saved : List Word) : SReg → Word :=
  fun r => if 48 ≤ r.toNat ∧ r.toNat ≤ 55 then saved.getD (r.toNat - 48) (S r) else S r
/-- R48, R163: the wave's accesses to the record are made, and neither its audit nor poison bears on them. -/
structure OnRecord (s : State) (record : Word) (n pa : Nat) : Prop where
  plain : s.plainTeam s.cur.1
  found : ∃ leaf, resolve s s.cur.1 .atomic record n = .ok (.phys pa) leaf
  clean : ∀ i, i < 256 → SMap.get (fun _ => false) s.poison (pa + i) = false
/-- Beside the issuing wave and the bytes of memory, only counts, held translations, watched lines, the prior contents
that a rollback, an audit or a transfer's source keeps, and the writes between dies have changed. -/
def onlyRecord (s t : State) : Prop :=
  t = { s with
    waves := t.waves, cores := t.cores, parts := t.parts, stages := t.stages, pmem := t.pmem, plain := t.plain
    poison := t.poison, waiters := t.waiters, tlb := t.tlb, launches := t.launches, win := t.win, audits := t.audits
    xfers := t.xfers, clocks := t.clocks, crossing := t.crossing } ∧ onlyEarly s t ∧
  (∀ w, w ≠ s.cur.1 → t.wave w = s.wave w) ∧ t.cw.slot (otherSlot s.cur.2) = s.cw.slot (otherSlot s.cur.2)
/-- R210: what the wave holds from its CAPENTER. -/
structure EnteredAs (s : State) (c : Capsule) (record : Word) (d : SReg) (off : W32) (adopter : Bool) (seq : Nat) : Prop where
  mode : c.adopter = adopter ∧ c.x = s.cur.2 ∧ c.record = record ∧ c.sd = d
  paths : c.enterPc = s.cs.pc ∧ c.displaced = BitVec.ofInt 64 (s.cs.pc.toNat + off.toInt)
  seq : c.seq.toNat = seq % 2 ^ 16
  saved : c.saved = (List.range 8).map fun n => s.S (capReg n)
  fresh : c.instrs = 0 ∧ c.ssts = 0 ∧ c.buffer = [] ∧ c.committed = false
  holder : s.cur.1 < 2 ^ 13 → c.holder.toNat % 2 ^ 13 = s.cur.1 ∧ c.holder.toNat / 2 ^ 13 % 2 ^ 6 = s.partOf s.cur.1 ∧
    c.holder.toNat / 2 ^ 19 ≠ 0
/-- R212: the record's holder id and SEQ are those that the wave expects. -/
def stillHolder (s : State) (c : Capsule) (pa : Nat) : Prop :=
  holderOf (quad s pa) = c.holder.toNat ∧ seqOf (quad s pa) = c.seq.toNat
/-- The access to a capsule's record holds its translation (R46), and sees what has been written to both of its lines (R225). -/
def State.withRecord (s : State) (record : Word) (n : Nat) : State :=
  match resolve s s.cur.1 .atomic record n with
  | .ok (.phys pa) leaf => (s.holdRes s.cur.1 record (.ok (.phys pa) leaf)).observe (dieOf (coreOf s.cur.1)) (pa + 128)
  | _ => s
/-- A commit's stores, where their addresses lie as it is made. That they are translated then is the model's choice
(log 50). -/
def storesAt (s : State) (buf es : List StoreElem) : Prop :=
  (es.map fun e => (e.addr, e.size, e.value)) = (buf.map fun e => (e.addr, e.size, e.value)) ∧
  ∀ e ∈ es, 0 < e.size ∧ ∃ p leaf, e.loc = .phys p ∧ resolve s s.cur.1 .store e.addr e.size = .ok (.phys p) leaf
/-- As `trapsBy`, where the translations that the accesses have used are held, and the line read has been seen (R225). -/
def State.trapsHeld (s : State) (o : Out) (a : TrapArgs) : Prop :=
  ∃ v u, OnlyWave s v ∧ u = { v with tlb := u.tlb, clocks := u.clocks, crossing := u.crossing } ∧ u.cur = s.cur ∧ u.cw = s.cw ∧
    o = .next (takeTrap u s.cur.1 s.cur.2 a)
/-- What a fault record says of an access to a record or a delivery word: atomic (log 44). -/
def capAccess (n : Nat) : AccessForm := ⟨.atomic, fun _ => 0, n, false, false, true⟩
/-- R214: a displaced wave: s48 to s55 restored, capsule mode ended, on its displaced path with status 3, or an adopter at its
own CAPENTER. -/
def displacedAs (s t : State) (c : Capsule) : Prop :=
  t.cw = { s.cw with sregs := t.cw.sregs, slotA := t.cw.slotA, slotB := t.cw.slotB, capsule := none } ∧
  (∀ r, t.S r = if c.adopter = false ∧ r = c.sd ∧ r ≠ 0 then 3 else withSaved s.S c.saved r) ∧
  t.cs = s.slotAt (if c.adopter = true then c.enterPc else c.displaced)
/-- R278: TNEXT of the issuing wave has been written. -/
def tnextIs (s t : State) (v : Word) : Prop :=
  t.cw.trap = (withTnext s.cw v).trap ∧ t.cw.frozen = (withTnext s.cw v).frozen
/-- CKPT of a record. -/
def ckptIs (t : State) (pa : Nat) (S : SReg → Word) : Prop :=
  ∀ n, n < 8 → quad t (pa + 32 + 8 * n) = (S (capReg n)).toNat

end Sys2Proof.Machine

open Sys2Proof Sys2Proof.Machine in
/-- R205, R206, R210, R216, R329, R330: CAPENTER acquires a FREE record, adopts an ADOPTABLE one or one that has stalled, and
finds any other busy; an inconsistent record is CAPREC. Of its operands misplaced ones, untranslated ones and ones without
permission trap in R330's order, and granules that are not resident park it, with AT alone in the fault record (log 44); TADDR
is 0 for CAPREC (log 22). CAPQRY loads the LOCK word.
R217, R218: in capsule mode CAPENTER is CAPILL, in handler mode too, and CAPQRY outside it. -/
def Obligations.CapsulesAreAcquiredOrAdopted : Prop :=
  ∀ (s : State) (d a del : SReg) (off : W32) (pa pd : Nat) (leaf : Option Leaf), s.hasFeature 2 →
    let w := s.cur.1
    let lock := quad s pa
    let aged := stateOf lock = 1 ∧ (s.part (s.partOf w)).adoptage ≠ 0 ∧
      (s.part (s.partOf w)).adoptage.toNat < (s.cycle + 2 ^ 64 - quad s (pa + 96)) % 2 ^ 64
    (s.cw.capsule ≠ none → s.trapsBy (exec (.capenter d a del off) s) (instrTrap .capill 0 s.cs.pc) ∧
      (s.cw.handler = false → s.trapsBy (exec (.capqry d a) s) (instrTrap .capill 0 s.cs.pc))) ∧
    (s.cw.capsule = none →
    ((s.S del).toNat % 16 ≠ 0 → s.trapsBy (exec (.capenter d a del off) s) (instrTrap .malign (s.S del) s.cs.pc)) ∧
    ((s.S del).toNat % 16 = 0 → inWindow (s.S del) = true →
      s.trapsBy (exec (.capenter d a del off) s) (instrTrap .prot (s.S del) s.cs.pc)) ∧
    ((s.S del).toNat % 16 = 0 → inWindow (s.S del) = false →
      ((s.S a).toNat % 256 ≠ 0 → s.trapsBy (exec (.capenter d a del off) s) (instrTrap .malign (s.S a) s.cs.pc)) ∧
      ((s.S a).toNat % 256 = 0 → inWindow (s.S a) = true →
        s.trapsBy (exec (.capenter d a del off) s) (instrTrap .prot (s.S a) s.cs.pc)) ∧
      ((s.S a).toNat % 256 = 0 → inWindow (s.S a) = false →
        let rr := resolve s w .atomic (s.S a) 256
        let rd := resolve s w .atomic (s.S del) 16
        let found := [rr, rd].filterMap fun r => match r with | .park base gsz => some (base, gsz) | _ => none
        (rr = .fault .xlate → s.trapsBy (exec (.capenter d a del off) s) (instrTrap .xlate (s.S a) s.cs.pc)) ∧
        (rr ≠ .fault .xlate → rd = .fault .xlate →
          s.trapsBy (exec (.capenter d a del off) s) (instrTrap .xlate (s.S del) s.cs.pc)) ∧
        (rr ≠ .fault .xlate → rd ≠ .fault .xlate →
          (found ≠ [] → ∃ t, exec (.capenter d a del off) s = .next t ∧ ParksOn s t (capAccess 256) found.eraseDups) ∧
          (found = [] → rr = .fault .prot →
            s.trapsLogged (exec (.capenter d a del off) s) (instrTrap .prot (s.S a) s.cs.pc)) ∧
          (found = [] → rr ≠ .fault .prot → rd = .fault .prot →
            s.trapsLogged (exec (.capenter d a del off) s) (instrTrap .prot (s.S del) s.cs.pc)))) ∧
      ((s.S a).toNat % 256 = 0 → inWindow (s.S a) = false → OnRecord s (s.S a) 256 pa →
        resolve s w .atomic (s.S del) 16 = .ok (.phys pd) leaf → (pd + 16 ≤ pa ∨ pa + 256 ≤ pd) →
        (¬ RecordGood s pa (tagOf s) → s.trapsHeld (exec (.capenter d a del off) s) (instrTrap .caprec 0 s.cs.pc)) ∧
        (RecordGood s pa (tagOf s) →
          (stateOf lock = 0 → ∃ t c, exec (.capenter d a del off) s = .next t ∧ onlyRecord s t ∧
            t.cw = { s.cw with sregs := t.cw.sregs, slotA := t.cw.slotA, slotB := t.cw.slotB, capsule := some c } ∧
            EnteredAs s c (s.S a) d off false (seqOf lock + 1) ∧ (∀ r, t.S r = s.withS d 0 r) ∧
            t.cs = s.slotAt (BitVec.ofNat 64 (quad s (pa + 8))) ∧
            quad t pa = lockWord (seqOf lock + 1) 1 c.holder.toNat ∧ quad t (pa + 16) = quad s (pa + 8) % 2 ^ 56 ∧
            quad t (pa + 24) = (s.S del).toNat ∧ ckptIs t pa s.S ∧ quad t (pa + 96) = s.cycle % 2 ^ 64 ∧
            quad t (pa + 104) = tagOf s % 2 ^ 64 ∧ quad t pd = 0 ∧ quad t (pd + 8) = 0 ∧
            ∀ q, ¬ (pa ≤ q ∧ q < pa + 8) → ¬ (pa + 16 ≤ q ∧ q < pa + 112) → ¬ (pd ≤ q ∧ q < pd + 16) → t.byte q = s.byte q) ∧
          (stateOf lock = 2 ∨ aged → ∃ t c, exec (.capenter d a del off) s = .next t ∧ onlyRecord s t ∧
            t.cw = { s.cw with sregs := t.cw.sregs, slotA := t.cw.slotA, slotB := t.cw.slotB, capsule := some c
                               adopts := s.cw.adopts + 1 } ∧
            EnteredAs s c (s.S a) d off true (seqOf lock + 1) ∧
            (∀ r, t.S r = withSaved s.S ((List.range 8).map fun n => BitVec.ofNat 64 (quad s (pa + 32 + 8 * n))) r) ∧
            t.cs = s.slotAt (BitVec.ofNat 64 (quad s (pa + 16) % 2 ^ 56)) ∧
            quad t pa = lockWord (seqOf lock + 1) 1 c.holder.toNat ∧ quad t (pa + 96) = s.cycle % 2 ^ 64 ∧
            quad t (pa + 112) = holderOf lock + seqOf lock * 2 ^ 40 ∧
            ∀ q, ¬ (pa ≤ q ∧ q < pa + 8) → ¬ (pa + 96 ≤ q ∧ q < pa + 104) → ¬ (pa + 112 ≤ q ∧ q < pa + 120) →
              t.byte q = s.byte q) ∧
          (stateOf lock = 1 → ¬ aged → ∃ t, exec (.capenter d a del off) s = .next t ∧ onlyRecord s t ∧
            t.cw = { s.cw with sregs := t.cw.sregs, slotA := t.cw.slotA, slotB := t.cw.slotB } ∧
            (∀ r, t.S r = s.withS d 1 r) ∧ t.cs = s.slotAt (s.after 8) ∧ ∀ q, t.byte q = s.byte q))))) ∧
    (s.cw.capsule = none ∨ s.cw.handler = true → (s.S a).toNat % 256 ≠ 0 →
      s.trapsBy (exec (.capqry d a) s) (instrTrap .malign (s.S a) s.cs.pc)) ∧
    (s.cw.capsule = none ∨ s.cw.handler = true → (s.S a).toNat % 256 = 0 → s.plainTeam w → s.clean (.phys pa) 8 → resolve s w .load (s.S a) 8 = .ok (.phys pa) leaf →
      ∃ t, exec (.capqry d a) s = .next t ∧ Issued s t 4 [1] (.load s.cur.2 s.cs.pc [1]
        [{ dest := .scalar d, value := BitVec.ofNat 64 lock, addr := s.S a, poisoned := false }]) [])

open Sys2Proof Sys2Proof.Machine in
/-- R211 to R215, R217, R218, R329: CAPSTEP commits the buffered stores with the record while the wave is still its holder, or
the wave is displaced; at STEPS 15 CAPSTEP is CAPLIM. CAPEXIT, once its delivery address has passed its checks, commits,
frees the record and writes the delivery word, or the wave is displaced; where they fail it traps or parks with nothing
changed. CAPDROP gives the record up in handler mode before the first commit. Outside capsule mode each is CAPILL.
The model's readings: the buffered stores are translated again as the commit is made (log 50); a wave that is no longer the
holder is displaced before CAPLIM, and the delivery address is checked before the holder (log 22), in R330's order (log 56); a
park of the transaction notes AT alone (log 44). -/
def Obligations.CapsulesCommitExitOrDrop : Prop :=
  ∀ (s : State) (a : SReg), s.hasFeature 2 →
    let w := s.cur.1
    (s.cw.capsule = none → ∀ i ∈ [Instr.capstep, .capexit a, .capdrop], s.trapsBy (exec i s) (instrTrap .capill 0 s.cs.pc)) ∧
    ∀ (c : Capsule) (pa : Nat), s.cw.capsule = some c → OnRecord s c.record 8 pa →
      let seq := c.seq.toNat + 1
      let lock := quad s pa
      let u := s.withRecord c.record 8
      (s.cw.handler = true → ∀ i ∈ [Instr.capstep, .capexit a], s.trapsBy (exec i s) (instrTrap .capill 0 s.cs.pc)) ∧
      (s.cw.handler = false → c.instrs < 64 → c.saved.length = 8 → ¬ stillHolder s c pa →
        ∃ t, exec .capstep s = .next t ∧ onlyRecord s t ∧ displacedAs s t { c with x := s.cur.2 } ∧ ∀ q, t.byte q = s.byte q) ∧
      (s.cw.handler = false → c.instrs < 64 → stillHolder s c pa → quad s (pa + 16) / 2 ^ 60 = 15 →
        s.trapsHeld (exec .capstep s) (instrTrap .caplim 0 s.cs.pc)) ∧
      (∀ es, storesAt u c.buffer es → s.cw.handler = false → c.instrs < 64 → stillHolder s c pa → quad s (pa + 16) / 2 ^ 60 < 15 →
        ∃ t, exec .capstep s = .next t ∧ onlyRecord s t ∧
          t.cw = { s.cw with slotA := t.cw.slotA, slotB := t.cw.slotB
                             capsule := some { c with seq := BitVec.ofNat 16 seq, instrs := 0, ssts := 0, buffer := [], committed := true } } ∧
          t.cs = s.slotAt (s.after 4) ∧ quad t pa = lockWord seq (stateOf lock) c.holder.toNat ∧
          quad t (pa + 16) = (s.cs.pc.toNat + 4) % 2 ^ 56 + (quad s (pa + 16) / 2 ^ 60 + 1) * 2 ^ 60 ∧
          ckptIs t pa s.S ∧ quad t (pa + 96) = s.cycle % 2 ^ 64 ∧
          ∀ q, ¬ (pa ≤ q ∧ q < pa + 8) → ¬ (pa + 16 ≤ q ∧ q < pa + 24) → ¬ (pa + 32 ≤ q ∧ q < pa + 104) →
            t.byte q = storedByte physBase es q (s.byte q)) ∧
      let del := BitVec.ofNat 64 (quad s (pa + 24))
      (s.cw.handler = false → c.instrs < 64 → bodyReg a →
        (del.toNat % 16 ≠ 0 → s.trapsHeld (exec (.capexit a) s) (instrTrap .malign del s.cs.pc)) ∧
        (del.toNat % 16 = 0 → inWindow del = true → s.trapsHeld (exec (.capexit a) s) (instrTrap .prot del s.cs.pc)) ∧
        (del.toNat % 16 = 0 → inWindow del = false →
          (∀ e, resolve u w .atomic del 16 = .fault e → ∃ v t, OnlyWave s v ∧
            t = { v with tlb := t.tlb, win := t.win, clocks := t.clocks, crossing := t.crossing } ∧
            (e ≠ .prot → t.win = s.win) ∧ t.cur = s.cur ∧ t.cw = s.cw ∧
            exec (.capexit a) s = .next (takeTrap t w s.cur.2 (instrTrap e del s.cs.pc))) ∧
          (∀ base gsz, resolve u w .atomic del 16 = .park base gsz →
            ∃ t, exec (.capexit a) s = .next t ∧ ParksOn s t (capAccess 16) [(base, gsz)]))) ∧
      (∀ (pd : Nat) (leaf : Option Leaf), s.cw.handler = false → c.instrs < 64 → bodyReg a → del.toNat % 16 = 0 →
        inWindow del = false → resolve u w .atomic del 16 = .ok (.phys pd) leaf → c.saved.length = 8 → ¬ stillHolder s c pa →
        ∃ t, exec (.capexit a) s = .next t ∧ onlyRecord s t ∧ displacedAs s t { c with x := s.cur.2 } ∧
          ∀ q, t.byte q = s.byte q) ∧
      (∀ (pd : Nat) (leaf : Option Leaf) (es : List StoreElem), s.cw.handler = false → c.instrs < 64 → stillHolder s c pa →
        bodyReg a → del.toNat % 16 = 0 → inWindow del = false → resolve u w .atomic del 16 = .ok (.phys pd) leaf →
        storesAt (u.holdRes w del (.ok (.phys pd) leaf)) c.buffer es → (pd + 16 ≤ pa ∨ pa + 256 ≤ pd) →
        c.saved.length = 8 →
        ∃ t, exec (.capexit a) s = .next t ∧ onlyRecord s t ∧
          t.cw = { s.cw with sregs := t.cw.sregs, slotA := t.cw.slotA, slotB := t.cw.slotB, capsule := none } ∧
          (∀ r, t.S r = if c.adopter = true then withSaved s.S c.saved r else s.withS c.sd 0 r) ∧
          t.cs = s.slotAt (if c.adopter = true then c.enterPc else c.enterPc + 8) ∧
          quad t pa = lockWord seq 0 0 ∧ quad t (pa + 16) = 0 ∧ ckptIs t pa s.S ∧ quad t (pa + 96) = s.cycle % 2 ^ 64 ∧
          quad t pd = (s.S a).toNat ∧ quad t (pd + 8) = seq % 2 ^ 16 + c.holder.toNat * 2 ^ 16 + 2 ^ 63 ∧
          ∀ q, ¬ (pa ≤ q ∧ q < pa + 8) → ¬ (pa + 16 ≤ q ∧ q < pa + 24) → ¬ (pa + 32 ≤ q ∧ q < pa + 104) →
            ¬ (pd ≤ q ∧ q < pd + 16) → t.byte q = storedByte physBase es q (s.byte q)) ∧
      (s.cw.handler = true → c.committed = true → s.trapsBy (exec .capdrop s) (instrTrap .capill 0 s.cs.pc)) ∧
      (s.cw.handler = true → c.committed = false → c.saved.length = 8 → ∃ t, exec .capdrop s = .next t ∧ onlyRecord s t ∧
        t.cw = { s.cw with sregs := t.cw.sregs, slotA := t.cw.slotA, slotB := t.cw.slotB, capsule := none
                           trap := t.cw.trap, frozen := t.cw.frozen } ∧
        t.cs = s.slotAt (s.after 4) ∧
        (stillHolder s c pa ∨ c.adopter = true → (∀ r, t.S r = withSaved s.S c.saved r) ∧
          tnextIs s t (c.enterPc - BitVec.ofNat 64 (c.enterPc.toNat % 4))) ∧
        (¬ stillHolder s c pa → c.adopter = false → (∀ r, t.S r = if r = c.sd ∧ r ≠ 0 then 3 else withSaved s.S c.saved r) ∧
          tnextIs s t (c.displaced - BitVec.ofNat 64 (c.displaced.toNat % 4))) ∧
        (stillHolder s c pa → c.adopter = false → quad t pa = lockWord seq 0 0 ∧ quad t (pa + 16) % 2 ^ 56 = 0 ∧
          quad t (pa + 16) / 2 ^ 60 = quad s (pa + 16) / 2 ^ 60) ∧
        (stillHolder s c pa → c.adopter = true → quad t pa = lockWord seq 2 (holderOf lock) ∧ quad t (pa + 16) = quad s (pa + 16)) ∧
        (¬ stillHolder s c pa → ∀ q, t.byte q = s.byte q) ∧
        ∀ q, ¬ (pa ≤ q ∧ q < pa + 8) → ¬ (pa + 16 ≤ q ∧ q < pa + 24) → t.byte q = s.byte q)

namespace Sys2Proof.Machine

/-! ### Translation service -/

/-- The XLAT functions, by the register that names a VF. -/
def xlatForm : Instr → Option SReg
  | .tlbinv a _ | .fbpop _ a | .xlreplay a | .fbstat _ a => some a
  | _ => none
/-- R303: the value names a VF that is enabled in the issuing partition. -/
def State.namesVf (s : State) (v : Word) : Prop :=
  v.toNat < 512 ∧ v.toNat % 256 < 192 ∧ s.vfEn (v.toNat % 256) = true ∧ s.vfPart (v.toNat % 256) = s.partOf s.cur.1
/-- R48: the fields of a record stand at the bits that the table gives them, in a value of 128 bits. -/
structure RecordBits (r : FaultRec) (lo hi : Word) : Prop where
  vaddr : lo = r.vaddr
  vf : hi.toNat % 2 ^ 8 = r.vf
  flags : hi.getLsbD 8 = r.rd ∧ hi.getLsbD 9 = r.wr ∧ hi.getLsbD 10 = r.at_ ∧ hi.getLsbD 11 = r.eng
  gsz : hi.toNat / 2 ^ 12 % 8 = r.gsz
  wave : hi.toNat / 2 ^ 16 % 2 ^ 13 = r.wave
  seq : hi.toNat / 2 ^ 32 = r.seq.toNat
  reserved : hi.getLsbD 15 = false ∧ hi.toNat / 2 ^ 29 % 8 = 0
/-- The fields of a record are in their ranges. -/
def FaultRec.inRange (r : FaultRec) : Prop := r.vf < 192 ∧ r.gsz < 8 ∧ r.wave < 2 ^ 13
/-- The issuing slot has gone on with scalar registers `S`; beside the issuing wave, only the fault buffer of a VF has
changed, to `f`. -/
structure BufferTo (s t : State) (vf : Nat) (f : FaultBuffer) (S : SReg → Word) : Prop where
  mid : ∃ u, OnlyWave s u ∧ t = { u with waves := t.waves, fbufs := t.fbufs }
  fbufs : ∀ v, t.fbuf v = if v = vf then f else s.fbuf v
  waves : ∀ w, w ≠ s.cur.1 → t.wave w = s.wave w
  sregs : ∀ r, t.S r = S r
  slot : t.cs = s.slotAt (s.after 4)
  other : t.cw.slot (otherSlot s.cur.2) = s.cw.slot (otherSlot s.cur.2)
  rest : t.cw = { s.cw with sregs := t.cw.sregs, slotA := t.cw.slotA, slotB := t.cw.slotB }
/-- R303: accesses of a VF that have been translated and not performed. -/
def translatedAccess (s : State) (vf : Nat) : Prop :=
  ∃ e ∈ s.waves, e.2.resident = true ∧ s.vfOf e.1 = vf ∧
    ((∃ x pc n l, e.2.pend = .load x pc n l) ∨ e.2.gates ≠ [])
/-- A slot whose access is no longer parked on a granule. -/
def Slot.unparked (t : Slot) : Slot := { t with park := match t.park with | .granule _ => .none | p => p }
/-- The completed operation of a slot: it goes on behind its instruction. -/
def Slot.completed (t : Slot) : Slot := { t with park := .none, pc := t.pc + 4, chain := none, xvres := none }
/-- A translation of VF `v` is held by cluster `c` for the page, of the leaf's size, that is its p-th. -/
def translationHeld (s : State) (c v p : Nat) (l : Leaf) : Prop :=
  ∃ ls, (c * 192 + v, ls) ∈ s.tlb ∧ (p, l) ∈ ls
/-- Slot x waits for operation `o`: as it stands, or as a trap of the wave has stopped it (R275). -/
def Wave.awaits (W : Wave) (x : SlotId) (o : SlotOp) : Prop :=
  match W.frozen, (W.handler = true ∧ ∃ p, (W.slot x).park = .op p : Prop) with
  | none, _ => (W.slot x).park = .op o
  | some f, own => (own ∧ (W.slot x).park = .op o) ∨ (¬ own ∧ (match x with | .a => f.1 | .b => f.2).park = .op o)
/-- That operation is complete: the slot goes on behind it. Of a slot that a trap has stopped, TNEXT goes with it if it is the one
that trapped, and the window of a wave that is parked for the service shows it (log 12). -/
def Wave.opDone (W V : Wave) (x : SlotId) : Prop :=
  match W.frozen, (W.handler = true ∧ ∃ p, (W.slot x).park = .op p : Prop) with
  | none, _ => V = W.setSlot x (W.slot x).completed
  | some f, own => (own ∧ V = W.setSlot x (W.slot x).completed) ∨ (¬ own ∧
    let y := (match x with | .a => f.1 | .b => f.2).completed
    V = { (if W.handler = true then W else W.setSlot x y) with
      frozen := some (match x with | .a => (y, f.2) | .b => (f.1, y))
      trap := if W.trap.tslot.getLsbD 0 = decide (x = .b) then { W.trap with tnext := y.pc } else W.trap })

end Sys2Proof.Machine

open Sys2Proof Sys2Proof.Machine in
/-- R303: the XLAT functions name a VF of the issuing partition, else ILL or PROT. FBPOP takes the oldest record (R48),
FBSTAT reports the buffer, TLBINV and XLREPLAY park.
R46, R303: at its completion TLBINV has waited for the VF's accesses, and no cluster holds an entry that it names; every
other entry stays. XLREPLAY takes every access of the VF off its park list.
R275: an operation whose wave a trap has stopped completes too. Where that leaves its slot, TNEXT and the window is the model's
reading (log 12). -/
def Obligations.TranslationServiceKeepsItsOrder : Prop :=
  (∀ (s : State) (i : Instr) (a : SReg), xlatForm i = some a → s.unlimited → s.cw.system = true →
    (512 ≤ (s.S a).toNat → s.trapsBy (exec i s) (instrTrap .ill 0 s.cs.pc)) ∧
    ((s.S a).toNat < 512 → ¬ s.namesVf (s.S a) → s.trapsBy (exec i s) (instrTrap .prot (s.S a) s.cs.pc))) ∧
  (∀ (s : State) (a d : SReg), s.unlimited → s.cw.system = true → s.namesVf (s.S a) →
    let vf := (s.S a).toNat % 256
    let f := s.fbuf vf
    (∀ b, ∃ t, exec (.tlbinv a b) s = .next t ∧ parksAs s t (.op (.tlbinv (s.S b).toNat (s.S a).toNat))) ∧
    (∃ t, exec (.xlreplay a) s = .next t ∧ parksAs s t (.op (.xlreplay vf))) ∧
    (f.recs = [] → d.toNat % 2 = 0 →
      ∃ t, exec (.fbpop d a) s = .next t ∧ BufferTo s t vf f (fun r => if r = d ∨ r = d + 1 then 0 else s.S r)) ∧
    (∀ r l, f.recs = r :: l → d.toNat % 2 = 0 → r.inRange → ∃ t lo hi, exec (.fbpop d a) s = .next t ∧
      RecordBits r lo hi ∧ BufferTo s t vf { f with recs := l } (fun r =>
        if r = 0 then 0 else if r = d then lo else if r = d + 1 then hi else s.S r)) ∧
    (f.recs.length ≤ 1024 → ∃ t v, exec (.fbstat d a) s = .next t ∧
      v.toNat % 2 ^ 16 = f.recs.length ∧ v.toNat / 2 ^ 16 % 2 ^ 16 = f.dropped.toNat ∧ v.toNat / 2 ^ 32 = f.nextSeq.toNat ∧
      BufferTo s t vf (if 256 ≤ (s.S a).toNat then { f with dropped := false } else f) (s.withS d v))) ∧
  (∀ (s : State) (w : Nat) (x : SlotId) (va n : Nat), (s.wave w).awaits x (.tlbinv va n) →
    (translatedAccess s (n % 256) → exec (.xlatComplete w x) s = .next s) ∧
    (¬ translatedAccess s (n % 256) → ∃ t, exec (.xlatComplete w x) s = .next t ∧
      t = { s with waves := t.waves, tlb := t.tlb } ∧ (∀ v, v ≠ w → t.wave v = s.wave v) ∧
      (s.wave w).opDone (t.wave w) x ∧
      ∀ c v p l, v < 192 → (translationHeld t c v p l ↔ translationHeld s c v p l ∧
        ¬ (v = n % 256 ∧ (256 ≤ n ∨ p = va / 2 ^ l.bits))))) ∧
  (∀ (s : State) (w : Nat) (x : SlotId) (vf : Nat), ((s.wave w).slot x).park = .op (.xlreplay vf) →
    (s.wave w).frozen = none ∨ (s.wave w).handler = true →
    ∃ t, exec (.xlatComplete w x) s = .next t ∧ t = { s with waves := t.waves, xfers := t.xfers } ∧
      (t.wave w).slot x = ((s.wave w).slot x).completed ∧
      (∀ v y, ¬ (v = w ∧ y = x) → (t.wave v).slot y =
        if (s.wave v).resident = true ∧ s.vfOf v = vf then ((s.wave v).slot y).unparked else (s.wave v).slot y) ∧
      (∀ v, t.wave v = { s.wave v with slotA := (t.wave v).slotA, slotB := (t.wave v).slotB }) ∧
      t.xfers = s.xfers.map fun e => { e with granule := if e.vf = vf then none else e.granule })

namespace Sys2Proof.Machine

/-! ### Contexts -/

/-- The CTX functions, by their designators, with the bits a designator may have. -/
def ctxForm (s : State) : Instr → Option (List Word × Nat)
  | .banksw a | .spill a _ | .fill a _ => some ([s.S a], 10)
  | .gate a => some ([s.S a], 11)
  | .migr a b => some ([s.S a, s.S b], 10)
  | _ => none
/-- R244: a designator's core, and its bank among the banks of the package. -/
def namedCore (v : Word) : Nat := v.toNat % 512
def namedBank (v : Word) : Nat := 2 * namedCore v + v.toNat / 512 % 2
/-- The named core lies in the issuing partition. -/
def State.namesCore (s : State) (v : Word) : Prop := s.coreIn (namedCore v) (s.partOf s.cur.1) = true
/-- Every team is among the banks of its set, which lie in its cluster (R19). -/
def State.setsStay (s : State) : Prop :=
  ∀ b T, (s.bank b).team = some T → b ∈ T.setBanks ∧ ∀ e ∈ T.setBanks, e / 16 = b / 16
/-- Banks b and e hold teams of one cluster set. -/
def State.mates (s : State) (b e : Nat) : Prop :=
  ∃ T U, (s.bank b).team = some T ∧ (s.bank e).team = some U ∧ e ∈ T.setBanks ∧ U.launch = T.launch ∧ U.setBanks = T.setBanks
/-- Cores that sets tie to a core, one to the next (R32, R243). -/
inductive State.Tied (s : State) (c : Nat) : Nat → Prop where
  | self : s.Tied c c
  | next {b e : Nat} : s.Tied c (b / 2) → s.mates b e → s.Tied c (e / 2)
def State.activeBank (s : State) (b : Nat) : Prop := (s.core (b / 2)).active = b % 2
/-- No wave of a bank is in capsule mode. -/
def State.noCapsules (s : State) (b : Nat) : Prop := ∀ i, i < 8 → (s.wave (8 * b + i)).capsule = none
/-- The issuing slot has parked in an operation; its wave's registers and the other waves are as they were. -/
structure ParksOp (s t : State) (o : SlotOp) : Prop where
  slot : t.cs = { s.cs with park := .op o, chain := none }
  other : t.cw.slot (otherSlot s.cur.2) = s.cw.slot (otherSlot s.cur.2)
  rest : t.cw = { s.cw with slotA := t.cw.slotA, slotB := t.cw.slotB }
  waves : ∀ w, w ≠ s.cur.1 → t.wave w = s.wave w
/-- A swap of core `c` to its bank `n` has begun, of the cores alone (R32, R243): on every core whose active bank leaves for the
team there, for a mate of it, with a mate that leaves, or for a team one of whose mates comes in. -/
def swapBegun (s t : State) (c n : Nat) : Prop :=
  let comes := fun e => e = 2 * c + n ∨ s.mates (2 * c + n) e
  ∃ out : List Nat, (∀ b, s.activeBank b → comes (otherBank b) → b ∈ out) ∧
    (∀ b ∈ out, s.activeBank b ∧ (∀ e, s.mates b e → s.activeBank e → ¬ comes e → e ∈ out) ∧
      (∀ e, s.mates (otherBank b) e → s.activeBank (otherBank e) → otherBank e ∈ out) ∧
      t.core (b / 2) = { s.core (b / 2) with swapTo := some (1 - b % 2), swapAt := s.cycle }) ∧
    ∀ d, (∀ b ∈ out, b / 2 ≠ d) → t.core d = s.core d
/-- A slot's operation is complete, and of the waves only this slot has changed. -/
def slotDone (s t : State) (w : Nat) (x : SlotId) : Prop :=
  (s.wave w).opDone (t.wave w) x ∧ ∀ v, v ≠ w → t.wave v = s.wave v
/-- A slot of wave w as it leaves issue (R36, R48, R327): at its chain's head, with no valid latch, off its granules, and with the
generation that has been found for its AWWAIT. -/
def stoppedSlot (s : State) (w : Nat) (x : SlotId) : Slot :=
  let y := (s.wave w).slot x
  let found := (s.waiters.find? fun e => e.wave == w && e.x == x).bind (·.found)
  { y with
    pc := resumption s w x, chain := none, latches := []
    park := match y.park with
      | .granule _ => .none
      | .awwait a g d f => .awwait a g d (f.or found)
      | p => p }
/-- A byte of a typed buffer: W, A, C. -/
def bufByte (C : Core) (k o : Nat) : Byte :=
  SMap.get zeros (match k with | 0 => C.wbuf | 1 => C.abuf | _ => C.cbuf) o
/-- R39: the bytes of a bank's share, with SPLIT of its core's partition. -/
def shareOf (b split : Nat) : Nat := 0x10000 * if b % 2 = 0 then split else 8 - split
/-- R238: a bank with no owner counts as matching either owner. -/
def sameOwner (a b : Option Nat) : Prop := a = none ∨ b = none ∨ a = b
/-- Nothing that a team which has retired had issued still acts in a bank (R51; log 53). -/
structure Settled (s : State) (b : Nat) : Prop where
  matrix : ∀ m ∈ (s.core (b / 2)).queue, m.bank ≠ b ∧ (s.bank m.bank).team ≠ none
  xfers : ∀ x ∈ s.xfers, bankOf x.wave ≠ b ∧ b ∉ x.team.setBanks ∧ b ∉ x.receivers
  gates : ∀ e ∈ s.waves, e.2.gateHits (.share b 0) 0x80000 = false
/-- R238: bank `b` of a core of a partition offers itself to a team of VF `vf` with footprint `fp`. -/
structure Offers (s : State) (p b vf fp : Nat) : Prop where
  free : (s.bank b).team = none ∧ s.quarantined (b / 2) = false
  share : fp ≤ shareOf b (s.regBits (0x40 * p) 16 4)
  settled : (s.bank b).owner = some vf ∨ Settled s b
  view : (sameOwner (s.bank b).owner (s.bank (otherBank b)).owner ↔ sameOwner (some vf) (s.bank (otherBank b)).owner) ∨
    (s.bank (otherBank b)).team = none
/-- R42, R244: its view of the typed buffers is at least `view` bytes. -/
def Offers.views (s : State) (b vf view : Nat) : Prop :=
  view ≤ 0x40000 ∧ (¬ sameOwner (some vf) (s.bank (otherBank b)).owner → view ≤ 0x20000)
/-- The lines of an area lie in memory, line `i` at `p i`, no two alike. -/
structure AreaAt (s : State) (w : Nat) (acc : Acc) (base : Word) (p : Nat → Nat) : Prop where
  found : ∀ i, i < 12288 → ∃ leaf, resolve s w acc (base + BitVec.ofNat 64 (128 * i)) 8 = .ok (.phys (p i)) leaf
  aligned : ∀ i, i < 12288 → p i % 128 = 0
  apart : ∀ i j, i < 12288 → j < 12288 → p i = p j → i = j
/-- R245: where an image's byte stands. -/
def imagePlace (p : Nat → Nat) (o : Nat) : Nat := p (o / 128) + o % 128
/-- A byte of a 32-bit word. -/
def byteOfWord (v : W32) (k : Nat) : Byte := BitVec.ofNat 8 (v.toNat / 256 ^ k)
/-- What stands at an offset of a wave's part of an image, but for the constants s0 and k0 (R242, R245; log 15). -/
def waveByte (W : Wave) (o : Nat) : Option Byte :=
  let byte (v k : Nat) : Option Byte := some (BitVec.ofNat 8 (v / 256 ^ k))
  if o < 0x7800 then byte (W.v (o / 512) (o / 4 % 128)).toNat (o % 4)
  else if 0x7808 ≤ o ∧ o < 0x7A00 then byte (W.s (BitVec.ofNat 6 ((o - 0x7800) / 8))).toNat (o % 8)
  else if 0x7A10 ≤ o ∧ o < 0x7B00 then byte (W.k (BitVec.ofNat 4 ((o - 0x7A00) / 16))).toNat (o % 16)
  else if 0x8000 ≤ o ∧ o < 0x9000 then byte (W.entry ((o - 0x8000) / 32) (o / 4 % 8)).toNat (o % 4)
  else if 0x9000 ≤ o ∧ o < 0x9200 then byte (W.gen ((o - 0x9000) / 4)).toNat (o % 4)
  else if 0x9200 ≤ o ∧ o < 0x9280 then byte (W.depth (o - 0x9200)) 0
  else none
/-- What the header of bank `b`'s image says (R245): the team, its buffer view, its rendezvous points, deque, tables and weight set,
and its waves as they stop. -/
structure SavedAs (s : State) (b : Nat) (T : Team) (v : SavedTeam) : Prop where
  team : v.team = T
  view : v.view = s.bufSize b
  bank : (∀ n, v.bank.rv n = (s.bank b).rv n) ∧ v.bank.deque = (s.bank b).deque ∧ v.bank.weights = (s.bank b).weights ∧
    ∀ n, v.bank.table n = (s.bank b).table n
  waves : v.waves.length = 8 ∧ ∀ i, i < 8 → ∃ W, v.waves[i]? = some W ∧ (∀ x, W.slot x = stoppedSlot s (8 * b + i) x) ∧
    W = { s.wave (8 * b + i) with slotA := W.slotA, slotB := W.slotB, frozen := W.frozen }
/-- R245: the bytes of bank `b`'s image, `at_ o` being the one at offset o (log 15). -/
structure ImageOf (s : State) (b : Nat) (T : Team) (at_ : Nat → Byte) : Prop where
  header : ∃ v, SavedAs s b T v ∧ ∀ o, o < 0x3F00 → at_ o = (v.nums.flatMap numBytes).getD o 0
  tables : ∀ n g k j, n < 4 → g < 2 → k < 514 → j < 4 →
    at_ (0x3F00 + 4 * (1028 * n + 514 * g + k) + j) = byteOfWord (((s.bank b).table n).word g k) j
  weights : ∀ o, o < 0x8000 → at_ (0x8000 + o) = SMap.get zeros (s.bank b).weights.bytes o
  waves : ∀ i o x, i < 8 → waveByte (s.wave (8 * b + i)) o = some x → at_ (0x10000 + 0xA000 * i + o) = x
  share : ∀ q, q < T.footprint → q < 0x60000 → at_ (0x60000 + q) = shareByte s b q
  buffers : ∀ k o, k < 3 → o < s.bufSize b → at_ (0xC0000 + k * s.bufSize b + o) = bufByte (s.core (b / 2)) k (s.bufBase b + o)
/-- R245: bank `b` holds the team of an image with header `v`, as a member of the banks `set`. -/
structure RestoredFrom (t : State) (b : Nat) (set : List Nat) (v : SavedTeam) (at_ : Nat → Byte) : Prop where
  team : (t.bank b).team = some { v.team with setBanks := set } ∧ (t.bank b).owner = some v.team.vf
  bank : (∀ n, (t.bank b).rv n = v.bank.rv n) ∧ (t.bank b).deque = v.bank.deque ∧ (t.bank b).weights.fmt = v.bank.weights.fmt
  tables : ∀ n, n < 4 → ((t.bank b).table n).cur = (v.bank.table n).cur ∧ ((t.bank b).table n).loaded = (v.bank.table n).loaded ∧
    ∀ g k j, g < 2 → k < 514 → j < 4 → byteOfWord (((t.bank b).table n).word g k) j = at_ (0x3F00 + 4 * (1028 * n + 514 * g + k) + j)
  weights : ∀ o, o < 0x8000 → SMap.get zeros (t.bank b).weights.bytes o = at_ (0x8000 + o)
  waves : ∀ i, i < 8 → ∃ W, v.waves[i]? = some W ∧ let W' := t.wave (8 * b + i)
    W' = { W with
      sregs := W'.sregs, kregs := W'.kregs, vregs := W'.vregs, ostacks := W'.ostacks, depths := W'.depths, gens := W'.gens
      pend := W'.pend, trap := { W.trap with lanes := W'.trap.lanes } } ∧ (W.pend = .none → W'.pend = .none) ∧
    (∀ o x, o < 0x9200 → waveByte W' o = some x → x = at_ (0x10000 + 0xA000 * i + o)) ∧
    ∀ j, j < 128 → W'.depth j = Nat.min 8 (at_ (0x10000 + 0xA000 * i + 0x9200 + j)).toNat
  share : ∀ q, q < v.team.footprint → q < 0x60000 → shareByte t b q = at_ (0x60000 + q)
  buffers : ∀ k o, k < 3 → o < v.view → bufByte (t.core (b / 2)) k (t.bufBase b + o) = at_ (0xC0000 + k * v.view + o)

end Sys2Proof.Machine

open Sys2Proof Sys2Proof.Machine in
/-- R244, R297: the checks of CTX. BANKSW begins a swap, GATE writes the gate; SPILL, FILL and MIGR park.
R238, R244, R314: a bank may take a team that is free, on a core that is not quarantined, with the share and the view that it
needs, where it changes no other team's view; MIGR keeps a set on distinct cores. That a bank is kept from another VF while
what a retired team has issued still acts there is log 53.
R244, R245: at its completion BANKSW's bank is active; SPILL has written every team of the set to its area and freed its bank:
registers, stacks, footprint, buffers, tables and weights, and the header with slots, points and deque; FILL has put them into
the banks from the areas' bytes; MIGR has moved them. How the header and a wave's part are laid out, and that FILL of an area
without a header restores nothing, is the model's choice (log 15); so is MIGR of a bank without a team (log 59), and where an
operation that completes under a handler leaves its slot (log 12).
R32, R243, R248: a swap begins when its quantum of issue cycles is over, withheld cycles not counted (log 29), on every core that
sets tie together at once; it gates their active banks once their chains and XVs have ended, those of a bank under GATE too (log
64), and their checks have passed, its slots at their chains' heads and off their granules; it ungates the other banks 32 cycles
after it began: their MWAITs read again. -/
def Obligations.ContextsSwapSpillFillAndMove : Prop :=
  (∀ (s : State) (i : Instr) (l : List Word) (n : Nat), ctxForm s i = some (l, n) → s.unlimited → s.cw.system = true →
    (∀ v ∈ l, 2 ^ n ≤ v.toNat → s.trapsBy (exec i s) (instrTrap .ill 0 s.cs.pc))) ∧
  (∀ (s : State) (p b vf fp view : Nat), s.partOfCore (b / 2) = some p →
    (s.mayTake b vf fp view = true ↔ Offers s p b vf fp ∧ Offers.views s b vf view)) ∧
  (∀ (s : State) (b : Nat), let o := (s.bank (otherBank b)).owner
    (sameOwner (s.bank b).owner o → s.bufSize b = 0x40000 ∧ s.bufBase b = 0) ∧
    (¬ sameOwner (s.bank b).owner o → s.bufSize b = 0x20000 ∧ s.bufBase b = 0x20000 * (b % 2))) ∧
  (∀ (s : State) (p b b' : Nat), s.partOfCore (b' / 2) = some p →
    ((s.bank b).team = none → s.migrOk b b' = s.bankFree b') ∧
    ∀ T, (s.bank b).team = some T → (s.migrOk b b' = true ↔ Offers s p b' T.vf T.footprint ∧
      Offers.views s b' T.vf (s.bufSize b) ∧
      ∀ e U, e / 2 = b' / 2 → e ≠ T.bank → (s.bank e).team = some U → ¬ (U.launch = T.launch ∧ U.setBanks = T.setBanks))) ∧
  (∀ (s : State) (a b : SReg), s.unlimited → s.cw.system = true →
    let v := s.S a
    let misplaced := (s.S b).toNat % 65536 ≠ 0
    let free := s.bankFree (namedBank v)
    (v.toNat < 2 ^ 11 → ¬ s.namesCore v → s.trapsBy (exec (.gate a) s) (instrTrap .prot v s.cs.pc)) ∧
    (v.toNat < 2 ^ 10 → ¬ s.namesCore v → s.trapsBy (exec (.banksw a) s) (instrTrap .prot v s.cs.pc) ∧
      s.trapsBy (exec (.spill a b) s) (instrTrap .prot v s.cs.pc) ∧
      (free = true → s.trapsBy (exec (.fill a b) s) (instrTrap .prot v s.cs.pc))) ∧
    (v.toNat < 2 ^ 10 → s.namesCore v → misplaced → s.trapsBy (exec (.spill a b) s) (instrTrap .malign (s.S b) s.cs.pc) ∧
      (free = true → s.trapsBy (exec (.fill a b) s) (instrTrap .malign (s.S b) s.cs.pc))) ∧
    (free = false → s.trapsBy (exec (.fill a b) s) (instrTrap .ill 0 s.cs.pc)) ∧
    let fits := namedCore v / 8 = namedCore (s.S b) / 8 ∧ s.migrOk (namedBank v) (namedBank (s.S b)) = true
    (¬ fits → s.trapsBy (exec (.migr a b) s) (instrTrap .ill 0 s.cs.pc)) ∧
    (v.toNat < 2 ^ 10 → (s.S b).toNat < 2 ^ 10 → fits → ¬ (s.namesCore v ∧ s.namesCore (s.S b)) →
      s.trapsBy (exec (.migr a b) s) (instrTrap .prot v s.cs.pc))) ∧
  (∀ (s : State) (a b : SReg), s.unlimited → s.cw.system = true → (s.S a).toNat < 2 ^ 10 → s.namesCore (s.S a) →
    let v := s.S a
    let c := namedCore v
    let n := v.toNat / 512 % 2
    ((s.core c).active = n → ∃ t, exec (.banksw a) s = .next t ∧ GoesOn s t s.S s.K s.cw.v (s.slotAt (s.after 4))) ∧
    (s.setsStay → (s.core c).active = 1 - n → (s.core c).swapTo = none →
      ∃ t u, exec (.banksw a) s = .next t ∧ ParksOp s t (.banksw v) ∧ OnlyWave s u ∧
        t = { u with waves := t.waves, cores := t.cores } ∧ swapBegun u t c n) ∧
    ((s.core c).active ≠ n → (s.core c).swapTo ≠ none → ∃ t, exec (.banksw a) s = .next t ∧ parksAs s t (.op (.banksw v))) ∧
    ((s.bank (namedBank v)).team = none → (s.S b).toNat % 65536 = 0 →
      ∃ t, exec (.spill a b) s = .next t ∧ GoesOn s t s.S s.K s.cw.v (s.slotAt (s.after 4))) ∧
    (∀ T, (s.bank (namedBank v)).team = some T → s.setsStay → (∀ e ∈ T.setBanks, s.noCapsules e) →
      (s.S b).toNat % 65536 = 0 → ∃ t, exec (.spill a b) s = .next t ∧ parksAs s t (.op (.spill v (s.S b)))) ∧
    (s.bankFree (namedBank v) = true → (s.S b).toNat % 65536 = 0 →
      ∃ t, exec (.fill a b) s = .next t ∧ parksAs s t (.op (.fill v (s.S b)))) ∧
    ((s.S b).toNat < 2 ^ 10 → s.namesCore (s.S b) → namedCore v / 8 = namedCore (s.S b) / 8 →
      s.migrOk (namedBank v) (namedBank (s.S b)) = true →
      ∃ t, exec (.migr a b) s = .next t ∧ parksAs s t (.op (.migr v (s.S b))))) ∧
  (∀ (s : State) (a : SReg), s.unlimited → s.cw.system = true → (s.S a).toNat < 2 ^ 11 → s.namesCore (s.S a) →
    ∃ t u, exec (.gate a) s = .next t ∧ OnlyWave s u ∧ t = { u with waves := t.waves, banks := t.banks } ∧ wentOn s t ∧
      t.bank (namedBank (s.S a)) = { s.bank (namedBank (s.S a)) with gated := (s.S a).getLsbD 10 } ∧
      ∀ b, b ≠ namedBank (s.S a) → t.bank b = s.bank b) ∧
  (∀ (s : State) (w : Nat) (x : SlotId) (v : Word), (s.wave w).awaits x (.banksw v) →
    let c := namedCore v
    let n := v.toNat / 512 % 2
    ((s.core c).active = n → ∃ t, exec (.ctxComplete w x) s = .next t ∧ t = { s with waves := t.waves } ∧ slotDone s t w x) ∧
    (s.setsStay → (s.core c).active = 1 - n → (s.core c).swapTo = none →
      ∃ t, exec (.ctxComplete w x) s = .next t ∧ t = { s with cores := t.cores } ∧ swapBegun s t c n) ∧
    ((s.core c).active ≠ n → (s.core c).swapTo ≠ none → exec (.ctxComplete w x) s = .next s)) ∧
  (∀ (s : State) (w : Nat) (x : SlotId) (v base : Word) (key : Nat) (set : List Nat) (T : Nat → Team) (p : Nat → Nat → Nat),
    (s.wave w).awaits x (.spill v base) → namedBank v ∈ set → set.Nodup → bankOf w ∉ set → s.plainTeam w →
    (∀ j e, set[j]? = some e → (s.bank e).team = some (T j) ∧ (T j).launch = key ∧ (T j).setBanks = set ∧ s.noCapsules e ∧
      AreaAt s w .store (base + BitVec.ofNat 64 (0x180000 * j)) (p j)) →
    (∀ j j' i i', p j i = p j' i' → j < set.length → j' < set.length → i < 12288 → i' < 12288 → j = j') →
    ((∃ e ∈ set, s.bankQuiet e = false) → exec (.ctxComplete w x) s = .next s) ∧
    ((∀ e ∈ set, s.bankQuiet e = true) → ∃ t, exec (.ctxComplete w x) s = .next t ∧ (s.wave w).opDone (t.wave w) x ∧
      (∀ j e, set[j]? = some e → ImageOf s e (T j) (fun o => t.byte (imagePlace (p j) o)) ∧ (t.bank e).team = none ∧
        ∀ i, i < 8 → (t.wave (8 * e + i)).resident = false) ∧
      ∀ a, (∀ j i, j < set.length → i < 12288 → a / 128 ≠ p j i / 128) → t.byte a = s.byte a)) ∧
  (∀ (s : State) (w : Nat) (x : SlotId) (v base : Word) (p : Nat → Nat → Nat) (n : Nat) (sv : Nat → SavedTeam),
    (s.wave w).awaits x (.fill v base) → 0 < n → (∀ j, j < n → bankOf w ≠ namedBank v + 2 * j) → s.plainTeam w →
    (∀ j, j < n → AreaAt s w .load (base + BitVec.ofNat 64 (0x180000 * j)) (p j)) →
    let at_ := fun j o => s.byte (imagePlace (p j) o)
    let set := (List.range n).map fun j => namedBank v + 2 * j
    (∀ j, j < n → headOf (at_ j) = some (sv j) ∧ s.imageOk (sv j) = true ∧ (sv j).team.setBanks.length = n ∧
      (sv j).team.launch = (sv 0).team.launch ∧ (sv j).team.setIx = j ∧ (sv j).team.waves ≠ 0 ∧
      (∀ W ∈ (sv j).waves, W.capsule = none)) →
    s.vfPart (sv 0).team.vf = s.partOf w →
    let fits := namedCore v % 8 + n ≤ 8 ∧ ∀ j, j < n →
      s.mayTake (namedBank v + 2 * j) (sv j).team.vf (sv j).team.footprint (sv j).view = true
    (fits → ∃ t, exec (.ctxComplete w x) s = .next t ∧ (s.wave w).opDone (t.wave w) x ∧ (∀ a, t.byte a = s.byte a) ∧
      ∀ j, j < n → RestoredFrom t (namedBank v + 2 * j) set (sv j) (at_ j)) ∧
    (¬ fits → (s.wave w).frozen = none → ∃ t, exec (.ctxComplete w x) s = .next (takeTrap t w x
        (instrTrap .ill 0 ((s.wave w).slot x).pc)) ∧ t = { s with waves := t.waves, cur := (w, x) } ∧
      t.wave w = (s.wave w).setSlot x { (s.wave w).slot x with park := .none } ∧ ∀ u, u ≠ w → t.wave u = s.wave u)) ∧
  (∀ (s : State) (w : Nat) (x : SlotId) (v base : Word) (p : Nat → Nat), (s.wave w).awaits x (.fill v base) →
    AreaAt s w .load base p → s.plainTeam w → headOf (fun o => s.byte (imagePlace p o)) = none →
    ∃ t, exec (.ctxComplete w x) s = .next t ∧ t = { s with waves := t.waves } ∧ slotDone s t w x) ∧
  (∀ (s : State) (w : Nat) (x : SlotId) (v v' : Word), (s.wave w).awaits x (.migr v v') → (s.bank (namedBank v)).team = none →
    ∃ t, exec (.ctxComplete w x) s = .next t ∧ t = { s with waves := t.waves } ∧ slotDone s t w x) ∧
  (∀ (s : State) (w : Nat) (x : SlotId) (v v' : Word) (T : Team), ((s.wave w).slot x).park = .op (.migr v v') →
    (s.wave w).frozen = none ∨ (s.wave w).handler = true →
    let b := namedBank v
    let b' := namedBank v'
    (s.bank b).team = some T → bankOf w ≠ b → bankOf w ≠ b' → b ≠ b' → s.noCapsules b → s.migrOk b b' = true →
    (s.bankQuiet b = false → exec (.ctxComplete w x) s = .next s) ∧
    (s.bankQuiet b = true → ∃ t, exec (.ctxComplete w x) s = .next t ∧
      (t.wave w).slot x = ((s.wave w).slot x).completed ∧ (t.bank b).team = none ∧
      (t.bank b').team = some { T with setBanks := T.setBanks.map fun e => if e = b then b' else e } ∧
      (∀ q, q < T.footprint → shareByte t b' q = shareByte s b q) ∧
      (∀ k o, k < 3 → o < s.bufSize b →
        bufByte (t.core (b' / 2)) k (t.bufBase b' + o) = bufByte (s.core (b / 2)) k (s.bufBase b + o)) ∧
      ((∀ n, (t.bank b').table n = (s.bank b).table n) ∧ (∀ n, (t.bank b').rv n = (s.bank b).rv n) ∧
        (t.bank b').deque = (s.bank b).deque ∧ (t.bank b').weights = (s.bank b).weights) ∧
      (∀ i, i < 8 → let W := s.wave (8 * b + i)
        let W' := t.wave (8 * b' + i)
        W' = { W with slotA := W'.slotA, slotB := W'.slotB, frozen := W'.frozen, pend := W'.pend, gates := [] } ∧
        (W.pend = .none → W'.pend = .none) ∧
        ∀ y, ((W.slot y).park.isOp = false → W'.slot y = stoppedSlot s (8 * b + i) y) ∧
          (W'.slot y).shown = (stoppedSlot s (8 * b + i) y).shown) ∧
      ∀ a, t.byte a = s.byte a)) ∧
  (∀ (s : State) (c : Nat), s.setsStay →
    let C := s.core c
    (C.active < 2 → C.swapTo = none → s.quarantined c = false → s.teamReady (2 * c + (1 - C.active)) = true →
      ((s.bank (2 * c + C.active)).team = none ∨ C.since + s.quantum c ≤ s.cycle - s.withheld →
        ∃ t, exec (.swapQuantumExpiry c) s = .next t ∧ t = { s with cores := t.cores } ∧ swapBegun s t c (1 - C.active)) ∧
      ((s.bank (2 * c + C.active)).team ≠ none → s.cycle - s.withheld < C.since + s.quantum c →
        exec (.swapQuantumExpiry c) s = .next s)) ∧
    let swaps := fun d => s.Tied c d ∧ (s.core d).swapTo ≠ none ∧ s.quarantined d = false
    (swaps c → (∀ d, swaps d → (s.core d).active < 2 ∧ s.noCapsules (2 * d + (s.core d).active)) →
      let leaves := fun w => ∃ d, swaps d ∧ bankOf w = 2 * d + (s.core d).active
      let still := (∀ d, swaps d → ∀ k ∈ (s.core d).checks, k.phase = .passed) ∧ ∀ w, leaves w →
        (s.bankLive (bankOf w) = true → s.inChain w .a = false ∧ s.inChain w .b = false) ∧ ∀ x pc p, (s.wave w).pend ≠ .xv x pc p
      (¬ still → exec (.bankSwap c) s = .next s) ∧
      (still → ∃ t, exec (.bankSwap c) s = .next t ∧ t = { s with waves := t.waves, cores := t.cores } ∧
        (∀ d, swaps d → t.core d = { s.core d with active := 2 }) ∧ (∀ d, ¬ swaps d → t.core d = s.core d) ∧
        (∀ w, ¬ leaves w → t.wave w = s.wave w) ∧
        ∀ w, leaves w → t.wave w = { s.wave w with
          slotA := stoppedSlot s w .a, slotB := stoppedSlot s w .b, frozen := (t.wave w).frozen })) ∧
    (swaps c → (s.core c).active = 2 →
      (∀ d n, swaps d → (s.core d).swapTo = some n → (s.core d).active = 2 → s.noCapsules (2 * d + n)) →
      (s.cycle < C.swapAt + 32 → exec (.bankUngate c) s = .next s) ∧
      (C.swapAt + 32 ≤ s.cycle → ∃ t, exec (.bankUngate c) s = .next t ∧
        t = { s with cores := t.cores, waiters := t.waiters } ∧
        (∀ d n, swaps d → (s.core d).active = 2 → (s.core d).swapTo = some n →
          t.core d = { s.core d with active := n, swapTo := none, since := s.cycle - s.withheld } ∧
          ∀ w x r len a wide l, bankOf w = 2 * d + n → (s.wave w).resident = true → ((s.wave w).slot x).live = true →
            ((s.wave w).slot x).park = .mwait r len a wide l → ∃ e ∈ t.waiters, e.wave = w ∧ e.x = x ∧ e.woken = true) ∧
        ∀ d, ¬ (swaps d ∧ (s.core d).active = 2) → t.core d = s.core d)))

namespace Sys2Proof.Machine

/-! ### The service -/

/-- R287: the fields of a partition's ring block. -/
def ringAt (p : Nat) : Nat := 0x8000 + 0x40 * p
def State.ringSize (s : State) (p : Nat) : Nat := 2 ^ s.regBits (ringAt p + 8) 0 4
def State.ringW (s : State) (p : Nat) : Nat := s.regBits (ringAt p + 8) 32 32
def State.ringR (s : State) (p : Nat) : Nat := s.regBits (ringAt p + 16) 0 32
/-- R287: the ring is enabled and has a free slot. -/
def State.ringFree (s : State) (p : Nat) : Prop :=
  s.regBits (ringAt p + 8) 0 4 ≠ 0 ∧
    (s.ringW p + 2 * s.ringSize p - s.ringR p % (2 * s.ringSize p)) % (2 * s.ringSize p) < s.ringSize p
/-- R284: a tenant cause's code. -/
def isTenantCode (n : Nat) : Prop := ∃ c : Cause, c.service = false ∧ c.code.toNat = n
/-- The slot that trapped, by TSLOT. -/
def trappedSlot (W : Wave) : SlotId := if W.trap.tslot.getLsbD 0 then .b else .a
/-- R172: a write to the window at `off` has woken those that watch its line. -/
def wakesWindow (s t : State) (off : Nat) : Prop :=
  t.waiters = s.waiters.map fun e => if e.line = (2000, off / 128) then { e with woken := true } else e
/-- A write at `off` that stores nothing. -/
def storesNone (s t : State) (off : Nat) : Prop := t = { s with waiters := t.waiters } ∧ wakesWindow s t off
/-- R242: the context-access window of wave `w`. -/
def contextAt (w : Nat) : Nat := 0x10000000 + 0x10000 * w
/-- R282: wave w has left handler mode or its park, and its two slots stand as they were kept, the one that trapped at TNEXT.
Beside what the waiting slots watch, nothing else has changed. -/
def resumedAs (s t : State) (w : Nat) (f : SlotId → Slot) : Prop :=
  t = { s with waves := t.waves, waiters := t.waiters } ∧ (∀ v, v ≠ w → t.wave v = s.wave v) ∧
  t.wave w = { s.wave w with
    handler := false, frozen := none, service := none, syncs := (t.wave w).syncs
    slotA := (t.wave w).slotA, slotB := (t.wave w).slotB } ∧
  SlotsBack s t w f (trappedSlot (s.wave w))
/-- R34: the flows of wave w are over, and its transfers have been cancelled. It retires at once if all that it has issued is
complete, and its team goes with its last wave; else with the last of that (R275). -/
def killedAs (s t : State) (w : Nat) (T : Team) : Prop :=
  (∀ y, ((t.wave w).slot y).live = false) ∧ (t.wave w).service = none ∧ (∀ v, v ≠ w → t.wave v = s.wave v) ∧
  (∀ a, t.byte a = s.byte a) ∧ (∀ x, x ∈ t.xfers ↔ x ∈ s.xfers ∧ ¬ (x.wave = w ∧ x.launch = T.launch)) ∧
  ((s.wave w).unfinished = true → (t.wave w).resident = (s.wave w).resident ∧ (t.wave w).gates = (s.wave w).gates ∧
    ((s.wave w).gates = [] → (t.wave w).pend = (s.wave w).pend) ∧ (t.bank (w / 8)).team = some T) ∧
  ((s.wave w).unfinished = false → (t.wave w).resident = false ∧
    let gone := T.retired ||| BitVec.ofNat 8 (2 ^ (w % 8))
    (t.bank (w / 8)).team = if members gone = T.waves then none else some { T with retired := gone })

end Sys2Proof.Machine

open Sys2Proof Sys2Proof.Machine in
/-- R287: a record of 16 bytes goes into the partition's ring and raises interrupt 64 + p, once the ring has a free slot. A
record that would fall on a page of a verified image is not written, though WIDX advances: the model's choice (log 20).
R282, R288, R314: RESUME resumes as TRET does, or continues the handler after a TIMING park; DELIVER enters the handler with
the code and FWD, or kills; KILL kills the wave (R34); a write that does not act changes nothing. That the handler's flow
stands in the slot that trapped, with the other slot free, is the model's choice (log 12). -/
def Obligations.ServiceAnswersResumeDeliverOrKill : Prop :=
  (∀ (s : State) (p : Nat), p < 48 →
    (∀ r l, (s.part p).ringWait = r :: l → s.ringFree p → r.wave < 8192 →
      ∃ t, exec (.serviceRingRecord p) s = .next t ∧
        (let a := (s.reg (ringAt p)).toNat + 16 * (s.ringW p % s.ringSize p)
         (s.guardedIn a 16 = false → quad t a = 0xFFF0000010000000 + 0x10000 * r.wave ∧
           quad t (a + 8) = r.cause.toNat + 2 ^ 8 * r.nested.toNat + 2 ^ 9 * r.eng.toNat ∧
           ∀ b, ¬ (a ≤ b ∧ b < a + 16) → t.byte b = s.byte b) ∧
         (s.guardedIn a 16 = true → ∀ b, t.byte b = s.byte b)) ∧
        t.ringW p = (s.ringW p + 1) % (2 * s.ringSize p) ∧ t.outputs = s.outputs ++ [.interrupt (64 + p)] ∧
        (t.part p).ringWait = l ∧ ∀ q, q ≠ p → t.part q = s.part q) ∧
    ((s.part p).ringWait = [] ∨ ¬ s.ringFree p → exec (.serviceRingRecord p) s = .next s)) ∧
  (∀ (s : State) (w : Nat) (v : Word) (sv : Service) (a b : Slot), (s.wave w).resident = true →
    (s.wave w).service = some sv → sv.nested = false → (s.wave w).capsule = none → (s.wave w).heldFault = none →
    (v.getLsbD 0 = true →
      ((s.wave w).handler = true → ∃ t, exec (.resume w v) s = .next t ∧
        t = { s with waves := t.waves, waiters := t.waiters } ∧ readsAgain t w ∧
        t.wave w = { s.wave w with service := none } ∧ ∀ u, u ≠ w → t.wave u = s.wave u) ∧
      ((s.wave w).handler = false → (s.wave w).frozen = some (a, b) →
        ∃ t, exec (.resume w v) s = .next t ∧ resumedAs s t w fun y => match y with | .a => a | .b => b)) ∧
    (v.toNat < 256 → isTenantCode v.toNat → (s.wave w).handler = false → (s.wave w).trap.thndl ≠ 0 →
      ∃ t, exec (.deliver w v) s = .next t ∧ t = { s with waves := t.waves, waiters := t.waiters } ∧ wakesWindow s t (contextAt w + 0xFFF0) ∧
        (∀ u, u ≠ w → t.wave u = s.wave u) ∧
        t.wave w = { s.wave w with
          handler := true, service := none, slotA := (t.wave w).slotA, slotB := (t.wave w).slotB
          trap := { (s.wave w).trap with tcause := BitVec.ofNat 8 v.toNat, tinfo := (t.wave w).trap.tinfo } } ∧
        (∀ n, (t.wave w).trap.tinfo.getLsbD n = if n = 10 then true else (s.wave w).trap.tinfo.getLsbD n) ∧
        ((t.wave w).slot (trappedSlot (s.wave w))).shown =
          ⟨true, (s.wave w).trap.thndl, laneMask fun i => i = (s.wave w).trap.tlane.toNat, 0, false⟩ ∧
        ((t.wave w).slot (otherSlot (trappedSlot (s.wave w)))).live = false)) ∧
  (∀ (s : State) (w : Nat) (v : Word) (sv : Service) (T : Team), (s.wave w).resident = true →
    (s.wave w).service = some sv → (s.wave w).capsule = none → s.teamOf w = some T → s.opBanksOf w = [] →
    (v.getLsbD 0 = true → ∃ t, exec (.kill w v) s = .next t ∧ killedAs s t w T) ∧
    (v.toNat < 256 → isTenantCode v.toNat → sv.nested = false → (s.wave w).handler = false → (s.wave w).trap.thndl = 0 →
      ∃ t, exec (.deliver w v) s = .next t ∧ killedAs s t w T)) ∧
  (∀ (s : State) (w : Nat) (v : Word),
    ((s.wave w).resident = false ∨ (s.wave w).service = none ∨ v.getLsbD 0 = false ∨
      (∃ sv, (s.wave w).service = some sv ∧ sv.nested = true) →
      ∃ t, exec (.resume w v) s = .next t ∧ storesNone s t (contextAt w + 0xFFF8)) ∧
    ((s.wave w).resident = false ∨ (s.wave w).service = none ∨ 256 ≤ v.toNat ∨ ¬ isTenantCode v.toNat ∨
      (∃ sv, (s.wave w).service = some sv ∧ (sv.nested = true ∨ (s.wave w).handler = true)) →
      ∃ t, exec (.deliver w v) s = .next t ∧ storesNone s t (contextAt w + 0xFFF0)) ∧
    ((s.wave w).resident = false ∨ (s.wave w).service = none ∨ v.getLsbD 0 = false →
      ∃ t, exec (.kill w v) s = .next t ∧ storesNone s t (contextAt w + 0xFFE8)))

namespace Sys2Proof.Machine

/-! ### Margin control -/

/-- R250: MGN_LOG of an event. -/
def loggedAs (v pc : Word) (stage : Nat) (inj : Bool) : Prop :=
  v.toNat = pc.toNat % 2 ^ 56 + stage * 2 ^ 56 + inj.toNat * 2 ^ 60
/-- R247: two checks follow one instance: a row at the draining edge, or the instruction of a slot. -/
def sameInstance (d k : Check) : Prop := if d.stage = 6 ∨ k.stage = 6 then d.stage = k.stage else d.wave = k.wave ∧ d.x = k.x
/-- Only margin control, the event counters and the instances under check of core `c` have changed: its margin registers are
`m`, and of the instances `new` stands in the place of `k`. -/
def marginTo (s t : State) (c : Nat) (m : Margin) (k : Check) (new : Option Check) : Prop :=
  t.core c = { s.core c with margin := m, checks := (t.core c).checks, evcnt := (t.core c).evcnt } ∧
  (∀ d, d ≠ c → t.core d = s.core d) ∧
  ∀ d, d ∈ (t.core c).checks ↔ some d = new ∨ (d ∈ (s.core c).checks ∧ ¬ sameInstance d k)
/-- Only the margin registers of core `c` have changed, to `m`. -/
def marginAlone (s t : State) (c : Nat) (m : Margin) : Prop :=
  t = { s with cores := t.cores } ∧ t.core c = { s.core c with margin := m } ∧ ∀ d, d ≠ c → t.core d = s.core d
/-- An instance under check in core `c`, which is not quarantined. -/
structure UnderCheck (s : State) (c : Nat) (k : Check) : Prop where
  open_ : k ∈ (s.core c).checks
  home : coreOf k.wave = c
  here : s.gone k = false
  stage : k.stage < 16
  alone : ∀ d ∈ (s.core c).checks, sameInstance d k → d = k
  caught : ∀ d ∈ (s.core c).checks, d.inj = true → k.inj = true → d = k
  running : s.quarantined c = false
  window : (s.margin c).win < 16
/-- A step that fails a check of the instance `k`: a late sample at its stage, one of an injection, or the injection. -/
def failsCheck (c : Nat) (k : Check) (i : Instr) : Prop :=
  (∃ late, i = .shadowCheck k.wave k.x (BitVec.ofNat 4 k.stage) late ∧ (late = true ∨ k.inj = true)) ∨
    (i = .injectionFire c ∧ k.inj = true)
/-- R250, R253: MGN_INJ after an injection has fired that it still holds: EN clears without PERS. -/
def injAfter (m : Margin) (k : Check) : Word :=
  if k.inj = true ∧ k.armed = true ∧ k.pers = false then m.inj &&& ~~~(BitVec.twoPow 64 17) else m.inj
/-- R251: the margin registers with the supply moving back to STEP. -/
def movedBack (m : Margin) : Margin := { m with state := if m.state = 2 then 2 else if m.step ≠ m.cur ∨ m.state = 1 then 1 else m.state }
/-- R252: the aligned window of a cycle. -/
def windowAt (m : Margin) (cycle : Nat) : Nat := cycle / 2 ^ (m.win + 10)
/-- R252: the rerolls that the governor has counted in the window of a cycle. -/
def inWindowCount (m : Margin) (cycle : Nat) : Nat := (m.errs.filter fun e => windowAt m e == windowAt m cycle).length
/-- R312: a window without an escalation has ended since the last one that was noted. -/
def runEnded (m : Margin) (cycle : Nat) : Prop :=
  windowAt m m.seen < windowAt m cycle ∧
    (windowAt m m.seen + 1 < windowAt m cycle ∨ ∀ e, m.escAt = some e → windowAt m e ≠ windowAt m m.seen)
/-- R252, R254: the margin registers after a reroll: of two in one cycle MGN_LOG keeps the higher stage code. -/
structure RerolledTo (s : State) (m : Margin) (k : Check) (M : Margin) : Prop where
  rest : M = { m with
    rerolls := m.rerolls + 1, log := M.log, logAt := some s.cycle, errs := M.errs, raiseDue := M.raiseDue, raiseAt := M.raiseAt
    inj := injAfter m k }
  log : if m.logAt = some s.cycle ∧ k.stage < m.log.toNat / 2 ^ 56 % 16 then M.log = m.log else loggedAs M.log k.pc k.stage k.inj
  count : inWindowCount M s.cycle = inWindowCount m s.cycle + m.gov.toNat
  raise : if m.gov then M.raiseDue = (m.events ≠ 0 ∧ m.events.toNat ≤ inWindowCount M s.cycle : Bool) ∧ M.raiseAt = some s.cycle
    else M.raiseDue = m.raiseDue ∧ M.raiseAt = m.raiseAt
/-- R312, R346: the margin registers with the event windows that have ended noted: ERUN is 0 after one without an escalation, but
stays on a core that is quarantined or about to be. -/
structure WindowsNoted (m M : Margin) (cycle : Nat) : Prop where
  rest : M = { m with qinfo := M.qinfo, seen := M.seen } ∧ M.qinfo.toNat / 256 = m.qinfo.toNat / 256
  ended : m.state ≠ 2 → m.qdue = 0 → windowAt m m.seen < windowAt m cycle → M.seen = cycle ∧
    (runEnded m cycle → M.qinfo.toNat % 256 = 0) ∧ (¬ runEnded m cycle → M.qinfo = m.qinfo)
  else_ : m.state = 2 ∨ m.qdue ≠ 0 ∨ windowAt m cycle ≤ windowAt m m.seen → M = m
/-- R312, R313: an instance that has passed at step 0 is complete: the supply moves back, or the run quarantines the core and the
supply stays. -/
def CompletedAtStep0 (m M : Margin) (cycle : Nat) : Prop :=
  ∃ E, WindowsNoted m E cycle ∧
    M = if E.qcount ≠ 0 ∧ E.qcount ≤ E.qinfo.toNat % 256 then { E with qdue := 2 } else movedBack E
/-- What slot x of a wave has issued and not delivered, by a stage that it has gone through: its address. -/
def inFlightAt (s : State) (w : Nat) (x : SlotId) (stage : Nat) (pc : Word) : Prop :=
  (stage = 4 ∧ ∃ p, (s.wave w).pend = .xv x pc p) ∨
  ((stage = 5 ∨ stage = 7) ∧ ((∃ l r, (s.wave w).pend = .load x pc l r ∧ stage ∈ l) ∨
    ((∀ q l r, (s.wave w).pend = .load x q l r → stage ∉ l) ∧ ∃ g, gateOf s w x = some g ∧ g.pc = pc ∧ stage ∈ g.stages)))
/-- R248: how often the instance of slot x has been rerolled, how many stage entries of it have been counted, and the words that it
is to issue again from: a check of it that has passed keeps them; else none. -/
def hadBefore (s : State) (w : Nat) (x : SlotId) (n en : Nat) (l : List W32) : Prop :=
  (n = 0 ∧ en = 0 ∧ l = [] ∧ ∀ d ∈ (s.core (coreOf w)).checks, d.stage ≠ 6 → ¬ (d.wave = w ∧ d.x = x)) ∨
    ∃ d ∈ (s.core (coreOf w)).checks, d.stage ≠ 6 ∧ d.wave = w ∧ d.x = x ∧ d.phase = .passed ∧ s.gone d = false ∧
      d.rerolls = n ∧ d.entered = en ∧ l = (if d.again then d.words else []) ∧
      ∀ e ∈ (s.core (coreOf w)).checks, sameInstance e d → e = d
/-- The same of the row at the draining edge. -/
def rowHadBefore (s : State) (w : Nat) (n : Nat) : Prop :=
  (n = 0 ∧ ∀ d ∈ (s.core (coreOf w)).checks, d.stage ≠ 6) ∨
    ∃ d ∈ (s.core (coreOf w)).checks, d.stage = 6 ∧ d.wave = w ∧ d.phase = .passed ∧ d.rerolls = n ∧
      ∀ e ∈ (s.core (coreOf w)).checks, e.stage = 6 → e = d
/-- A wave whose XV, if it is the instance of slot x, a check holds or no longer holds. -/
def xvHeld (W : Wave) (x : SlotId) (stage : Nat) (held : Bool) : Wave :=
  match W.pend with
  | .xv y pc p => if stage = 4 ∧ y = x then { W with pend := .xv y pc { p with held := held } } else W
  | _ => W
/-- R314: the order in which the target of a bank is searched. -/
def targetOrder (core : Nat) : List Nat :=
  ([1, 2, 3, 4, 5, 6, 7].map fun i => core / 8 * 8 + (core % 8 + i) % 8).flatMap fun c => [2 * c, 2 * c + 1]
/-- R314: a bank that may take the team: its core holds no other team of the set. -/
def takesTeam (s : State) (b : Nat) (T : Team) (b' : Nat) : Prop :=
  s.mayTake b' T.vf T.footprint (s.bufSize b) = true ∧
    ∀ e U, e / 2 = b' / 2 → (s.bank e).team = some U → ¬ (U.launch = T.launch ∧ U.setBanks = T.setBanks)
/-- R313, R314: what bank `b` waits for has ended, and it alone of its core is to be moved. -/
structure ToBeMoved (s : State) (c b : Nat) (T : Team) : Prop where
  core : s.quarantined c = true ∧ (b = 2 * c ∨ b = 2 * c + 1)
  team : (s.bank b).team = some T ∧ T.bank = b
  alone : ∀ b', (b' = 2 * c ∨ b' = 2 * c + 1) → b' ≠ b → (s.bank b').team = none
  quiet : s.bankQuiet b = true ∧ b ∉ (s.margin c).handled
  capsules : s.noCapsules b

end Sys2Proof.Machine

open Sys2Proof Sys2Proof.Machine in
/-- R247, R250, R253, R254: a check that fails rerolls its instance: REROLLS, MGN_LOG and the governor's count; an injection
without PERS clears EN. A check that passes releases the instance. A late sample begins the check of an instance that a slot
has issued, is to issue, or that stands at the draining edge.
R248: the rerolls of an instance are counted together, from one stage to the next.
R311, R312: past LIMIT the instance escalates and is executed once at step 0; passed, the supply moves back to STEP, or the
run quarantines the core and the supply stays; failed, the core falls due for quarantine.
R251, R252: the governor's raise, the end of an event window, the end of a settling.
R313, R315: quarantine stops the core at step 0, with its cause and cycle in the log; a check that fails there raises MACHINE
and rolls the launch back. What a slot issued before a trap, or for lanes that have left it, stays in the commit gate (log 54).
R313, R314: each of its teams is moved to the first bank in the order of the search that may take it, with a QUAR record; if
there is none, its waves are parked with TIMING.
How an instance under check waits, and where it stands, is the model's choice (log 33). -/
def Obligations.MarginEscalatesAndQuarantines : Prop :=
  ((∀ (s : State) (c : Nat) (k : Check), UnderCheck s c k →
    let m := s.margin c
    (k.phase = .failing → ∀ i, failsCheck c k i →
      (k.rerolls < m.limit → ∃ t M, exec i s = .next t ∧ t = { s with cores := t.cores } ∧ RerolledTo s m k M ∧
        marginTo s t c M k
          (some { k with rerolls := k.rerolls + 1, inj := k.inj && k.pers, armed := k.armed && k.pers, fired := true })) ∧
      (m.limit ≤ k.rerolls → ∃ t L q, exec i s = .next t ∧ t = { s with cores := t.cores } ∧ loggedAs L k.pc k.stage k.inj ∧
        (m.qdue = 0 ∧ runEnded m s.cycle → q.toNat % 256 = 1) ∧
        (¬ (m.qdue = 0 ∧ runEnded m s.cycle) → q.toNat % 256 = Nat.min (m.qinfo.toNat % 256 + 1) 255) ∧ q.toNat / 256 = m.qinfo.toNat / 256 ∧
        marginTo s t c { m with
          escal := m.escal + 1, log := L, logAt := none, escAt := some s.cycle, seen := s.cycle, inj := injAfter m k, qinfo := q
          state := 1, step := if m.gov then m.step - m.raise else m.step } k (some { k with phase := .step0 }))) ∧
    (k.phase = .failing → k.inj = false →
      ∃ t, exec (.shadowCheck k.wave k.x (BitVec.ofNat 4 k.stage) false) s = .next t ∧
        t = { s with waves := t.waves, cores := t.cores } ∧ (∀ w, w ≠ k.wave → t.wave w = s.wave w) ∧
        marginTo s t c m k (some { k with phase := .passed }) ∧
        t.wave k.wave = if k.again then s.wave k.wave else xvHeld (s.wave k.wave) k.x k.stage false) ∧
    ((∀ d ∈ (s.core c).checks, d.phase = .passed0 → s.gone d = false) → k.phase = .step0 →
      (∀ d ∈ (s.core c).checks, d.phase = .step0 → d = k) → ∀ late,
      (m.cur ≠ 0 → exec (.step0Reexecute c late) s = .next s) ∧
      (m.cur = 0 → (late = true ∨ k.inj = true) → ∃ t, exec (.step0Reexecute c late) s = .next t ∧
        t = { s with cores := t.cores } ∧ ∃ M, WindowsNoted m M s.cycle ∧
          marginTo s t c { M with qdue := 1 } k (some { k with phase := .failed0 })) ∧
      (m.cur = 0 → late = false → k.inj = false → k.again = true → ∃ t, exec (.step0Reexecute c late) s = .next t ∧
        t = { s with cores := t.cores } ∧ marginTo s t c m k (some { k with phase := .passed0 })) ∧
      (m.cur = 0 → late = false → k.inj = false → k.again = false → ∃ t, exec (.step0Reexecute c late) s = .next t ∧
        t = { s with waves := t.waves, cores := t.cores } ∧ (∀ w, w ≠ k.wave → t.wave w = s.wave w) ∧
        t.wave k.wave = xvHeld (s.wave k.wave) k.x k.stage false ∧ ∃ M stage, CompletedAtStep0 m M s.cycle ∧
          (if k.stage = 6 then stage = 6 else inFlightAt s k.wave k.x stage k.pc ∧ stage ∈ [4, 5, 7] ∧
            ∀ n < stage, ¬ inFlightAt s k.wave k.x n k.pc) ∧
          marginTo s t c M k (some { k with stage := stage, inj := false, armed := false, words := [], phase := .passed })))) ∧
  (∀ (s : State) (w : Nat) (x : SlotId), s.quarantined (coreOf w) = false → (s.margin (coreOf w)).win < 16 →
    let c := coreOf w
    let m := s.margin c
    let begun (k : Check) (n : Nat) (l : List W32) : Check :=
      { k with rerolls := n + 1, inj := false, pers := false, fired := true, armed := false, words := l, phase := .failing }
    (∀ (n en : Nat) (l : List W32), n < m.limit → hadBefore s w x n en l →
      (∀ (stage : Nat) (pc : Word) (k : Check), inFlightAt s w x stage pc →
        begun k n [] = k → k.wave = w → k.x = x → k.stage = stage → k.pc = pc → k.again = false → k.entered = en →
        ∃ t M, exec (.shadowCheck w x (BitVec.ofNat 4 stage) true) s = .next t ∧ t = { s with waves := t.waves, cores := t.cores } ∧
          (∀ v, v ≠ w → t.wave v = s.wave v) ∧ t.wave w = xvHeld (s.wave w) x stage true ∧ RerolledTo s m k M ∧
          marginTo s t c M k (some k)) ∧
      (∀ (stage i : Nat) (e : StageEntry) (k : Check), (∀ pc, ¬ inFlightAt s w x stage pc) → stage < 16 → stage ≠ 6 →
        s.stages[i]? = some { core := c, stage := stage, pc := (s.stages[i]?.map (·.pc)).getD 0 } →
        (∀ j f, j < i → s.stages[j]? = some f → ¬ (f.core = c ∧ f.stage = stage)) → s.stages.head? = some e →
        m.inj.getLsbD 17 = false →
        begun k n (if l = [] then s.wordsAt w e.pc else l) = k → k.wave = w → k.x = x → k.stage = stage → k.pc = e.pc →
        k.again = true → k.entered = Nat.max en (i + 1) →
        ∃ t M, exec (.shadowCheck w x (BitVec.ofNat 4 stage) true) s = .next t ∧ t = { s with cores := t.cores } ∧
          RerolledTo s m k M ∧ marginTo s t c M k (some k))) ∧
    (∀ (n : Nat) (o : MatrixOp) (l : List MatrixOp) (k : Check), n < m.limit → rowHadBefore s w n → (s.core c).queue = o :: l →
      o.wave = w → o.done < o.rows → o.failed = false → m.inj.getLsbD 17 = false →
      begun k n [] = k → k.wave = w → k.x = x → k.stage = 6 → k.pc = o.pc → k.again = false → k.entered = 1 →
      ∃ t M, exec (.shadowCheck w x 6 true) s = .next t ∧ t = { s with cores := t.cores } ∧ RerolledTo s m k M ∧
        marginTo s t c M k (some k))) ∧
  (∀ (s : State) (c : Nat),
    let m := s.margin c
    (m.raiseDue = true → ∃ t, exec (.governorRaise c) s = .next t ∧
      let n := { m with errs := [], raiseDue := false }
      marginAlone s t c (if ∃ e, m.ctlAt = some e ∧ m.raiseAt = some e then n
        else movedBack { n with step := m.step - m.raise })) ∧
    (m.raiseDue = false → exec (.governorRaise c) s = .next s) ∧
    (∃ t M, exec (.eventWindowExpiry c) s = .next t ∧ marginAlone s t c M ∧ WindowsNoted m M s.cycle) ∧
    (m.state = 1 → ∃ t, exec (.marginSettleComplete c) s = .next t ∧
      marginAlone s t c { m with
        state := 0
        cur := if m.qdue ≠ 0 ∨ (∃ k ∈ (s.core c).checks, k.phase = .step0 ∨ k.phase = .failed0 ∨ k.phase = .passed0) then 0 else m.step }) ∧
    (m.state ≠ 1 → exec (.marginSettleComplete c) s = .next s))) ∧
  ((∀ (s : State) (c : Nat), (s.margin c).qdue ≠ 0 → s.noCapsules (2 * c) → s.noCapsules (2 * c + 1) →
    let m := s.margin c
    ∃ t, exec (.quarantine c) s = .next t ∧ t = { s with waves := t.waves, cores := t.cores } ∧
      (∀ d, d ≠ c → t.core d = s.core d) ∧
      t.core c = { s.core c with checks := [], margin := t.margin c, queue := (t.core c).queue } ∧
      t.margin c = { m with state := 2, cur := 0, qdue := 0, handled := [], qinfo := (t.margin c).qinfo } ∧
      (t.margin c).qinfo.toNat / 2 ^ 32 = s.cycle % 2 ^ 32 ∧
      (∀ n, n < 32 → (t.margin c).qinfo.getLsbD n =
        if n = 8 ∧ m.qdue = 1 ∨ n = 9 ∧ m.qdue ≠ 1 then true else m.qinfo.getLsbD n) ∧
      ((∀ k ∈ (s.core c).checks, k.stage ≠ 6 ∨ k.phase ≠ .failed0) → (t.core c).queue = (s.core c).queue) ∧
      ((∀ k ∈ (s.core c).checks, k.phase = .failed0 → k.again = true ∨ (k.stage ≠ 5 ∧ k.stage ≠ 7)) → ∀ w, t.wave w = s.wave w) ∧
      (∀ k g, (s.core c).checks = [k] → k.phase = .failed0 → k.again = false → k.stage = 5 ∨ k.stage = 7 →
        (∀ q l r, (s.wave k.wave).pend ≠ .load k.x q l r) → gateOf s k.wave k.x = some g →
        let own := g.hand = (s.wave k.wave).handler ∧ g.mask = ((s.wave k.wave).slot k.x).mask
        (¬ own → t.wave k.wave = s.wave k.wave) ∧ (own → t.wave k.wave = { (s.wave k.wave).setSlot k.x { (s.wave k.wave).slot k.x with pc := g.pc, chain := none } with
          gates := (s.wave k.wave).gates.filter fun g => !(g.x == k.x) }))) ∧
  (∀ (s : State) (w : Nat) (x : SlotId) (stage : BitVec 4), s.quarantined (coreOf w) = true →
    exec (.shadowCheck w x stage false) s = .next s ∧
    (∀ pc p, (s.wave w).pend = .xv x pc p → (s.wave w).resident = true →
      exec (.shadowCheck w x 4 true) s =
        .next ((takeTrap (s.setWave w { s.wave w with pend := .none }) w x (instrTrap .machine 0 pc)).rollbackOf w)) ∧
    (∀ o l, (s.core (coreOf w)).queue = o :: l → o.wave = w → o.done < o.rows → (s.wave w).resident = false →
      exec (.shadowCheck w x 6 true) s = .next (s.rollback o.launch false))) ∧
  (∀ (s : State) (c b : Nat) (T : Team), ToBeMoved s c b T →
    (∀ n b' : Nat, (targetOrder c)[n]? = some b' → takesTeam s b T b' → (∀ j e : Nat, j < n → (targetOrder c)[j]? = some e → ¬ takesTeam s b T e) →
      ∃ t, exec (.quarantineMove c) s = .next t ∧ (t.bank b).team = none ∧
        (t.bank b').team = some { T with setBanks := T.setBanks.map fun e => if e = b then b' else e } ∧
        (∀ q, q < T.footprint → shareByte t b' q = shareByte s b q) ∧
        (∀ i r j, i < 8 → (t.wave (8 * b' + i)).v r j = (s.wave (8 * b + i)).v r j) ∧
        (∀ i r, i < 8 → (t.wave (8 * b' + i)).s r = (s.wave (8 * b + i)).s r) ∧ (∀ a, t.byte a = s.byte a) ∧
        ∀ i, i < 8 → (s.wave (8 * b + i)).resident = true → (∀ j, j < i → (s.wave (8 * b + j)).resident = false) →
          ({ wave := 8 * b' + i, ticket := 0, cause := 0x61, nested := false, eng := false } : RingRec) ∈
            (t.part (s.vfPart T.vf)).ringWait) ∧
    ((∀ b' ∈ targetOrder c, ¬ takesTeam s b T b') →
      ∃ t, exec (.quarantineMove c) s = .next t ∧ b ∈ (t.margin c).handled ∧ (∀ a, t.byte a = s.byte a) ∧
        ∀ i, i < 8 → (s.wave (8 * b + i)).resident = true →
          let w := 8 * b + i
          ({ wave := w, ticket := 0, cause := 0x60, nested := (s.wave w).handler, eng := false } : RingRec) ∈
            (t.part (s.vfPart T.vf)).ringWait ∧
          ((s.wave w).service = none → (s.wave w).handler = true →
            t.wave w = { s.wave w with service := some ⟨false, true⟩ }) ∧
          ((s.wave w).service = none → (s.wave w).handler = false → (t.wave w).service = some ⟨false, true⟩ ∧
            TrapWritten (t.wave w).trap (instrTrap .timing 0 (resumption s w (if (s.wave w).slotA.live then .a else .b)))
              (s.inChain w (if (s.wave w).slotA.live then .b else .a)) ∧
            (t.wave w).trap.tnext = resumption s w (if (s.wave w).slotA.live then .a else .b)))))

namespace Sys2Proof.Machine

/-! ### Queues and launches -/

/-- R258: the window address of an offset. -/
def windowAddr (off : Nat) : Word := BitVec.ofNat 64 (0xFFF0000000000000 + off)
/-- Beside the outputs and the slots that a write wakes, only the registers of the window at the 8-byte offsets `l` have
changed. -/
def onlyRegs (s t : State) (l : List Nat) : Prop :=
  t = { s with win := t.win, outputs := t.outputs, waiters := t.waiters } ∧
  (∀ e ∈ t.waiters, ∃ d ∈ s.waiters, e = d ∨ e = { d with woken := true }) ∧
  ∀ off, (∀ o ∈ l, off / 8 ≠ o / 8) → t.reg off = s.reg off
/-- R290: a write to the window was refused: an error response, and SYSERR at CD0. -/
def writeRefused (s t : State) (off : Nat) : Prop :=
  onlyRegs s t [0x1000010, 0x1000018] ∧ t.reg 0x1000010 = windowAddr off ∧ t.reg 0x1000018 = s.reg 0x1000018 + 1 ∧
    t.outputs = s.outputs ++ [.windowError off]
def State.queueBase (s : State) (v q : Nat) : Word := s.reg (queueAt v q)
def State.logSize (s : State) (v q : Nat) : Nat := s.regBits (queueAt v q + 8) 0 5
def State.netFed (s : State) (v q : Nat) : Prop := s.regBits (queueAt v q + 8) 7 1 = 1
def State.queueOn (s : State) (v q : Nat) : Prop := s.regBits (queueAt v q + 8) 8 1 = 1
def State.widx (s : State) (v q : Nat) : Nat := s.regBits (queueAt v q + 16) 0 17
def State.ridx (s : State) (v q : Nat) : Nat := s.regBits (queueAt v q + 24) 0 17
/-- R232: how many packets are pending with the doorbell at `w`. -/
def State.pendingAt (s : State) (v q w : Nat) : Nat := (w + 2 * 2 ^ s.logSize v q - s.ridx v q) % (2 * 2 ^ s.logSize v q)
/-- R308: an acceptable ring. -/
def ringGood (base log : Nat) : Prop := 1 ≤ log ∧ log ≤ 16 ∧ base % 64 = 0 ∧ base + 64 * 2 ^ log ≤ 2 ^ 56
/-- R233: the CFE reads a packet of the queue. -/
structure PacketDue (s : State) (v q : Nat) : Prop where
  enabled : s.vfEn v = true ∧ s.partEn (s.vfPart v) = true ∧ s.queueOn v q ∧ ¬ s.inError v q
  pending : s.pendingAt v q (s.widx v q) ≠ 0
  head : ∀ l ∈ s.launches, ¬ (l.vf = v ∧ l.q = q ∧ l.placed < l.teams)
/-- The address of the packet. -/
def State.packetAt (s : State) (v q : Nat) : Word :=
  s.queueBase v q + BitVec.ofNat 64 (64 * (s.ridx v q % 2 ^ s.logSize v q))
/-- `n` aligned words of a VF's memory lie at `p i` and are not poisoned. -/
def wordsAt (s : State) (v a n : Nat) (p : Nat → Nat) : Prop :=
  a % 8 = 0 ∧ ∀ i, i < n → s.cfePa v (a + 8 * i) false = some (p i) ∧ ∀ k, k < 8 → SMap.get (fun _ => false) s.poison (p i + k) = false
/-- R17, R234, R308: the words of a launch packet that its queue does not refuse, with a largest bank share of `share`. -/
structure PacketGood (w : Nat → Nat) (share : Nat) : Prop where
  type : bitField (w 0) 0 8 = 1
  reserved : bitField (w 0) 22 2 = 0 ∧ bitField (w 0) 48 16 = 0 ∧ w 7 = 0
  nwait : bitField (w 0) 11 3 ≤ 4
  waves : 1 ≤ bitField (w 0) 14 4 ∧ bitField (w 0) 14 4 ≤ 8
  sig : bitField (w 0) 20 2 ≠ 3 ∧ (bitField (w 0) 20 2 ≠ 0 → w 4 % 8 = 0)
  teams : 1 ≤ bitField (w 0) 24 24 ∧ bitField (w 0) 24 24 % 2 ^ bitField (w 0) 18 2 = 0
  spm : w 3 % 2 ^ 32 ≤ 0x40000 ∧ w 3 % 2 ^ 32 % 128 = 0
  clspm : w 3 / 2 ^ 32 ≤ 0x200000 ∧ w 3 / 2 ^ 32 % (128 * 2 ^ bitField (w 0) 18 2) = 0
  karg : w 2 % 64 = 0 ∧ w 2 < 2 ^ 56
  footprint : w 3 % 2 ^ 32 + w 3 / 2 ^ 32 / 2 ^ bitField (w 0) 18 2 + 1024 * bitField (w 0) 14 4 ≤ share
/-- R241: the first word of a kernel descriptor that is not refused. -/
def descriptorGood (d : Nat) : Prop :=
  bitField d 0 32 = 0x52444B34 ∧ bitField d 32 8 = 4 ∧ bitField d 53 3 = 0 ∧ (bitField d 57 1 = 1 → bitField d 40 8 = 1)
/-- RIDX has gone on by one, and nothing else of the window has changed. -/
def ridxOn (s t : State) (v q : Nat) : Prop :=
  t.ridx v q = (s.ridx v q + 1) % (2 * 2 ^ s.logSize v q) ∧ ∀ off, off / 8 ≠ (queueAt v q + 24) / 8 → t.reg off = s.reg off

end Sys2Proof.Machine


namespace Sys2Proof.Machine

/-! ### Placement -/

/-- R238: the first fit of a set of `n` teams: the first cluster of the partition of which `n` cores offer a bank, and there the
cores that come first, bank 0 of every core before bank 1 of any; SETIX rises with the core. -/
structure FirstFit (s : State) (p vf fp n c : Nat) (set : List Nat) : Prop where
  cluster : s.partBase p ≤ c ∧ c ≤ s.partLim p ∧ c < 64
  earlier : ∀ d, s.partBase p ≤ d → d < c → ¬ ∃ l : List Nat, l.length = n ∧ (l.map (· / 2)).Nodup ∧
    ∀ e ∈ l, e / 16 = d ∧ Offers s p e vf fp
  teams : set.length = n ∧ (set.map (· / 2)).Pairwise (· < ·)
  banks : ∀ b ∈ set, b / 16 = c ∧ Offers s p b vf fp ∧ (b % 2 = 1 → ¬ Offers s p (b - 1) vf fp)
  first : ∀ e, e / 16 = c → Offers s p e vf fp → (∀ b ∈ set, b / 2 ≠ e / 2) → ∀ b ∈ set, b % 2 < e % 2 ∨ (b % 2 = e % 2 ∧ b < e)
/-- R239, R264, R318, R323: a partition's CFE makes choices: it is enabled, runs, has not been torn down, and no re-run waits that
a bank can take. -/
structure Choosing (s : State) (p : Nat) : Prop where
  runs : s.partEn p = true ∧ s.partState p = 0 ∧ (s.part p).tornDown = false
  reruns : ∀ a ∈ s.audits, ∀ l, s.launchOf a.launch = some l → l.part = p → s.rerunBank a = none
/-- R237: a queue of the partition has a candidate at its head. -/
def hasCandidate (s : State) (p v q : Nat) : Prop :=
  v < 192 ∧ q < 8 ∧ s.vfEn v = true ∧ s.vfPart v = p ∧ ∃ l, s.qHead v q = some l ∧ l.part = p ∧ s.candidate l = true
/-- R317: the accumulator before team `j` of the set adds RATE, and whether the team is sampled. -/
def accAt (s : State) (l : Launch) (j : Nat) : Nat :=
  ((s.part l.part).audacc.toNat + if l.flagAudit then j * (s.part l.part).audrate.toNat else 0) % 2 ^ 16
def sampledAt (s : State) (l : Launch) (j : Nat) : Prop :=
  l.flagAudit = true ∧ 2 ^ 16 ≤ accAt s l j + (s.part l.part).audrate.toNat
/-- R18: the footprint of a launch's teams. -/
def Launch.need (l : Launch) : Nat := l.spm + l.clspm / l.span + 1024 * l.waves
/-- R19, R20: the team that a launch places as member `j` of the set in the banks `set`. -/
structure TeamOf (l : Launch) (set : List Nat) (j : Nat) (T : Team) : Prop where
  launch : T.launch = l.key ∧ T.vf = l.vf ∧ T.teamId = l.placed + j ∧ T.setIx = j ∧ T.setBanks = set ∧ T.waves = l.waves
  sizes : T.spSize = l.spm ∧ T.clPart = l.clspm / l.span ∧ 2 ^ T.span = l.span
  fresh : T.retired = 0 ∧ T.rerun = false
/-- R21: wave `i` of bank `b` as the launch starts it. -/
structure StartedWave (t : State) (l : Launch) (b i : Nat) : Prop where
  resident : (t.wave (8 * b + i)).resident = true ∧ (t.wave (8 * b + i)).system = l.system ∧ (t.wave (8 * b + i)).handler = false
  first : (t.wave (8 * b + i)).slotA.shown = ⟨true, l.entry, BitVec.allOnes 128, 0, false⟩
  second : (t.wave (8 * b + i)).slotB.live = false
  stack : (t.wave (8 * b + i)).dsp = 0xFF00000000000000 + BitVec.ofNat 64 (l.spm + 1024 * i) ∧
    (t.wave (8 * b + i)).dslim = (t.wave (8 * b + i)).dsp + 1024 ∧ (t.wave (8 * b + i)).entries = 0
  trap : (t.wave (8 * b + i)).trap = TrapRegs.zero
  rest : (t.wave (8 * b + i)).capsule = none ∧ (t.wave (8 * b + i)).pend = .none ∧ (t.wave (8 * b + i)).service = none
/-- R35: the launch has placed and retired every team, and every effect that they issued is complete. -/
structure AllDone (s : State) (l : Launch) : Prop where
  teams : l.placed = l.teams ∧ l.retired = l.teams
  xfers : ∀ x ∈ s.xfers, x.launch ≠ l.key
  audits : ∀ a ∈ s.audits, a.launch ≠ l.key
  matrix : ∀ c ∈ s.cores, ∀ o ∈ c.2.queue, o.launch ≠ l.key
  tables : ∀ b ∈ s.banks, ∀ e ∈ b.2.loads, e.launch ≠ l.key
/-- R236: field `n` bits from `lo` of entry `i` of the launch table. -/
def State.tableBits (s : State) (i lo n : Nat) : Nat := s.regBits (0x10000 + 0x20 * i + lo / 64 * 8) (lo % 64) n
/-- R236: the address of ALLOW. -/
def State.allowAt (s : State) (i : Nat) : Nat := s.tableBits i 160 32 + 2 ^ 32 * s.tableBits i 192 32
/-- R236: the checks of a message, by the code of the acknowledgement; `pa` is where its ring takes the packet, if it does. -/
def messageFails (s : State) (tenant : W32) (pre : Word) (w : Nat → Nat) (free : Prop) : Nat → Prop
  | 1 => 256 ≤ pre.toNat ∨ s.tableBits (pre.toNat % 256) 0 1 = 0
  | 2 => tenant.toNat ≠ s.tableBits (pre.toNat % 256) 64 32
  | 3 => ∀ k, k < s.tableBits (pre.toNat % 256) 144 16 → quad s (s.allowAt (pre.toNat % 256) + 8 * k) ≠ w 1
  | 4 => s.tableBits (pre.toNat % 256) 24 24 < bitField (w 0) 24 24
  | 5 => s.tableBits (pre.toNat % 256) 96 16 = 0
  | 6 => ¬ free
  | _ => True

end Sys2Proof.Machine

open Sys2Proof Sys2Proof.Machine in
/-- R19, R21, R237, R238: a choice goes to a candidate at the highest level that has one, and there is one if any queue has a
candidate; it places a set in the first fit, and every wave starts there as R21 says, with the registers that the bank holds, or
zeroes where the bank changes its owner. A bank is not passed to another VF under what a retired team has issued (log 53).
R239, R318: while a CORES launch is being placed its queue alone is served, and a re-run that a bank can take comes before every
candidate. R317: a team of an AUDIT launch adds RATE, and is sampled where that carries.
R35, R235: a launch completes when every team has retired and every effect is complete, with its signal. R308: a signal that
faults puts its queue in ERROR. -/
def Obligations.LaunchesArePlacedStartedAndCompleted : Prop :=
  (∀ (s : State) (p v q : Nat), (v, q) ∈ s.choosable p → s.coresLock p = none →
    s.partEn p = true ∧ s.partState p = 0 ∧ s.vfEn v = true ∧ s.vfPart v = p ∧
    (∃ l, s.qHead v q = some l ∧ l.waited = true) ∧
    ∀ v' q' l, v' < 192 → q' < 8 → s.vfEn v' = true → s.vfPart v' = p → s.qHead v' q' = some l → l.part = p → s.candidate l = true →
      s.qPrio v' q' ≤ s.qPrio v q) ∧
  (∀ (s : State) (p : Nat), Choosing s p →
    (s.coresLock p = none → (∃ v q, hasCandidate s p v q) → ∃ v q, (v, q) ∈ s.choosable p ∧ hasCandidate s p v q) ∧
    ∀ l, s.coresLock p = some l → ∀ v q, (v, q) ∈ s.choosable p ↔ v = l.vf ∧ q = l.q ∧ s.setPlace l ≠ none) ∧
  (∀ (s : State) (p : Nat) (a : Audit) (l : Launch), a ∈ s.audits → s.launchOf a.launch = some l → l.part = p → s.coresLock p = none →
    s.rerunBank a ≠ none → s.choosable p = []) ∧
  (∀ (s : State) (p v q c : Nat) (set : List Nat) (l : Launch), (v, q) ∈ s.choosable p → s.chosen p v q = some l →
    l.part = p → l.vf = v → p < 48 → 1 ≤ l.waves → l.waves ≤ 8 → s.launchOf l.key = some l →
    (∀ c, s.partBase p ≤ c → c ≤ s.partLim p → ∀ i, i < 8 → s.partOfCore (8 * c + i) = some p) →
    FirstFit s p v l.need l.span c set →
    ∃ t, exec (.cfeChoice p v q) s = .next t ∧
      (∀ j b : Nat, set[j]? = some b →
        (∃ T, (t.bank b).team = some T ∧ TeamOf l set j T ∧ (T.sampled = true ↔ sampledAt s l j)) ∧ (t.bank b).owner = some v ∧
        (∀ i, i < l.waves → StartedWave t l b i) ∧
        (∀ i r j, i < l.waves → (t.wave (8 * b + i)).v r j = if (s.bank b).owner = some v then (s.wave (8 * b + i)).v r j else 0) ∧
        (∀ i r, i < l.waves → (t.wave (8 * b + i)).s r = if (s.bank b).owner = some v then (s.wave (8 * b + i)).s r else 0) ∧
        (∀ o, shareByte t b o = if (s.bank b).owner = some v then shareByte s b o else 0) ∧
        (∀ k, (t.bank b).rv k = Rv.zero) ∧ (t.bank b).deque = []) ∧
      t.launches = (s.launches.map fun m => if m.key = l.key then { l with placed := l.placed + l.span } else m) ∧
      (t.part p).audacc.toNat = accAt s l l.span ∧
      (∀ a, a ∈ t.audits ↔ a ∈ s.audits ∨ ∃ j b : Nat, set[j]? = some b ∧ sampledAt s l j ∧ a = {
        launch := l.key, team := l.placed + j, core := b / 2, retired := false, before := [], wrote := [], rerun := none
        finished := false, again := [] }) ∧
      ∀ a, t.byte a = s.byte a) ∧
  (∀ (s : State) (key : Nat) (l : Launch), s.launchOf key = some l →
    (¬ AllDone s l → exec (.launchCompletion key) s = .next s) ∧
    (AllDone s l → l.snaps = [] → ∀ pa,
      (l.sigop = 0 ∨ l.killed = true → ∃ t, exec (.launchCompletion key) s = .next t ∧ (∀ a, t.byte a = s.byte a) ∧
        t.launches = s.launches.filter fun m => m.key ≠ key) ∧
      (l.sigop ≠ 0 → l.killed = false → (s.cfePa l.vf l.sigaddr true = none ∨
          l.sigop ≠ 1 ∧ s.cfePa l.vf l.sigaddr true = some pa ∧ ∃ k, k < 8 ∧ SMap.get (fun _ => false) s.poison (pa + k) = true) →
        ∃ t, exec (.launchCompletion key) s = .next t ∧ (t.launches = s.launches.filter fun m => m.key ≠ key) ∧
          errorAt t l.vf l.q (BitVec.ofNat 64 l.sigaddr) ∧ ∀ a, t.byte a = s.byte a) ∧
      (l.sigop ≠ 0 → l.killed = false → s.cfePa l.vf l.sigaddr true = some pa → (∀ k, k < 8 → SMap.get (fun _ => false) s.poison (pa + k) = false) →
        ∃ t, exec (.launchCompletion key) s = .next t ∧ (t.launches = s.launches.filter fun m => m.key ≠ key) ∧
          quad t pa = (if l.sigop = 1 then l.sigval else (quad s pa + l.sigval) % 2 ^ 64) ∧
          ∀ a, ¬ (pa ≤ a ∧ a < pa + 8) → t.byte a = s.byte a)))

open Sys2Proof Sys2Proof.Machine in
/-- R232, R290, R308: a doorbell moves WIDX, is refused, or puts the queue in ERROR; EN sets, and clears with the indices and STATE,
in ERROR or not (log 60).
R233, R234, R241, R308: the packet at the head of the ring is skipped as a no-op, taken as a launch, or puts the queue in
ERROR with RIDX at it. R235: a waiting launch goes on once each of its signals has reached its value.
R236: a launch message that fails a check is discarded with the code of the first check that it fails, and its entry is
logged at the die of its port (R8, R290); one that passes is written into the ring of its queue, at the cost of one credit.
CREDIT rises by REFILL up to CREDMAX every 65,536 cycles.
What is the model's choice: the codes of R236's corners (log 35), what a packet, a descriptor or a signal is refused for
beyond R234 and R241 (log 36), and how a refused window write is answered and logged (log 37). -/
def Obligations.QueuesTakePacketsAndMessages : Prop :=
  ((∀ (s : State) (v q : Nat) (x : Word), v < 192 → q < 8 →
    let n := x.toNat % 2 ^ 17
    (s.netFed v q → ∃ t, exec (.queueDoorbell v q x) s = .next t ∧ onlyRegs s t [] ∧ t.outputs = s.outputs) ∧
    (¬ s.netFed v q → (¬ s.queueOn v q ∨ s.inError v q) →
      ∃ t, exec (.queueDoorbell v q x) s = .next t ∧ writeRefused s t (queueAt v q + 16)) ∧
    (¬ s.netFed v q → s.queueOn v q → ¬ s.inError v q →
      (2 * 2 ^ s.logSize v q ≤ n ∨ 2 ^ s.logSize v q < s.pendingAt v q n → ∃ t, exec (.queueDoorbell v q x) s = .next t ∧
        onlyRegs s t [queueAt v q + 32, queueAt v q + 40] ∧ errorAt t v q (windowAddr (queueAt v q + 16))) ∧
      (n < 2 * 2 ^ s.logSize v q → s.pendingAt v q n ≤ 2 ^ s.logSize v q → ∃ t, exec (.queueDoorbell v q x) s = .next t ∧
        onlyRegs s t [queueAt v q + 16] ∧ t.widx v q = n ∧ t.outputs = s.outputs))) ∧
  (∀ (s : State) (v q : Nat), v < 192 → q < 8 →
    (s.queueOn v q → ∃ t, exec (.queueEnable v q) s = .next t ∧ onlyRegs s t []) ∧
    (¬ s.queueOn v q → ringGood (s.queueBase v q).toNat (s.logSize v q) → ∃ t, exec (.queueEnable v q) s = .next t ∧
      onlyRegs s t [queueAt v q + 8] ∧ t.queueOn v q ∧ t.logSize v q = s.logSize v q ∧ t.outputs = s.outputs) ∧
    (¬ s.queueOn v q → ¬ ringGood (s.queueBase v q).toNat (s.logSize v q) → ∃ t, exec (.queueEnable v q) s = .next t ∧
      onlyRegs s t [queueAt v q + 8, queueAt v q + 32, queueAt v q + 40] ∧ t.queueOn v q ∧ errorAt t v q (s.queueBase v q)) ∧
    (∃ t, exec (.queueDisable v q) s = .next t ∧
      onlyRegs s t [queueAt v q + 8, queueAt v q + 16, queueAt v q + 24, queueAt v q + 32] ∧ ¬ t.queueOn v q ∧
      t.logSize v q = s.logSize v q ∧ t.widx v q = 0 ∧ t.ridx v q = 0 ∧ t.regBits (queueAt v q + 32) 0 2 = 0 ∧
      t.outputs = s.outputs)) ∧
  (∀ (s : State) (v q : Nat), v < 192 → q < 8 → PacketDue s v q →
    let a := s.packetAt v q
    let p := s.vfPart v
    let share := 0x10000 * Nat.max (s.regBits (0x40 * p) 16 4) (8 - s.regBits (0x40 * p) 16 4)
    let refused := ∃ t, exec (.packetFetch v q) s = .next t ∧ onlyRegs s t [queueAt v q + 32, queueAt v q + 40] ∧ errorAt t v q a
    ((∃ i, i < 8 ∧ s.cfePa v (a.toNat + 8 * i) false = none) → a.toNat % 8 = 0 → refused) ∧
    ∀ m, wordsAt s v a.toNat 8 m →
      let w := fun i => quad s (m i)
      (bitField (w 0) 0 8 = 0 → ∃ t, exec (.packetFetch v q) s = .next t ∧ t = { s with win := t.win } ∧ ridxOn s t v q) ∧
      (bitField (w 0) 0 8 ≠ 0 → ¬ PacketGood w share → refused) ∧
      ∀ d, wordsAt s v (w 1) 3 d → PacketGood w share →
        let trusted := s.vfSvc v = true → ∃ i, i < 16 ∧ s.regBits (0x6000 + 0x80 * p + 8 * i) 63 1 = 1 ∧
          s.regBits (0x6000 + 0x80 * p + 8 * i) 0 56 = d 0
        (¬ (descriptorGood (quad s (d 0)) ∧ trusted) → refused) ∧
        (descriptorGood (quad s (d 0)) → trusted → bitField (w 0) 8 1 = 0 →
          ∃ t l, exec (.packetFetch v q) s = .next t ∧
            t = { s with win := t.win, nextKey := s.nextKey + 1, launches := s.launches ++ [l] } ∧ ridxOn s t v q ∧
            (l.key = s.nextKey ∧ l.part = p ∧ l.vf = v ∧ l.q = q ∧ l.packetAddr = a ∧ l.system = s.vfSvc v) ∧
            l.packet = (List.range 8).map (fun i => BitVec.ofNat 64 (w i)) ∧ l.entry = BitVec.ofNat 64 (quad s (d 1)) ∧
            l.loadid = BitVec.ofNat 64 (quad s (d 2)) ∧ (l.waited = true ↔ bitField (w 0) 11 3 = 0) ∧
            (l.placed = 0 ∧ l.retired = 0 ∧ l.killed = false))) ∧
  (∀ (s : State) (v q : Nat) (l : Launch) (a x : Nat → Word), s.qHead v q = some l → l.waited = false → l.nwait ≤ 4 →
    (∀ i, i < l.nwait → s.sigWord l.vf (l.waitlist + 16 * i) = some (a i) ∧ s.sigWord l.vf (l.waitlist + 16 * i + 8) = some (x i)) →
    ∀ y : Nat → Word, (∀ i, i < l.nwait → s.sigWord l.vf (a i).toNat = some (y i)) →
      ((∀ i, i < l.nwait → (x i).toNat ≤ (y i).toNat) → ∃ t, exec (.signalReread v q) s = .next t ∧
        t = { s with launches := s.launches.map fun m => if m.key = l.key then { l with waited := true } else m }) ∧
      ((∃ i, i < l.nwait ∧ (y i).toNat < (x i).toNat) → exec (.signalReread v q) s = .next s))) ∧
  ((∀ (s : State) (tenant : W32) (port : Nat) (pre : Word) (pk : List Word), pk.length = 8 → port < 12 →
    let i := pre.toNat % 256
    let v := s.tableBits i 8 8
    let q := s.tableBits i 16 3
    let w := fun n => (pk.getD n 0).toNat
    let va := (s.queueBase v q).toNat + 64 * (s.widx v q % 2 ^ s.logSize v q)
    ∀ pa : Option Nat, s.cfePa v va true = pa →
      let free := s.netFed v q ∧ s.queueOn v q ∧ s.pendingAt v q (s.widx v q) < 2 ^ s.logSize v q ∧ pa ≠ none
      (∀ code, 1 ≤ code → code ≤ 6 → messageFails s tenant pre w free code →
        (∀ c, 1 ≤ c → c < code → ¬ messageFails s tenant pre w free c) →
        let die := 0x1000000 + 0x1000 * (if port < 6 then 0 else 4)
        ∃ t, exec (.hxtLaunchMessage tenant port pre pk) s = .next t ∧ onlyRegs s t [die + 16, die + 24] ∧
          t.reg (die + 16) = BitVec.ofNat 64 i ∧ t.reg (die + 24) = s.reg (die + 24) + 1 ∧ t.outputs = s.outputs ++ [.nack code]) ∧
      (∀ a, pa = some a → v < 192 → (∀ c, 1 ≤ c → c ≤ 6 → ¬ messageFails s tenant pre w free c) →
        ∃ t, exec (.hxtLaunchMessage tenant port pre pk) s = .next t ∧ t.outputs = s.outputs ∧
          (∀ n, n < 8 → quad t (a + 8 * n) = w n) ∧ (∀ b, ¬ (a ≤ b ∧ b < a + 64) → t.byte b = s.byte b) ∧
          t.tableBits i 96 16 = s.tableBits i 96 16 - 1 ∧
          t.widx v q = (s.widx v q + 1) % (2 * 2 ^ s.logSize v q) ∧
          ∀ off, off / 8 ≠ (0x10000 + 0x20 * i + 8) / 8 → off / 8 ≠ (queueAt v q + 16) / 8 → t.reg off = s.reg off)) ∧
  (∀ s : State,
    (s.cycle / 65536 ≤ s.creditEpoch → exec .launchCreditRefill s = .next s) ∧
    (s.creditEpoch < s.cycle / 65536 → ∃ t, exec .launchCreditRefill s = .next t ∧
      t = { s with win := t.win, creditEpoch := s.creditEpoch + 1 } ∧
      (∀ i, i < 256 → t.tableBits i 96 16 =
        let c := s.tableBits i 96 16
        let top := s.tableBits i 112 16
        if top ≤ c then c else Nat.min (c + s.tableBits i 128 16) top) ∧
      (∀ i, i < 256 → t.tableBits i 64 32 = s.tableBits i 64 32 ∧ t.tableBits i 112 16 = s.tableBits i 112 16) ∧
      ∀ off, (∀ i, i < 256 → off / 8 ≠ (0x10000 + 0x20 * i + 8) / 8) → t.reg off = s.reg off)))

namespace Sys2Proof.Machine

/-! ### Audits, errors and rollback -/

/-- R318: the banks of a partition in the order in which a re-run of a team of core `core` tries them. -/
def rerunOrder (s : State) (p core : Nat) : List Nat :=
  let cs := (List.range 64).filter fun c => decide (s.partBase p ≤ c ∧ c ≤ s.partLim p)
  let c0 := core / 8
  let banks (c : Nat) : List Nat :=
    ([0, 1].flatMap fun k => (List.range 8).map fun n => 16 * c + 2 * n + k).filter fun b => decide (b / 2 ≠ core)
  ((cs.filter fun c => decide (c / 8 ≠ c0 / 8)) ++ (cs.filter fun c => decide (c / 8 = c0 / 8 ∧ c ≠ c0)) ++ [c0]).flatMap banks
/-- Every core of the partition but `core` is quarantined. -/
def othersQuarantined (s : State) (p core : Nat) : Prop :=
  ∀ c, s.partBase p ≤ c → c ≤ s.partLim p → ∀ i, c < 64 → i < 8 → 8 * c + i = core ∨ s.quarantined (8 * c + i) = true
/-- The sampled team has retired and waits for its re-run. -/
structure RerunWaits (s : State) (a : Audit) (l : Launch) (team : Nat) : Prop where
  audit : s.auditFor l.key team = some a ∧ a.launch = l.key ∧ a.team = team
  launch : s.launchOf l.key = some l ∧ l.part < 48
  waits : a.retired = true ∧ a.rerun = none ∧ ∀ x ∈ s.xfers, ¬ (x.launch = l.key ∧ x.team.teamId = team)
/-- R323: partition `p` belongs to the world. -/
def ofWorld (s : State) (world p : Nat) : Prop := p < 48 ∧ s.partEn p = true ∧ s.partWorld p = world
/-- R320: memory, a bank's scratchpad or a core's typed buffer, and the place of its first byte. -/
inductive StruckAt (n : Nat) : EccSite → Loc → Prop where
  | memory (a : Nat) : StruckAt n (.memory a n) (.phys a)
  | scratchpad (b o : Nat) : StruckAt n (.scratchpad b o n) (.share b o)
  | weights (c o : Nat) : StruckAt n (.buffer c 0 o n) (.wbuf c o)
  | activations (c o : Nat) : StruckAt n (.buffer c 1 o n) (.abuf c o)
  | results (c o : Nat) : StruckAt n (.buffer c 2 o n) (.cbuf c o)
/-- R287: the record of a MACHINE of wave `w`. -/
def machineRecord (s : State) (w : Nat) : RingRec :=
  { wave := w, ticket := 0, cause := 0x7F, nested := (s.wave w).handler, eng := false }
/-- R266, R267, R323: a line of a world: one sealed under a key of the world, or, where under none, one whose home is a die of it. -/
def lineOfWorld (s : State) (world line : Nat) : Prop :=
  match SMap.find? s.plain line with
  | some e => (world, e.1) ∈ s.worldKeys
  | none => s.wid (Config.homeDie (128 * line) % 8) = world
/-- R321, R323: a launch that consumes a page below the failed node, which its VF reaches, and may be placed again. -/
def restoredAt (s : State) (l : Launch) (base len : Nat) : Prop :=
  Config.treeConsumer s.tick l.key = true ∧
    (∃ page leaf, page < 2 ^ 44 ∧ walk s l.vf (4096 * page) = .leaf leaf ∧
      let pa := leaf.base + 4096 * page % 2 ^ leaf.bits
      pa < base + len ∧ base < pa + 4096) ∧
    mayReplay l ∧ ∀ e ∈ l.snaps, e.page + 4096 ≤ base ∨ base + len ≤ e.page

end Sys2Proof.Machine

open Sys2Proof Sys2Proof.Machine in
/-- R318: a sampled team runs again in the first free bank of the order, with a private cluster window (log 34), or its sample
is abandoned. R319: equal signatures free the log; different ones charge the core and roll the launch back.
R320, R321: an uncorrectable error in memory, a scratchpad or a typed buffer marks the bytes and changes none (by byte: log 32);
one in an operand of an XV raises MACHINE for its wave, one in a bank for each of the bank's waves, and their launch is rolled back.
R323: a failed node of a world's tree poisons the world's lines below it and no other byte, and tears the world's partitions down,
and no other; world 0 has no tree, and what goes with a removed launch, is log 39. A launch that consumes such a page is rolled back
first, its pages restored where it may be placed again and no snapshot of its lies below the node; which of the launches that reach
one consume it is the model's free value (log 25). -/
def Obligations.AuditsAndErrorsRollBack : Prop :=
  ((∀ (s : State) (a : Audit) (l : Launch) (team b n : Nat), RerunWaits s a l team → s.partEn l.part = true → s.partState l.part = 0 →
    (s.part l.part).tornDown = false → s.coresLock l.part = none → ¬ othersQuarantined s l.part a.core → 1 ≤ l.waves → l.waves ≤ 8 →
    s.partBase l.part ≤ a.core / 8 → a.core / 8 ≤ s.partLim l.part → a.core < 512 →
    (∀ c, s.partBase l.part ≤ c → c ≤ s.partLim l.part → ∀ i, i < 8 → s.partOfCore (8 * c + i) = some l.part) →
    (rerunOrder s l.part a.core)[n]? = some b → Offers s l.part b l.vf l.need →
    (∀ j e : Nat, j < n → (rerunOrder s l.part a.core)[j]? = some e → ¬ Offers s l.part e l.vf l.need) →
    ∃ t T, exec (.auditRerun l.key team b) s = .next t ∧ (t.bank b).team = some T ∧
      (T.rerun = true ∧ T.sampled = false ∧ T.launch = l.key ∧ T.vf = l.vf ∧ T.teamId = team ∧ T.setBanks = [b] ∧
        T.setIx = team % l.span ∧ 2 ^ T.span = l.span ∧ T.waves = l.waves ∧ T.spSize = l.spm ∧ T.clPart = l.clspm / l.span) ∧
      (∀ i, i < l.waves → StartedWave t l b i) ∧ { a with rerun := some b } ∈ t.audits ∧ (∀ x, t.byte x = s.byte x)) ∧
  (∀ (s : State) (a : Audit) (l : Launch) (team b : Nat), RerunWaits s a l team → othersQuarantined s l.part a.core →
    ∃ t, exec (.auditRerun l.key team b) s = .next t ∧
      t = { s with audits := s.audits.filter fun e => !(e.launch == l.key && e.team == team) }) ∧
  (∀ (s : State) (a : Audit) (key team b : Nat), s.auditFor key team = some a → a.retired = false →
    exec (.auditRerun key team b) s = .next s) ∧
  (∀ (s : State) (a : Audit) (key team : Nat), s.auditFor key team = some a →
    (a.finished = false → exec (.auditCompare key team) s = .next s) ∧
    ((∃ x ∈ s.xfers, x.launch = key ∧ x.team.teamId = team) → exec (.auditCompare key team) s = .next s) ∧
    (a.finished = true → (∀ x ∈ s.xfers, ¬ (x.launch = key ∧ x.team.teamId = team)) →
      (signature a.wrote = signature a.again → ∃ t, exec (.auditCompare key team) s = .next t ∧
        t = { s with win := t.win, audits := s.audits.filter fun e => !(e.launch == key && e.team == team) }) ∧
      (signature a.wrote ≠ signature a.again → ∀ l, s.launchOf key = some l → SnapsOk l → l.vf < 192 → l.q < 8 →
        (∀ w, (s.wave w).capsule = none) →
        ∃ t, exec (.auditCompare key team) s = .next t ∧ RolledBack s t l ∧
          let m := s.margin a.core
          let m' := t.margin a.core
          m'.qinfo.getLsbD 10 = true ∧ m'.qinfo.toNat / 2 ^ 16 % 2 ^ 8 = Nat.min (m.qinfo.toNat / 2 ^ 16 % 2 ^ 8 + 1) 255 ∧
          m'.step = if m.gov then m.step - m.raise else m.step)))) ∧
  ((∀ (s : State) (n : Nat) (site : EccSite) (loc : Loc), StruckAt n site loc →
    ∃ t, exec (.uncorrectableError site) s = .next t ∧ t = { s with poison := t.poison } ∧
      ∀ a, SMap.get (fun _ => false) t.poison a =
        if loc.markKey ≤ a ∧ a < loc.markKey + n then true else SMap.get (fun _ => false) s.poison a) ∧
  (∀ (s : State) (w : Nat),
    ((∀ x pc v, (s.wave w).pend ≠ .xv x pc v) → exec (.uncorrectableError (.xvOperand w)) s = .next s) ∧
    (∀ x pc v T l, (s.wave w).pend = .xv x pc v → s.teamOf w = some T → s.launchOf T.launch = some l → SnapsOk l →
      l.vf < 192 → l.q < 8 → (∀ w, (s.wave w).capsule = none) →
      ∃ t, exec (.uncorrectableError (.xvOperand w)) s = .next t ∧ RolledBack s t l ∧
        machineRecord s w ∈ (t.part (s.vfPart T.vf)).ringWait)) ∧
  (∀ (s : State) (b : Nat),
    ((s.bank b).team = none → exec (.uncorrectableError (.bank b)) s = .next s) ∧
    (∀ T l, (s.bank b).team = some T → s.launchOf T.launch = some l → SnapsOk l → l.vf < 192 → l.q < 8 →
      (∀ w, (s.wave w).capsule = none) →
      ∃ t, exec (.uncorrectableError (.bank b)) s = .next t ∧ RolledBack s t l ∧
        ∀ i, i < 8 → (s.wave (8 * b + i)).resident = true →
          machineRecord s (8 * b + i) ∈ (t.part (s.vfPart T.vf)).ringWait)) ∧
  (∀ (s : State) (world base len : Nat), (∀ w, (s.wave w).capsule = none) → SMap.sorted s.banks = true →
    (∀ m m', m ∈ s.launches → m' ∈ s.launches → m.key = m'.key → m = m') → (∀ m ∈ s.launches, SnapsOk m) →
    (∀ x ∈ s.xfers, ∀ h ∈ x.bounce, h.2 < 4) →
    (world = 0 → exec (.integrityTreeFailure world base len) s = .next s) ∧
    (world ≠ 0 → ∃ t, exec (.integrityTreeFailure world base len) s = .next t ∧
      (let marked := fun (u : State) a => SMap.get (fun _ => false) u.poison a = true
       (∀ a, base ≤ a → a < base + len → lineOfWorld s world (a / 128) → marked t a) ∧
       ∀ a, (∀ m ∈ s.launches, ofWorld s world m.part → ∀ e ∈ m.snaps, a / 4096 ≠ e.page / 4096) →
         ¬ (base ≤ a ∧ a < base + len ∧ lineOfWorld s world (a / 128)) → (marked t a ↔ marked s a)) ∧
      ((∀ m ∈ s.launches, ¬ ofWorld s world m.part) → ∀ a, t.byte a = s.byte a) ∧
      (∀ l ∈ s.launches, ofWorld s world l.part → (∀ m ∈ s.launches, ofWorld s world m.part → m = l) →
        (restoredAt s l base len → (∀ e ∈ l.snaps, ∀ o, o < 4096 → t.byte (e.page + o) =
            if s.guarded e.page = true then s.byte (e.page + o) else SMap.get zeros e.bytes o) ∧
          ∀ a, (∀ e ∈ l.snaps, a / 4096 ≠ e.page / 4096) → t.byte a = s.byte a) ∧
        (¬ restoredAt s l base len → ∀ a, t.byte a = s.byte a)) ∧
      (∀ m, m ∈ t.launches ↔ m ∈ s.launches ∧ ¬ ofWorld s world m.part) ∧
      (∀ p, (t.part p).tornDown = true ↔ ofWorld s world p ∨ (s.part p).tornDown = true) ∧
      (∀ w T m, s.teamOf w = some T → m ∈ s.launches → T.launch = m.key → ofWorld s world m.part → (t.wave w).resident = false) ∧
      ∀ v q, v < 192 → q < 8 → s.vfEn v = true → ofWorld s world (s.vfPart v) → t.inError v q)))

namespace Sys2Proof.Machine

/-! ### Boot, partitions, images, worlds -/

/-- R256, R257: a copy of the blob that the root of trust accepts. -/
structure BlobGood (b : Blob) (floor : W32) : Prop where
  signed : b.sigOk = true
  version : floor.toNat ≤ b.version.toNat
  power : 1000 ≤ b.power ∧ b.power ≤ 3600
  margin : b.mgnctl.toNat % 256 ≤ 24 ∧ b.mgnlimit.toNat % 8 ≠ 0
/-- R250, R256, R257: the margin registers of a core as boot leaves them. -/
structure BootedMargin (m : Margin) (b : Blob) (off : Bool) : Prop where
  ctl : m.step = b.mgnctl.toNat % 256 ∧ m.gov = b.mgnctl.getLsbD 8 ∧ m.win = b.mgnctl.toNat / 2 ^ 12 % 16
  limit : m.limit = b.mgnlimit.toNat % 8
  esc : m.events = BitVec.ofNat 16 b.mgnesc.toNat ∧ m.raise = b.mgnesc.toNat / 2 ^ 16 % 256 ∧ m.qcount = b.mgnesc.toNat / 2 ^ 24 % 256
  stat : m.rerolls = 0 ∧ m.escal = 0 ∧ m.cur = 0
  state : m.state = if off then 2 else if m.step = 0 then 0 else 1
/-- R256: the machine after boot with a blob. -/
structure Booted (s t : State) (b : Blob) : Prop where
  up : t.boot = .up ∧ t.blob = some b ∧ t.versionFloor = b.version ∧ t.power = b.power ∧ t.measured = []
  clock : t.cycle = 0 ∧ t.withheld = 0 ∧ t.withholdTo = 0
  cores : ∀ c, c < 512 → BootedMargin (t.margin c) b (b.coreoff.getLsbD c) ∧ t.core c = { Core.zero with margin := t.margin c }
  stores : (∀ w, t.wave w = Wave.idle) ∧ (∀ k, t.bank k = Bank.zero) ∧ ∀ v, t.fbuf v = FaultBuffer.zero
  parts : ∀ p, p < 48 → t.part p = { Part.zero with audrate := b.auddef }
  window : ∀ off, t.reg off = winReset (off / 8)
  memory : ∀ a, t.byte a = s.byte a
/-- R264: the control word of a partition. -/
def controlAt (p : Nat) : Nat := 0x4000 + 8 * p
/-- R264: the partition's STATE is `n`, and nothing else of the window has changed. -/
def stateTo (s t : State) (p n : Nat) : Prop :=
  onlyRegs s t [controlAt p] ∧ t.regBits (controlAt p) 2 2 = n ∧ t.outputs = s.outputs ∧ wakesWindow s t (controlAt p)
/-- R264: a HALT or a RESUME that waits for the partition's STATE: its part alone has changed. -/
def nowDue (s t : State) (p : Nat) (P : Part) : Prop :=
  t = { s with parts := t.parts, waiters := t.waiters } ∧ wakesWindow s t (controlAt p) ∧ t.part p = P ∧
    ∀ q, q ≠ p → t.part q = s.part q
/-- R290: a write was refused: an error response, and SYSERR at die `d`. -/
def writeRefusedAt (s t : State) (d off : Nat) : Prop :=
  onlyRegs s t [0x1000010 + 0x1000 * d, 0x1000018 + 0x1000 * d] ∧ t.reg (0x1000010 + 0x1000 * d) = windowAddr off ∧
    t.reg (0x1000018 + 0x1000 * d) = s.reg (0x1000018 + 0x1000 * d) + 1 ∧ t.outputs = s.outputs ++ [.windowError off]
/-- R246, R261, R266: line `i` of the spill area at `area` is written by bank `b`'s die for partition `p`: it lies in no page that
the root of trust guards, and its home die's port does not refuse it. -/
def openLine (s : State) (p b area i : Nat) : Prop :=
  s.guarded (area + 128 * i) = false ∧ s.portRefuses (b / 128) (s.partWorld p) (area + 128 * i) = false
/-- R266, R290: the last refused line of each home die stands in that die's WERR. -/
def LinesShut (s t : State) (p b area : Nat) : Prop :=
  ∀ i, i < 12288 → s.portRefuses (b / 128) (s.partWorld p) (area + 128 * i) = true → ∃ j, j < 12288 ∧
    let d := Config.homeDie (area + 128 * i) % 8
    Config.homeDie (area + 128 * j) % 8 = d ∧ t.reg (0x1000008 + 0x1000 * d) = BitVec.ofNat 64 (area + 128 * j) ∧
      s.portRefuses (b / 128) (s.partWorld p) (area + 128 * j) = true
/-- R246, R290: a refused line of the area is as it was; the last that a port refused stands in WERR of its home die, and the last
that the root of trust refused in SYSERR. -/
structure LinesRefused (s t : State) (p b area : Nat) : Prop where
  kept : ∀ o, o < 0x180000 → ¬ openLine s p b area (o / 128) → t.byte (area + o) = s.byte (area + o)
  port : LinesShut s t p b area
  guard : ∀ i, i < 12288 → ¬ openLine s p b area i → s.portRefuses (b / 128) (s.partWorld p) (area + 128 * i) = false →
    ∃ j, j < 12288 ∧ s.guarded (area + 128 * j) = true ∧ t.reg 0x1000010 = BitVec.ofNat 64 (area + 128 * j)
/-- R246: what the machine keeps of a team in shadow storage: the whole of it. -/
structure ShadowOf (s : State) (b : Nat) (T : Team) (v : SavedTeam) : Prop where
  saved : SavedAs s b T v
  share : ∀ q, q < T.footprint → SMap.get zeros v.bank.share q = shareByte s b q
  buffers : ∀ k o, k < 3 → o < s.bufSize b →
    SMap.get zeros (match k with | 0 => v.wbuf | 1 => v.abuf | _ => v.cbuf) o = bufByte (s.core (b / 2)) k (s.bufBase b + o)
/-- R246: bank `b` holds a team that was kept so. -/
structure ShadowBack (t : State) (b : Nat) (v : SavedTeam) : Prop where
  team : (t.bank b).team = some v.team ∧ (t.bank b).owner = some v.team.vf
  bank : (∀ n, (t.bank b).rv n = v.bank.rv n) ∧ (t.bank b).deque = v.bank.deque ∧ (t.bank b).weights = v.bank.weights ∧
    ∀ n, (t.bank b).table n = v.bank.table n
  waves : ∀ i, i < 8 → let W' := t.wave (8 * b + i)
    let W := v.waves.getD i Wave.idle
    W' = { W with pend := W'.pend } ∧ (W.pend = .none → W'.pend = .none)
  share : ∀ q, q < v.team.footprint → shareByte t b q = SMap.get zeros v.bank.share q
  buffers : ∀ k o, k < 3 → o < v.view →
    bufByte (t.core (b / 2)) k (t.bufBase b + o) = SMap.get zeros (match k with | 0 => v.wbuf | 1 => v.abuf | _ => v.cbuf) o
/-- R246: the banks of the partition's clusters, of which `b` alone holds a team. -/
structure OneTeam (s : State) (p b : Nat) (T : Team) : Prop where
  team : (s.bank b).team = some T
  within : s.partBase p ≤ b / 16 ∧ b / 16 ≤ s.partLim p ∧ b / 16 < 64
  alone : ∀ e, e ≠ b → s.partBase p ≤ e / 16 → e / 16 ≤ s.partLim p → (s.bank e).team = none
  still : s.bankStill b = true
  capsules : s.noCapsules b
/-- R261: the image load request block. -/
def State.imgBase (s : State) : Nat := (s.reg 0x7800).toNat
def State.imgLen (s : State) : Nat := s.regBits 0x7808 0 32
def State.descOff (s : State) : Nat := s.regBits 0x7808 32 32
def State.imgPart (s : State) : Nat := s.regBits 0x7818 0 6
def imageEntry (p i : Nat) : Nat := 0x6000 + 0x80 * p + 8 * i
/-- R261: the last request has ended with a STATUS, and of the window's other registers those at `l` alone have changed. -/
def requestEnds (s t : State) (status : Nat) (l : List Nat) : Prop :=
  t.regBits 0x7818 14 1 = 1 ∧ t.regBits 0x7818 16 8 = status ∧ t.imageReq = false ∧
    ∀ off, off / 8 ≠ 0x7818 / 8 → (∀ o ∈ l, off / 8 ≠ o / 8) → t.reg off = s.reg off

end Sys2Proof.Machine

open Sys2Proof Sys2Proof.Machine in
/-- R246, R264: HALT and RESUME move a partition's STATE or wait for it; a save empties the partition's banks into shadow
storage or its spill areas, and a restore puts the images back under FILL's rules. How an image is laid out is the model's
choice (log 15), and that a spill area's line in a guarded page, or at another world's die, is not written and is logged, and a
bank whose area may not be read stays empty (log 20). R261: GO, the end of a verification, which takes the request block and the
image as they then stand (log 61; a misaligned field is log 20), REVOKE. R266: WORLD is written only on a free die, logged at that die when refused
(log 37), and a world's keys are made when it is latched and go with the last die that holds it (a bank is free as in R314,
log 21). -/
def Obligations.PartitionsImagesAndWorldsFollowTheirRules : Prop :=
  (∀ (s : State) (p : Nat), p < 48 →
    let n := s.regBits (controlAt p) 2 2
    (n = 0 → ∃ t, exec (.partitionHalt p) s = .next t ∧ stateTo s t p 1) ∧
    (n = 2 ∨ n = 1 → ∃ t, exec (.partitionHalt p) s = .next t ∧ storesNone s t (controlAt p)) ∧
    (n = 3 → ∃ t, exec (.partitionHalt p) s = .next t ∧ nowDue s t p { s.part p with haltDue := true }) ∧
    (n = 2 → ∃ t, exec (.partitionResume p) s = .next t ∧ stateTo s t p 3) ∧
    (n = 0 ∨ n = 3 → ∃ t, exec (.partitionResume p) s = .next t ∧ storesNone s t (controlAt p)) ∧
    (n = 1 → ∃ t, exec (.partitionResume p) s = .next t ∧ nowDue s t p { s.part p with resumeDue := true })) ∧
  (∀ (s : State) (p b : Nat) (T : Team), p < 48 → OneTeam s p b T → s.regBits (controlAt p) 2 2 = 1 → (s.part p).shadows = [] →
    (s.bankQuiet b = false → exec (.partitionSaveDone p) s = .next s) ∧
    (s.bankQuiet b = true → ∃ t, exec (.partitionSaveDone p) s = .next t ∧ (t.bank b).team = none ∧
      (∀ i, i < 8 → (t.wave (8 * b + i)).resident = false) ∧
      t.regBits (controlAt p) 2 2 = (if (s.part p).resumeDue then 3 else 2) ∧
      (2 ≤ s.regBits (0x40 * p) 56 5 → t.regBits (controlAt p) 4 1 = 0 ∧ (∀ a, t.byte a = s.byte a) ∧
        (t.part p).shadows = [{ bank := b, ticket := s.nextTicket, area := none }] ∧
        ∃ sv, SMap.find? t.images s.nextTicket = some sv ∧ ShadowOf s b T sv) ∧
      (s.regBits (0x40 * p) 56 5 < 2 → t.regBits (controlAt p) 4 1 = 1 ∧
        let area := (s.reg (0x40 * p + 8)).toNat + 0x180000 * (b - 16 * s.partBase p)
        (∃ at_, ImageOf s b T at_ ∧ ∀ o, o < 0x180000 → openLine s p b area (o / 128) → t.byte (area + o) = at_ o) ∧
        LinesRefused s t p b area ∧
        ∀ a, ¬ (area ≤ a ∧ a < area + 0x180000) → t.byte a = s.byte a))) ∧
  (∀ (s : State) (p b n : Nat) (sv : SavedTeam), p < 48 →
    (s.regBits (controlAt p) 2 2 ≠ 3 → exec (.partitionRestoreDone p) s = .next s) ∧
    (s.regBits (controlAt p) 2 2 = 3 → (s.part p).shadows = [{ bank := b, ticket := n, area := none }] →
      SMap.find? s.images n = some sv → s.mayTake b sv.team.vf sv.team.footprint sv.view = false →
      exec (.partitionRestoreDone p) s = .next s) ∧
    (∀ area, s.regBits (controlAt p) 2 2 = 3 → (s.part p).shadows = [{ bank := b, ticket := n, area := some area }] →
      (∀ i, i < 12288 → s.portRefuses (b / 128) (s.partWorld p) (area + 128 * i) = false) →
      headOf (fun o => s.byte (area + o)) = some sv → s.imageOk sv = true → (∀ W ∈ sv.waves, W.capsule = none) →
      s.mayTake b sv.team.vf sv.team.footprint sv.view = true →
      ∃ t, exec (.partitionRestoreDone p) s = .next t ∧ (t.part p).shadows = [] ∧
        t.regBits (controlAt p) 2 2 = (if (s.part p).haltDue then 1 else 0) ∧ (∀ a, t.byte a = s.byte a) ∧
        RestoredFrom t b sv.team.setBanks sv fun o => s.byte (area + o)) ∧
    (∀ area, s.regBits (controlAt p) 2 2 = 3 → (s.part p).shadows = [{ bank := b, ticket := n, area := some area }] →
      (∃ i, i < 12288 ∧ s.portRefuses (b / 128) (s.partWorld p) (area + 128 * i) = true) →
      ∃ t, exec (.partitionRestoreDone p) s = .next t ∧ (t.part p).shadows = [] ∧
        t.regBits (controlAt p) 2 2 = (if (s.part p).haltDue then 1 else 0) ∧ (∀ a, t.byte a = s.byte a) ∧
        t.banks = s.banks ∧ t.waves = s.waves ∧ LinesShut s t p b area) ∧
    (s.regBits (controlAt p) 2 2 = 3 → (s.part p).shadows = [{ bank := b, ticket := n, area := none }] →
      SMap.find? s.images n = some sv → sv.waves.length = 8 → (∀ W ∈ sv.waves, W.capsule = none) →
      s.mayTake b sv.team.vf sv.team.footprint sv.view = true →
      ∃ t, exec (.partitionRestoreDone p) s = .next t ∧ (t.part p).shadows = [] ∧
        t.regBits (controlAt p) 2 2 = (if (s.part p).haltDue then 1 else 0) ∧ (∀ a, t.byte a = s.byte a) ∧
        ShadowBack t b sv)) ∧
  (∀ s : State,
    (s.imgPart < 48 → s.imageReq = false → (s.reg 0x7818).getLsbD 9 = false → ∃ t, exec .imageLoadGo s = .next t ∧
      t = { s with win := t.win, imageReq := true, waiters := t.waiters } ∧ wakesWindow s t 0x7818 ∧ t.regBits 0x7818 14 1 = 0 ∧
      ∀ off, off / 8 ≠ 0x7818 / 8 → t.reg off = s.reg off) ∧
    (47 < s.imgPart ∨ s.imageReq = true → ∃ t, exec .imageLoadGo s = .next t ∧ writeRefused s t 0x7818) ∧
    (s.imgPart < 48 → (s.reg 0x7818).getLsbD 8 = false → ∃ t, exec .imageRevoke s = .next t ∧
      let p := s.imgPart
      let i := s.regBits 0x7818 10 4
      t.regBits (imageEntry p i) 63 1 = 0 ∧ t.regBits (imageEntry p i) 0 63 = s.regBits (imageEntry p i) 0 63 ∧
      (∀ e, e ∈ t.imagePages ↔ e ∈ s.imagePages ∧ ¬ (e.1 = p ∧ e.2.1 = i)) ∧
      ∀ off, off / 8 ≠ 0x7818 / 8 → off / 8 ≠ imageEntry p i / 8 → t.reg off = s.reg off)) ∧
  (∀ (s : State) (ok : Bool) (loadid : Word),
    let p := s.imgPart
    let fields := s.imgBase % 4096 = 0 ∧ s.descOff % 64 = 0 ∧ s.descOff + 64 ≤ s.imgLen ∧ p < 48
    let used := fun i => s.regBits (imageEntry p i) 63 1 = 1
    (s.imageReq = false → exec (.imageVerifyDone ok loadid) s = .next s) ∧
    (s.imageReq = true → ∃ t, exec (.imageVerifyDone ok loadid) s = .next t ∧
      (¬ fields → requestEnds s t 3 [] ∧ ∀ a, t.byte a = s.byte a) ∧
      (fields → ok = false → requestEnds s t 1 [] ∧ ∀ a, t.byte a = s.byte a) ∧
      (fields → ok = true → (∀ i, i < 16 → used i) → requestEnds s t 2 [] ∧ ∀ a, t.byte a = s.byte a) ∧
      (∀ i, fields → ok = true → i < 16 → ¬ used i → (∀ j, j < i → used j) → s.imgBase + s.descOff < 2 ^ 56 →
        let d := s.imgBase + s.descOff
        requestEnds s t 0 [imageEntry p i] ∧ t.reg (imageEntry p i) = BitVec.ofNat 64 (2 ^ 63 + d) ∧
        quad t (d + 16) = loadid.toNat ∧ (∀ a, ¬ (d + 16 ≤ a ∧ a < d + 24) → t.byte a = s.byte a) ∧
        t.imagePages = (p, i, s.imgBase, s.imgLen) :: s.imagePages ∧ t.measured.length = s.measured.length + 1))) ∧
  (∀ (s : State) (d : Nat) (v : Word), d < 8 →
    let reg := 0x1000000 + 0x1000 * d
    let w := v.toNat % 256
    let free := (∀ b, b / 128 = d → s.bankFree b = true) ∧
      ∀ p, p < 48 → s.partEn p = true → ¬ (s.partBase p / 8 ≤ d ∧ d ≤ s.partLim p / 8)
    (¬ free → ∃ t, exec (.worldWrite d v) s = .next t ∧ writeRefusedAt s t d reg) ∧
    (free → ∃ t, exec (.worldWrite d v) s = .next t ∧ (t.reg reg).toNat = v.toNat % 512 ∧
      (∀ off, off / 8 ≠ reg / 8 → t.reg off = s.reg off) ∧ wakesWindow s t reg ∧
      let makes := v.getLsbD 8 = true ∧ w ≠ 0 ∧ ∀ e ∈ s.worldKeys, e.1 ≠ w
      (makes → t = { s with
        win := t.win, worldKeys := (w, s.keyCount + 1) :: s.worldKeys, keyCount := s.keyCount + 1, waiters := t.waiters }) ∧
      (¬ makes → t = { s with win := t.win, waiters := t.waiters }))) ∧
  (∀ (s : State) (w : Nat),
    let held := ∃ d, d < 8 ∧ s.wid d = w ∧ s.regBits (0x1000000 + 0x1000 * d) 8 1 = 1
    (held → exec (.worldKeyDestroy w) s = .next s) ∧
    (¬ held → ∃ t, exec (.worldKeyDestroy w) s = .next t ∧ t = { s with worldKeys := t.worldKeys } ∧
      ∀ e, e ∈ t.worldKeys ↔ e ∈ s.worldKeys ∧ e.1 ≠ w))

namespace Sys2Proof.Machine

/-! ### Outside parties -/

/-- R258: offsets that the window's map gives to nothing. -/
def reservedOffset (off : Nat) : Prop :=
  (0xC00 ≤ off ∧ off < 0x1000) ∨ (0x2800 ≤ off ∧ off < 0x4000) ∨ (0x4180 ≤ off ∧ off < 0x6000) ∨
    (0x7840 ≤ off ∧ off < 0x8000) ∨ (0x8C00 ≤ off ∧ off < 0xA000) ∨ (0xA200 ≤ off ∧ off < 0x10000) ∨
    (0x12000 ≤ off ∧ off < 0x100000) ∨ (0x700000 ≤ off ∧ off < 0x1000000) ∨ (0x1008000 ≤ off ∧ off < 0x1100000) ∨
    (0x1104000 ≤ off ∧ off < 0x10000000) ∨ (0x30000000 ≤ off ∧ off < 0x40000000) ∨ 0x400C0000 ≤ off
/-- A write has left `v` in the register at `off`, and no other has changed. -/
def regTo (s t : State) (off : Nat) (v : Word) : Prop :=
  onlyRegs s t [off] ∧ t.reg off = v ∧ t.outputs = s.outputs ∧ wakesWindow s t off
/-- The bits of a mask take their values from `v`. -/
def merged (mask old v : Word) : Word := (old &&& ~~~mask) ||| (v &&& mask)
/-- A write of `v` at `off` by a hart at HS goes on to a state with `P`. -/
def hartWrites (s : State) (off : Nat) (v : Word) (P : State → Prop) : Prop :=
  ∃ t, exec (.windowWrite off v .system) s = .next t ∧ P t
/-- R290: a hart's write at `off` is refused. -/
def hartRefused (s : State) (off : Nat) (v : Word) : Prop := hartWrites s off v fun t => writeRefused s t off
/-- A hart's write at `off` is stored in the bits of a mask. -/
def hartStores (s : State) (off : Nat) (mask v : Word) : Prop :=
  hartWrites s off v fun t => regTo s t off (merged mask (s.reg off) v)
/-- A hart's write at `off` is dropped. -/
def hartDropped (s : State) (off : Nat) (v : Word) : Prop := hartWrites s off v fun t => storesNone s t off
/-- R259: a value that the first quad of partition `p`'s entry takes. -/
structure PartitionRule (s : State) (p : Nat) (v : Word) : Prop where
  ranges : bitField v.toNat 0 6 ≤ bitField v.toNat 6 6 ∧ 2 ≤ bitField v.toNat 16 4 ∧ bitField v.toNat 16 4 ≤ 6 ∧
    12 ≤ bitField v.toNat 20 5 ∧ bitField v.toNat 20 5 ≤ 30 ∧ bitField v.toNat 48 8 ≠ 0 ∧ bitField v.toNat 56 5 ≤ 16
  fixed : (bitField v.toNat 0 12 = s.regBits (0x40 * p) 0 12 ∧ bitField v.toNat 16 4 = s.regBits (0x40 * p) 16 4) ∨
    (s.partEn p = false ∧ ∀ b, b < 1024 → (s.partBase p ≤ b / 16 ∧ b / 16 ≤ s.partLim p ∨
      bitField v.toNat 0 6 ≤ b / 16 ∧ b / 16 ≤ bitField v.toNat 6 6) → s.bankFree b = true)
  enabled : bitField v.toNat 12 1 = 1 → bitField v.toNat 32 16 ≠ 0 ∧
    (∀ q c, q < 48 → q ≠ p → s.partEn q = true → s.partBase q ≤ c → c ≤ s.partLim q →
      ¬ (bitField v.toNat 0 6 ≤ c ∧ c ≤ bitField v.toNat 6 6)) ∧
    (s.partEn p = true ∨ ∀ c, bitField v.toNat 0 6 ≤ c → c ≤ bitField v.toNat 6 6 → s.wid (c / 8) = s.partWorld p ∧
      (s.partWorld p ≠ 0 → s.regBits (0x1000000 + 0x1000 * (c / 8)) 8 1 = 1))
/-- The other enabled VFs of a partition. -/
def State.vfsOf (s : State) (p u : Nat) : List Nat :=
  (List.range 192).filter fun n => decide (n ≠ u ∧ s.vfEn n = true ∧ s.vfPart n = p)
/-- R259, R260: a value that the first quad of VF `u`'s entry takes. -/
structure VfRule (s : State) (u : Nat) (v : Word) : Prop where
  ranges : bitField v.toNat 2 4 ≠ 0 ∧ bitField v.toNat 6 6 ≤ 47
  fixed : s.vfEn u = true → bitField v.toNat 6 6 = s.vfPart u ∧ bitField v.toNat 1 1 = s.regBits (0x1000 + 0x20 * u) 1 1 ∧
    bitField v.toNat 12 1 = s.regBits (0x1000 + 0x20 * u) 12 1
  enabled : bitField v.toNat 0 1 = 1 → (s.vfsOf (bitField v.toNat 6 6) u).length < 4 ∧
    (bitField v.toNat 12 1 = 1 → ∀ n ∈ s.vfsOf (bitField v.toNat 6 6) u, s.vfSvc n = false)
/-- R310: bounce channel `j` of VF `v`. -/
def channelAt (v j : Nat) : Nat := 0x40000200 + 0x1000 * v + 0x20 * j
/-- R290: a die's SYSERR takes an address, with its count. -/
def loggedAt (s t : State) (d : Nat) (a : Word) : Prop :=
  onlyRegs s t [0x1000010 + 0x1000 * d, 0x1000018 + 0x1000 * d] ∧ t.reg (0x1000010 + 0x1000 * d) = a ∧
    t.reg (0x1000018 + 0x1000 * d) = s.reg (0x1000018 + 0x1000 * d) + 1
/-- The value of `n` bytes of memory, and memory after a store of them. -/
def memValue (s : State) (pa n : Nat) : Nat := ((List.range n).map fun i => (s.byte (pa + i)).toNat * 256 ^ i).sum
def stored (s t : State) (pa n v : Nat) : Prop :=
  ∀ a, t.byte a = if pa ≤ a ∧ a < pa + n then BitVec.ofNat 8 (v / 256 ^ (a - pa)) else s.byte a
/-- No byte of the access is poisoned. -/
def cleanAt (s : State) (pa n : Nat) : Prop := ∀ i, i < n → SMap.get (fun _ => false) s.poison (pa + i) = false
/-- R225: every write counted in a clock has been applied at a die. -/
def applied (s : State) (d : Nat) (clock : List Nat) : Prop :=
  ∀ k, k < 8 → clock.getD k 0 ≤ (s.clocks.getD d []).getD k 0

/-- R242: offsets of a wave's window below its control words whose writes are dropped. -/
def contextFixed (o : Nat) : Prop :=
  (0x7A00 ≤ o ∧ o < 0x7A10) ∨ o = 0x7B40 ∨ (0x7B50 ≤ o ∧ o < 0x7B80) ∨ (0x7BC0 ≤ o ∧ o < 0x7C50) ∨ o = 0x7C58 ∨
    (0x7C68 ≤ o ∧ o < 0x8000) ∨ (0x9000 ≤ o ∧ o < 0xFFE8)
/-- R176: a flow stands where its BARSYNC arrived. -/
def standsIn (t : Slot) (e : SyncRec) : Prop := t.live = true ∧ e.mask = t.mask ∧ e.pc = t.pc
/-- R242: what a write of `v` at offset `o` of a wave's window leaves in the wave's context, by the field that `o` names. -/
structure ContextTakes (W U : Wave) (o : Nat) (v : Word) : Prop where
  vector : ∀ n i, n < 60 → i < 64 → o = 512 * n + 8 * i → U = { W with vregs := U.vregs } ∧
    ∀ r j, j < 128 → U.v r j = if r = n ∧ j = 2 * i then v.setWidth 32 else if r = n ∧ j = 2 * i + 1 then (v >>> 32).setWidth 32 else W.v r j
  scalar : ∀ n : SReg, o = 0x7800 + 8 * n.toNat → U = { W with sregs := U.sregs } ∧
    ∀ r, U.s r = if r = n ∧ n ≠ 0 then v else W.s r
  mask : ∀ (n : KReg) (h : Nat), n ≠ 0 → h < 2 → o = 0x7A00 + 16 * n.toNat + 8 * h → U = { W with kregs := U.kregs } ∧
    ∀ r i, i < 128 → (U.k r).getLsbD i = if r = n ∧ i / 64 = h then v.getLsbD (i % 64) else (W.k r).getLsbD i
  slots : ∀ q, q < 4 → (o = 0x7B00 + 8 * q → U.shown = (W.shown.1.putQuad q v, W.shown.2)) ∧
    (o = 0x7B20 + 8 * q → U.shown = (W.shown.1, W.shown.2.putQuad q v)) ∧
    (o = 0x7B00 + 8 * q ∨ o = 0x7B20 + 8 * q → U.trap = W.trap ∧ (W.handler = false → ∀ e, e ∈ U.syncs ↔ e ∈ W.syncs ∧
      (e.place = 0 → standsIn U.shown.1 e) ∧ (e.place = 1 → standsIn U.shown.2 e)))
  trap : (o = 0x7B48 ∨ o = 0x7C60 → U = withTnext W (v &&& ~~~3)) ∧
    (o = 0x7C50 → U = { W with trap := { W.trap with thndl := v &&& ~~~3 } })
  depths : ∀ j, j < 8 → o = 0x7B80 + 8 * j → U = { W with depths := U.depths } ∧
    ∀ i, i < 128 → U.depth i = if i / 16 = j then Nat.min (bitField v.toNat (4 * (i % 16)) 4) 8 else W.depth i
  fixed : contextFixed o → U = W
  operands : ∀ k, k < 512 → o = 0x8000 + 8 * k → U = { W with ostacks := U.ostacks } ∧ ∀ e, SMap.get zeros U.ostacks e =
    if e = 2 * k then v.setWidth 32 else if e = 2 * k + 1 then (v >>> 32).setWidth 32 else SMap.get zeros W.ostacks e

end Sys2Proof.Machine

open Sys2Proof Sys2Proof.Machine in
/-- R258, R259, R260, R290: writes to the configuration window are stored, dropped at reserved and read-only places, or refused
with the entry unchanged and the refusal logged; a guest reaches its register pages alone. R236, R265, R266, R269, R287, R309,
R322: the fields of the tables, the selectors and counters, HWORLD (a hart at M alone). R232, R308: the queue blocks. R242: a
wave's context. R310: HSEQ and RESYNC; a VF of a confidential partition has no channel. R265, R306: a flow that is cleared
loses its posted buffers. R176: a BARSYNC that a written slot no longer stands at is forgotten. R308: EN := 0 clears the indices and
STATE (of a queue out of ERROR too: log 60). What is the model's choice: reserved bits keep what they hold (log 42); a bank is free as in R314
(log 21); how a refusal is logged (log 37) and an HWORLD write from elsewhere dropped (log 21); which address
fields are aligned (log 20); that a write to an image table is refused (log 26); what becomes of the records of a fault buffer that shrinks (log 52). -/
def Obligations.WindowWritesAreStoredOrRefused : Prop :=
  (∀ (s : State) (off : Nat) (v : Word),
    (off % 8 ≠ 0 → ∀ path, ∃ t, exec (.windowWrite off v path) s = .next t ∧ writeRefused s t off) ∧
    (off % 8 = 0 → ¬ (0x40000000 ≤ off ∧ off < 0x400C0000) →
      ∃ t, exec (.windowWrite off v .guest) s = .next t ∧ writeRefused s t off) ∧
    (off % 8 = 0 → reservedOffset off → hartDropped s off v) ∧
    (off % 8 = 0 → 0x6000 ≤ off → off < 0x7800 → hartRefused s off v) ∧
    (¬ (0xA000 ≤ off ∧ off < 0xA200) → exec (.windowWrite off v .machine) s = exec (.windowWrite off v .system) s)) ∧
  (∀ (s : State) (p : Nat) (v : Word), p < 48 → let at_ := 0x40 * p
    (PartitionRule s p v → hartWrites s at_ v fun t => wakesWindow s t at_ ∧
      t = { s with win := t.win, parts := t.parts, fbufs := t.fbufs, waiters := t.waiters } ∧
      t.reg at_ = merged 0x1FFFFFFF0FFF1FFF (s.reg at_) v ∧ (∀ off, off / 8 ≠ at_ / 8 → t.reg off = s.reg off) ∧
      (∀ q, t.part q = if q = p ∧ v.getLsbD 12 = false then { s.part q with tornDown := false } else s.part q) ∧
      ∀ n, t.fbuf n = if n < 192 ∧ s.vfPart n = p ∧ 8 * 2 ^ bitField v.toNat 25 3 < (s.fbuf n).recs.length then
        { s.fbuf n with recs := (s.fbuf n).recs.take (8 * 2 ^ bitField v.toNat 25 3), dropped := true } else s.fbuf n) ∧
    (¬ PartitionRule s p v → hartRefused s at_ v) ∧
    (v.toNat % 65536 = 0 → hartWrites s (at_ + 8) v fun t => regTo s t (at_ + 8) v) ∧
    (v.toNat % 65536 ≠ 0 → hartRefused s (at_ + 8) v) ∧
    (s.partEn p = true → v.toNat % 256 ≠ s.partWorld p → hartRefused s (at_ + 16) v) ∧
    (s.partEn p = false ∨ v.toNat % 256 = s.partWorld p → hartStores s (at_ + 16) 0xFF v) ∧
    (∀ q, 3 ≤ q → q < 8 → hartDropped s (at_ + 8 * q) v) ∧
    (∃ t, exec (.partitionHalt p) s = .next t ∧ exec (.windowWrite (controlAt p) 1 .system) s = .next t) ∧
    ∃ t, exec (.partitionResume p) s = .next t ∧ exec (.windowWrite (controlAt p) 2 .system) s = .next t) ∧
  (∀ (s : State) (u : Nat) (v : Word), u < 192 → let at_ := 0x1000 + 0x20 * u
    (VfRule s u v → hartWrites s at_ v fun t => t = { s with win := t.win, fbufs := t.fbufs, waiters := t.waiters } ∧
      wakesWindow s t at_ ∧ t.reg at_ = merged 0x1FFF (s.reg at_) v ∧
      (∀ n, t.fbuf n = if n = u ∧ bitField v.toNat 6 6 ≠ s.vfPart u then FaultBuffer.zero else s.fbuf n) ∧
      ∀ off, off / 8 ≠ at_ / 8 → t.reg off = s.reg off) ∧
    (¬ VfRule s u v → hartRefused s at_ v) ∧
    (v.toNat % 4096 ≠ 0 ∨ (s.vfEn u = true ∧ v ≠ s.reg (at_ + 8)) → hartRefused s (at_ + 8) v) ∧
    (v.toNat % 4096 = 0 → s.vfEn u = false ∨ v = s.reg (at_ + 8) → hartWrites s (at_ + 8) v fun t => regTo s t (at_ + 8) v) ∧
    hartDropped s (at_ + 16) v ∧ hartDropped s (at_ + 24) v) ∧
  (∀ (s : State) (i : Nat) (v : Word), i < 256 → let at_ := 0x10000 + 0x20 * i
    (bitField v.toNat 8 8 ≤ 191 → hartStores s at_ 0x0000FFFFFF07FF01 v) ∧ (191 < bitField v.toNat 8 8 → hartRefused s at_ v) ∧
    (hartWrites s (at_ + 8) v fun t => regTo s t (at_ + 8) v) ∧
    (bitField v.toNat 16 16 ≤ 64 → hartWrites s (at_ + 16) v fun t => regTo s t (at_ + 16) v) ∧
    (64 < bitField v.toNat 16 16 → hartRefused s (at_ + 16) v) ∧ hartStores s (at_ + 24) 0xFFFFFFFF v) ∧
  (∀ (s : State) (p f : Nat) (v : Word), p < 48 → f < 4096 → let at_ := 0x100000 + 0x20000 * p + 0x20 * f
    (11 < bitField v.toNat 16 4 → hartRefused s at_ v) ∧
    (bitField v.toNat 16 4 ≤ 11 → ¬ (s.regBits at_ 0 1 = 1 ∧ v.getLsbD 0 = false) → hartStores s at_ 0xFFFFFFFF000FFF03 v) ∧
    (bitField v.toNat 16 4 ≤ 11 → s.regBits at_ 0 1 = 1 → v.getLsbD 0 = false → hartWrites s at_ v fun t =>
      t = { s with win := t.win, posted := t.posted, waiters := t.waiters } ∧ wakesWindow s t at_ ∧
      t.reg at_ = merged 0xFFFFFFFF000FFF03 (s.reg at_) v ∧ (∀ off, off / 8 ≠ at_ / 8 → t.reg off = s.reg off) ∧
      ∀ k, SMap.get (fun _ => []) t.posted k = if k = 4096 * p + f then [] else SMap.get (fun _ => []) s.posted k) ∧
    hartStores s (at_ + 8) 0x0FFFFFFFFFFFFFFF v ∧ hartStores s (at_ + 16) 0xFFFF v ∧ hartDropped s (at_ + 24) v) ∧
  (∀ (s : State) (p : Nat) (v : Word), p < 48 → let at_ := ringAt p
    let size := bitField v.toNat 0 4
    (v.toNat % 4096 = 0 → hartWrites s at_ v fun t => regTo s t at_ v) ∧ (v.toNat % 4096 ≠ 0 → hartRefused s at_ v) ∧
    (size = 0 ∨ (4 ≤ size ∧ size ≤ 12) → hartStores s (at_ + 8) 0xF v) ∧
    (¬ (size = 0 ∨ (4 ≤ size ∧ size ≤ 12)) → hartRefused s (at_ + 8) v) ∧ hartStores s (at_ + 16) 0xFFFFFFFF v ∧
    ∀ q, 3 ≤ q → q < 8 → hartDropped s (at_ + 8 * q) v) ∧
  (∀ (s : State) (h : Nat) (v : Word), h < 64 → let at_ := 0xA000 + 8 * h
    hartDropped s at_ v ∧ ∃ t, exec (.windowWrite at_ v .machine) s = .next t ∧ regTo s t at_ (merged 0xFF (s.reg at_) v)) ∧
  (∀ (s : State) (v : Word), (∀ q, q < 3 → hartWrites s (0x7800 + 8 * q) v fun t => regTo s t (0x7800 + 8 * q) v) ∧
    (∀ q, 4 ≤ q → q < 8 → hartDropped s (0x7800 + 8 * q) v) ∧
    exec (.windowWrite 0x7818 (s.reg 0x7818 ||| 0x100) .system) s = exec .imageLoadGo s ∧
    exec (.windowWrite 0x7818 (s.reg 0x7818 ||| 0x200) .system) s = exec .imageRevoke s ∧
    (∀ d j, d < 8 → j < 16 → let sel := 0x1000100 + 0x1000 * d + 8 * j
      (hartWrites s sel v fun t => regTo s t sel (if 0x80 ≤ v.toNat % 256 ∧ v.toNat % 256 ≤ 0x86 then v &&& 0x3FF else 0)) ∧
      hartWrites s (sel + 0x80) v fun t => regTo s t (sel + 0x80) v) ∧
    (∀ d o, d < 8 → o % 8 = 0 → 0 < o → o < 0x1000 → ¬ (0x100 ≤ o ∧ o < 0x200) → hartDropped s (0x1000000 + 0x1000 * d + o) v) ∧
    (∀ d, d < 8 → exec (.windowWrite (0x1000000 + 0x1000 * d) v .system) s = exec (.worldWrite d v) s) ∧
    (∀ c j, c < 64 → j < 8 → let sel := 0x1100000 + 0x100 * c + 8 * j
      (hartWrites s sel v fun t => regTo s t sel (if 0x40 ≤ v.toNat % 256 ∧ v.toNat % 256 ≤ 0x43 then v &&& 0x3FF else 0)) ∧
      (hartWrites s (sel + 0x40) v fun t => regTo s t (sel + 0x40) v) ∧ hartDropped s (sel + 0x80) v)) ∧
  (∀ (s : State) (w o : Nat) (v : Word), w < 8192 → o < 0xFFE8 → o % 8 = 0 →
    ((s.wave w).resident = false → hartDropped s (contextAt w + o) v) ∧
    ((s.wave w).resident = true → hartWrites s (contextAt w + o) v fun t =>
      t = { s with waves := t.waves, waiters := t.waiters } ∧ wakesWindow s t (contextAt w + o) ∧
      (∀ u, u ≠ w → t.wave u = s.wave u) ∧ ContextTakes (s.wave w) (t.wave w) o v) ∧
    exec (.windowWrite (contextAt w + 0xFFE8) v .system) s = exec (.kill w v) s ∧
    exec (.windowWrite (contextAt w + 0xFFF0) v .system) s = exec (.deliver w v) s ∧
    exec (.windowWrite (contextAt w + 0xFFF8) v .system) s = exec (.resume w v) s) ∧
  (∀ (s : State) (u q : Nat) (v : Word) (path : WinPath), u < 192 → q < 8 → let at_ := queueAt u q
    let mask : Word := if path = .guest then 0x1F else 0xFF
    let writes (o : Nat) (P : State → Prop) := ∃ t, exec (.windowWrite (at_ + o) v path) s = .next t ∧ P t
    let same := v.toNat % 32 = s.logSize u q
    (s.queueOn u q → writes 0 fun t => writeRefused s t at_) ∧ (¬ s.queueOn u q → writes 0 fun t => regTo s t at_ v) ∧
    (s.queueOn u q → ¬ same → writes 8 fun t => writeRefused s t (at_ + 8)) ∧
    (s.queueOn u q → same → v.getLsbD 8 = true → writes 8 fun t => regTo s t (at_ + 8) (merged mask (s.reg (at_ + 8)) v)) ∧
    ((s.queueOn u q → same) → v.getLsbD 8 = false → writes 8 fun t => onlyRegs s t [at_ + 8, at_ + 16, at_ + 24, at_ + 32] ∧
      t.reg (at_ + 8) = merged (mask ||| 0x100) (s.reg (at_ + 8)) v ∧ t.widx u q = 0 ∧ t.ridx u q = 0 ∧
      t.regBits (at_ + 32) 0 2 = 0 ∧ t.outputs = s.outputs) ∧
    (¬ s.queueOn u q → v.getLsbD 8 = true → ringGood (s.queueBase u q).toNat (v.toNat % 32) →
      writes 8 fun t => regTo s t (at_ + 8) (merged (mask ||| 0x100) (s.reg (at_ + 8)) v)) ∧
    (¬ s.queueOn u q → v.getLsbD 8 = true → ¬ ringGood (s.queueBase u q).toNat (v.toNat % 32) →
      writes 8 fun t => onlyRegs s t [at_ + 8, at_ + 32, at_ + 40] ∧
        t.reg (at_ + 8) = merged (mask ||| 0x100) (s.reg (at_ + 8)) v ∧ errorAt t u q (s.queueBase u q) ∧
        t.outputs = s.outputs ++ [.windowError (at_ + 8)]) ∧
    (path = .guest ∨ ¬ s.netFed u q → exec (.windowWrite (at_ + 16) v path) s = exec (.queueDoorbell u q v) s) ∧
    ∀ o, 3 ≤ o → o < 8 → writes (8 * o) fun t => storesNone s t (at_ + 8 * o)) ∧
  (∀ (s : State) (u : Nat) (v : Word) (path : WinPath), u < 192 → let at_ := 0x40000300 + 0x1000 * u
    let writes (o : Nat) (P : State → Prop) := ∃ t, exec (.windowWrite (at_ + o) v path) s = .next t ∧ P t
    (path = .guest → ∀ q, q < 4 → writes (8 * q) fun t => storesNone s t (at_ + 8 * q)) ∧
    (path ≠ .guest → (v.toNat % 4096 = 0 → writes 0 fun t => regTo s t at_ v) ∧
      (v.toNat % 4096 ≠ 0 → writes 0 fun t => writeRefused s t at_) ∧
      (writes 8 fun t => regTo s t (at_ + 8) (merged 0xFFFFFFFF (s.reg (at_ + 8)) v)) ∧
      (v.getLsbD 0 = true → writes 16 fun t => regTo s t (at_ + 16) (s.reg (at_ + 16) &&& ~~~1)) ∧
      (v.getLsbD 0 = false → writes 16 fun t => storesNone s t (at_ + 16)) ∧ writes 24 fun t => storesNone s t (at_ + 24)) ∧
    let page := 0x40000000 + 0x1000 * u
    ∀ o, o % 8 = 0 → 0x280 ≤ o → o < 0x1000 → ¬ (0x300 ≤ o ∧ o < 0x320) →
      ∃ t, exec (.windowWrite (page + o) v path) s = .next t ∧ storesNone s t (page + o)) ∧
  (∀ (s : State) (u j : Nat) (v : W32) (d : Word) (path : WinPath), u < 192 → j < 4 → let at_ := channelAt u j
    let writes (o : Nat) (P : State → Prop) := ∃ t, exec (.windowWrite (at_ + o) d path) s = .next t ∧ P t
    (s.partWorld (s.vfPart u) ≠ 0 → (∀ q, q < 4 → writes (8 * q) fun t => storesNone s t (at_ + 8 * q)) ∧
      (∃ t, exec (.bounceHseqWrite u j v) s = .next t ∧ storesNone s t (at_ + 16)) ∧
      ∃ t, exec (.bounceResync u j v) s = .next t ∧ storesNone s t (at_ + 24)) ∧
    (s.partWorld (s.vfPart u) = 0 →
      (path = .guest → ∀ q, q < 2 → writes (8 * q) fun t => storesNone s t (at_ + 8 * q)) ∧
      (path ≠ .guest → (d.toNat % 4096 = 0 → writes 0 fun t => regTo s t at_ d) ∧
        (d.toNat % 4096 ≠ 0 → writes 0 fun t => writeRefused s t at_) ∧
        (d.toNat % 16 ≤ 10 → writes 8 fun t => regTo s t (at_ + 8) (merged 0x3FF0F (s.reg (at_ + 8)) d)) ∧
        (10 < d.toNat % 16 → writes 8 fun t => writeRefused s t (at_ + 8))) ∧
      exec (.windowWrite (at_ + 16) d path) s = exec (.bounceHseqWrite u j (d.setWidth 32)) s ∧
      exec (.windowWrite (at_ + 24) d path) s = exec (.bounceResync u j ((d >>> 32).setWidth 32)) s ∧
      (s.regBits (at_ + 8) 18 1 = 1 → ∃ t, exec (.bounceHseqWrite u j v) s = .next t ∧ writeRefused s t (at_ + 16)) ∧
      (s.regBits (at_ + 8) 18 1 = 0 → ∃ t, exec (.bounceHseqWrite u j v) s = .next t ∧
        regTo s t (at_ + 16) (merged 0xFFFFFFFF (s.reg (at_ + 16)) (v.setWidth 64))) ∧
      (v.toNat ≠ s.regBits (at_ + 16) 32 32 → ∃ t, exec (.bounceResync u j v) s = .next t ∧ writeRefused s t (at_ + 24)) ∧
      (v.toNat = s.regBits (at_ + 16) 32 32 → ∃ t, exec (.bounceResync u j v) s = .next t ∧ onlyRegs s t [at_ + 8, at_ + 16] ∧
        t.reg (at_ + 16) = merged 0xFFFFFFFF (s.reg (at_ + 16)) (v.setWidth 64) ∧ t.reg (at_ + 8) = s.reg (at_ + 8) &&& ~~~0x40000 ∧
        t.outputs = s.outputs))) ∧
  (∀ (s : State) (p f : Nat), let at_ := 0x100000 + 0x20000 * p + 0x20 * f
    ∃ t, exec (.flowValidClear p f) s = .next t ∧ t = { s with win := t.win, posted := t.posted, waiters := t.waiters } ∧
    wakesWindow s t at_ ∧ t.reg at_ = s.reg at_ &&& ~~~1 ∧ (∀ off, off / 8 ≠ at_ / 8 → t.reg off = s.reg off) ∧
    ∀ k, SMap.get (fun _ => []) t.posted k = if k = 4096 * p + f then [] else SMap.get (fun _ => []) s.posted k)

namespace Sys2Proof.Machine

/-- R266, R269, R290: a die's port has refused a request of another world at `pa`: WERR, and event 0x84 in the die's counters
that select it; `l` are the other registers that have changed. -/
def worldRefusedAt (s t : State) (d pa : Nat) (l : List Nat) : Prop :=
  let counter (j : Nat) := 0x1000180 + 0x1000 * d + 8 * j
  let counts (j : Nat) := s.regBits (counter j - 0x80) 0 8 = 0x84 ∧ s.regBits (counter j - 0x80) 8 2 ≠ 0
  onlyRegs s t ([0x1000008 + 0x1000 * d] ++ l ++ (List.range 16).map counter) ∧ t.reg (0x1000008 + 0x1000 * d) = BitVec.ofNat 64 pa ∧
    (∀ j, j < 16 → counts j → t.reg (counter j) = s.reg (counter j) + 1) ∧
    ∀ j, j < 16 → ¬ counts j → t.reg (counter j) = s.reg (counter j)
/-- R320: a store has cleared the marks of its bytes. -/
def marksCleared (s t : State) (pa n : Nat) : Prop :=
  ∀ a, SMap.get (fun _ => false) t.poison a = if pa ≤ a ∧ a < pa + n then false else SMap.get (fun _ => false) s.poison a
/-- R225: a write of die `src` sent with a clock waits to be applied at die `dst`. -/
def crossesTo (src dst : Nat) (clock : List Nat) (e : Crossing) : Prop := e.src = src ∧ e.clock = clock ∧ dst ∈ e.todo
/-- R258: a hart's load at an offset of the window answers `v`. -/
def hartReads (s : State) (h off : Nat) (v : Word) : Prop :=
  ∀ x, exec (.lerridHartMemoryAccess h .load (0xFFF0000000000000 + off) 8 x) s = .next { s with outputs := s.outputs ++ [.hartValue h v] }
/-- R12: major opcodes of vector and of matrix instructions. -/
def withheldMajor (m : Nat) : Prop := (0x12 ≤ m ∧ m ≤ 0x1F) ∨ m = 0x3C ∨ m = 0x31

end Sys2Proof.Machine

open Sys2Proof Sys2Proof.Machine in
/-- R229, R266, R290: an access of a hart or a device reaches memory whose home die holds its world, and is refused and
logged elsewhere, by the home die, and for a device by its port's I/O die also; an image's page takes no write (R261). R258:
a hart's access to the window; another than an aligned one of 8 bytes is refused and logged. R268: the root of trust's measurements,
signed. R12: cycles are withheld: in one that is, no matrix or vector instruction issues, and others may as before. R225: a write is applied at a die after every write counted in its clock. What is the model's choice:
the home die of an address is `Config.homeDie` (log 18), a device's world is 0 and what a port tests (log 19), a hart's AMO to
the window (log 26), HWORLD reads 0 where it may not be read (log 62), digests and the signature (log 11), and the clocks beside a memory of one copy (log 5). -/
def Obligations.OutsideAccessesAreServedOrRefused : Prop :=
  (∀ (s : State) (port pa n : Nat) (v : Word), port < 4 →
    let home := Config.homeDie pa % 8
    let die := if port < 2 then 0 else 4
    (s.wid home ≠ 0 → ∀ write, ∃ t, exec (.pcieCxlRequest port write pa n v) s = .next t ∧
      worldRefusedAt s t home pa [0x1000010 + 0x1000 * die, 0x1000018 + 0x1000 * die] ∧
      t.reg (0x1000010 + 0x1000 * die) = BitVec.ofNat 64 pa ∧
      t.reg (0x1000018 + 0x1000 * die) = s.reg (0x1000018 + 0x1000 * die) + 1 ∧ t.outputs = s.outputs ++ [.pcieAbort port]) ∧
    (s.wid home = 0 → s.guardedIn pa n = true → ∃ t, exec (.pcieCxlRequest port true pa n v) s = .next t ∧
      loggedAt s t die (BitVec.ofNat 64 pa) ∧ t.outputs = s.outputs ++ [.pcieAbort port]) ∧
    (s.wid home = 0 → s.guardedIn pa n = false → ∃ t, exec (.pcieCxlRequest port true pa n v) s = .next t ∧
      stored s t pa n v.toNat ∧ marksCleared s t pa n ∧ t.outputs = s.outputs) ∧
    (s.wid home = 0 → n ≤ 8 → cleanAt s pa n → exec (.pcieCxlRequest port false pa n v) s =
      .next { s with outputs := s.outputs ++ [.pcieValue port (BitVec.ofNat 64 (memValue s pa n))] })) ∧
  (∀ (s : State) (h pa n : Nat) (acc : HartAccess) (v : Word), n = 1 ∨ n = 2 ∨ n = 4 ∨ n = 8 → pa < 0xFFF0000000000000 →
    let home := Config.homeDie pa % 8
    let mine := s.wid home = s.regBits (0xA000 + 8 * h) 0 8
    (¬ mine → ∃ t, exec (.lerridHartMemoryAccess h acc pa n v) s = .next t ∧ worldRefusedAt s t home pa [] ∧
      t.outputs = s.outputs ++ [.hartError h]) ∧
    (mine → s.guardedIn pa n = true → acc ≠ .load → ∃ t, exec (.lerridHartMemoryAccess h acc pa n v) s = .next t ∧
      loggedAt s t 0 (BitVec.ofNat 64 pa) ∧ t.outputs = s.outputs ++ [.hartError h]) ∧
    (mine → cleanAt s pa n → exec (.lerridHartMemoryAccess h .load pa n v) s =
      .next { s with outputs := s.outputs ++ [.hartValue h (BitVec.ofNat 64 (memValue s pa n))] }) ∧
    (mine → s.guardedIn pa n = false → ∃ t, exec (.lerridHartMemoryAccess h .store pa n v) s = .next t ∧
      stored s t pa n v.toNat ∧ marksCleared s t pa n ∧ t.outputs = s.outputs) ∧
    (∀ op, mine → s.guardedIn pa n = false → cleanAt s pa n → 4 ≤ n → v.toNat < 2 ^ (8 * n) → op ≠ .cas →
      (n = 4 ∨ (op ≠ .fadd ∧ op ≠ .fmin ∧ op ≠ .fmax)) →
      ∃ t, exec (.lerridHartMemoryAccess h (.amo op) pa n v) s = .next t ∧
        stored s t pa n (combined op n (memValue s pa n) v.toNat 0) ∧
        t.outputs = s.outputs ++ [.hartValue h (BitVec.ofNat 64 (memValue s pa n))])) ∧
  (∀ (s : State) (h off n : Nat) (acc : HartAccess) (v : Word), let pa := 0xFFF0000000000000 + off
    (n ≠ 8 ∨ off % 8 ≠ 0 ∨ (∃ op, acc = .amo op) →
      ∃ t, exec (.lerridHartMemoryAccess h acc pa n v) s = .next t ∧ loggedAt s t 0 (BitVec.ofNat 64 pa) ∧
        t.outputs = s.outputs ++ [.hartError h]) ∧
    (off % 8 = 0 → exec (.lerridHartMemoryAccess h .store pa 8 v) s = exec (.windowWrite off v .system) s) ∧
    (off % 8 = 0 → off < 0x1000400 → ¬ (0x1000180 ≤ off ∧ off < 0x1000200) → ¬ (0xA000 ≤ off ∧ off < 0xA200) →
      hartReads s h off (s.reg off)) ∧
    (off % 8 = 0 → 0xA000 ≤ off → off < 0xA200 → hartReads s h off 0) ∧
    (∀ w o, w < 8192 → o < 0x10000 → o % 8 = 0 → off = contextAt w + o →
      ((s.wave w).resident = false → hartReads s h off 0) ∧
      ((s.wave w).resident = true →
        (∀ r i, r < 60 → i < 64 → o = 512 * r + 8 * i → hartReads s h off ((s.wave w).v r (2 * i + 1) ++ (s.wave w).v r (2 * i))) ∧
        (∀ r : SReg, o = 0x7800 + 8 * r.toNat → hartReads s h off ((s.wave w).s r)) ∧
        (o = 0x7B00 → hartReads s h off (s.wave w).shown.1.pc) ∧ (o = 0x7B20 → hartReads s h off (s.wave w).shown.2.pc) ∧
        (o = 0x7B40 → hartReads s h off (s.wave w).trap.tpc) ∧
        (o = 0x7B48 ∨ o = 0x7C60 → hartReads s h off (s.wave w).trap.tnext) ∧
        (0x7C68 ≤ o → o < 0x8000 → hartReads s h off 0) ∧ (0x9800 ≤ o → hartReads s h off 0))) ∧
    ∀ u q, u < 192 → q < 8 → off = queueAt u q + 32 →
      (s.inError u q → hartReads s h off 2) ∧
      (¬ s.inError u q → s.queueOn u q → s.pendingAt u q (s.widx u q) ≠ 0 → hartReads s h off 1) ∧
      (¬ s.inError u q → (∀ l ∈ s.launches, ¬ (l.vf = u ∧ l.q = q ∧ l.placed < l.teams)) →
        ¬ s.queueOn u q ∨ s.pendingAt u q (s.widx u q) = 0 → hartReads s h off 0)) ∧
  (∀ s : State, ∃ ms ws,
    exec .spdmRequest s = .next { s with
      outputs := s.outputs ++ [.measurements ms ws (Config.attest (match s.blob with | some b => b.idcert | none => []) ms ws)] } ∧
    (∀ b, s.blob = some b → ms = Config.firmwareDigest :: Config.blobDigest b.items :: s.measured) ∧
    (s.blob = none → ms = Config.firmwareDigest :: s.measured) ∧ ws.length = 8 ∧
    ∀ d, d < 8 → ws.getD d 0 = s.reg (0x1000000 + 0x1000 * d)) ∧
  (∀ (s : State) (n : Nat), exec (.powerLimitWithholding n) s = .next { s with withholdTo := Nat.max s.withholdTo s.cycle + n }) ∧
  (∀ (s : State) (w : Nat) (x : SlotId) (m : Nat), s.nextMajor w x = some m → ((s.wave w).slot x).park = .none →
    (withheldMajor m → s.cycle < s.withholdTo → s.completing w x = false → (w, x) ∉ s.issues) ∧
    (¬ withheldMajor m → ∀ n, State.unitFree { s with withholdTo := n } w x = s.unitFree w x)) ∧
  (∀ (s : State) (src dst : Nat) (clock : List Nat),
    (¬ applied s dst clock ∨ (∀ e ∈ s.crossing, ¬ crossesTo src dst clock e) → exec (.crossDieWriteApply src dst clock) s = .next s) ∧
    (applied s dst clock → (∃ e ∈ s.crossing, crossesTo src dst clock e) → src < 8 → dst < s.clocks.length →
      (s.clocks.getD dst []).length = 8 →
      ∃ t, exec (.crossDieWriteApply src dst clock) s = .next t ∧ t = { s with clocks := t.clocks, crossing := t.crossing } ∧
        (∀ d k, (t.clocks.getD d []).getD k 0 = (s.clocks.getD d []).getD k 0 + if d = dst ∧ k = src then 1 else 0) ∧
        (∀ e ∈ t.crossing, ¬ crossesTo src dst clock e) ∧
        (∀ e ∈ s.crossing, ¬ crossesTo src dst clock e → e.todo ≠ [] → e ∈ t.crossing) ∧
        ∀ e ∈ s.crossing, ∀ d, d ≠ dst → d ∈ e.todo → ∃ f ∈ t.crossing, f.src = e.src ∧ f.clock = e.clock ∧ f.line = e.line ∧ d ∈ f.todo))

namespace Sys2Proof.Machine

/-! ### The machine as a whole -/

/-- The instruction that stands at a slot's address: its words are fetched (R86, R291) and decode to it. -/
structure StandsAt (s : State) (w : Nat) (pc : Word) (i : Instr) : Prop where
  words : ∃ w0 w1 w2 : W32, fetchWord s w pc = some w0 ∧ (2 ≤ fetchWords w0 → fetchWord s w (pc + 4) = some w1) ∧
    (3 ≤ fetchWords w0 → fetchWord s w (pc + 8) = some w2) ∧
    decodeWords w0 (if 2 ≤ fetchWords w0 then w1 else 0) (if 3 ≤ fetchWords w0 then w2 else 0) = .ok i
/-- Issuing slot x of wave w takes `v`, in which its instruction is executed, to `t`: an instruction that has only waited has not
issued, though it has joined its queue; for another, with no injection armed and no check open, nothing but the note of its stages
changes. -/
structure Issues (s : State) (w : Nat) (x : SlotId) (i : Instr) (v t : State) : Prop where
  waits : onlyWaited v t w = true → ∃ r, runInstr s w x = .next r ∧ r = { s with banks := r.banks, cur := (w, x), stages := [] } ∧
    (∀ b, b ≠ w / 8 → r.bank b = s.bank b) ∧ r.bank (w / 8) = { s.bank (w / 8) with waitQ := (t.bank (w / 8)).waitQ }
  runs : onlyWaited v t w = false → runInstr s w x = .next (afterIssue (writesInj i) v t.entered)
  plain : onlyWaited v t w = false → (v.margin (coreOf w)).inj.getLsbD 17 = false → (v.core (coreOf w)).checks = [] →
    (t.core (coreOf w)).checks = [] → (writesInj i = true ∨ (t.margin (coreOf w)).inj = (v.margin (coreOf w)).inj) →
    ∃ r, runInstr s w x = .next r ∧ r = { t with stages := [], cores := r.cores } ∧ ∀ c, r.core c = t.core c
/-- R276: slot B is to trap, and slot A may issue in the same cycle and traps too. -/
def slotAFirst (s : State) (w : Nat) : Prop :=
  trapped s w (runInstr s w .b) = true ∧ ((s.wave w).slot .a).park = .none ∧ s.mayIssue w .a = true ∧
    trapped s w (runInstr s w .a) = true

end Sys2Proof.Machine

open Sys2Proof Sys2Proof.Machine in
/-- The step that the schedule picks (log 3). A slot that issues executes the instruction that stands at its address, after
the round-robin pointer has passed it (R240) and its fetch is noted; one that a check has failed issues again from the words it had
(R247; log 33). Of two traps in one cycle slot A's is taken (R276). A slot whose wait is over ends it without issuing. MISS and ILL
stand where there is no instruction (R291, R292; that a MISS inside a chain that may run again resumes at its head is log 14). An
event and an input are executed as their rows, a late sample of a slot with the stages that its next instruction enters (log 33).
R116: a wave that has yielded issues again only when each other ready wave of its team has issued once, or after 16 cycles. -/
def Obligations.StepRunsTheDecodedInstruction : Prop :=
  (∀ (s : State) (w : Nat) (x : SlotId), s.boot = .up → s.tickOn.pick (s.choices.headD 0) = some (.issue w x) →
    let s1 := s.tickOn
    (s1.parkOver w x = true → step s = .next (endWait { s1 with cur := (w, x), stages := [] })) ∧
    (s1.parkOver w x = false → ¬ (x = .b ∧ slotAFirst s1 w) → step s = runInstr s1 w x) ∧
    (s1.parkOver w x = false → x = .b → slotAFirst s1 w → step s = runInstr s1 w .a)) ∧
  (∀ (s : State) (w : Nat) (x : SlotId), let u := s.beginIssue w x
    (u.againWords w x = [] →
      (∀ i, StandsAt u w u.cs.pc i → ∀ t, let v := u.holdFetch w u.cs.pc (i.size / 4)
        exec i v = .next t → Issues s w x i v t) ∧
      (fetchWord u w u.cs.pc = none → runInstr s w x = .next { missTrap u u.cs.pc with stages := [] }) ∧
      (∀ w0, fetchWord u w u.cs.pc = some w0 → fetchWords w0 = 1 → (∀ i, decodeWords w0 0 0 ≠ .ok i) →
        runInstr s w x = .next { u.trapCur .ill 0 with stages := [] })) ∧
    (∀ w0 ws i t, u.againWords w x = w0 :: ws → decodeWords w0 (ws.getD 0 0) (ws.getD 1 0) = .ok i → exec i u = .next t →
      Issues s w x i u t) ∧
    ((u.bank (w / 8)).order = (List.range 8).map fun i => (w % 8 + 1 + i) % 8)) ∧
  (∀ (s : State) (w : Nat) (x : SlotId),
    (s.yielding w = true ↔ ∃ y ∈ (s.bank (w / 8)).yields, y.wave = w % 8 ∧ s.cycle < y.since + 16 ∧
      ∃ v, v / 8 = w / 8 ∧ v ≠ w ∧ y.after.getLsbD (v % 8) = false ∧ ∃ z, s.slotGoes v z = true) ∧
    (s.yielding w = true → ((s.wave w).slot x).park = .none → s.completing w x = false → (w, x) ∉ s.issues)) ∧
  (∀ (s : State) (e : Event), s.boot = .up →
    (s.tickOn.pick (s.choices.headD 0) = some (.event e) →
      ∀ t, exec e.instr (beforeEvent e s.tickOn) = .next t → step s = .next (afterEvent e s.tickOn t)) ∧
    (s.tickOn.pick (s.choices.headD 0) = some (.input e) → e.outside = true → e.instr.wf = true →
      (∀ f d, e ≠ .networkMessagePlacement f d) →
      ∀ t, exec e.instr (beforeEvent e { s.tickOn with inputs := s.inputs.drop 1 }) = .next t →
        step s = .next (afterEvent e { s.tickOn with inputs := s.inputs.drop 1 } t)) ∧
    (s.tickOn.pick (s.choices.headD 0) = none → ∃ t, step s = .next t ∧ s.cycle < t.cycle ∧ t.waves = s.waves ∧
      ∀ a, t.byte a = s.byte a))

open Sys2Proof Sys2Proof.Machine in
/-- R95, R106, R115, R116, R127, R134, R155, R187, R244, R303: words that the manual writes out decode to the instructions
they stand for. -/
def Obligations.WordsDecodeToTheirInstructions : Prop :=
  decodeTableWord 32 0x00308104 = some (.add 1 2 3) ∧
  decodeTableWord 32 0x08510318 = some (.shai 3 4 5) ∧
  decodeTableWord 32 0x0010223C = some (.bnone 2 4) ∧
  decodeTableWord 32 0x02000040 = some .tret ∧
  decodeTableWord 32 0x80007058 = some (.vlid 7 0) ∧
  decodeTableWord 64 (0x0004206D + 0x80 * 2 ^ 32) = some (.vcvt .f32 .bf16 2 1 0 .rne .sat false) ∧
  decodeTableWord 32 0x0801C080 = some (.tblld 2 7) ∧
  decodeTableWord 32 0x600002C4 = some (.cwait 2) ∧
  decodeTableWord 32 0x01401CC4 = some (.wload .q4 7) ∧
  decodeTableWord 32 0x045100D0 = some (.spill 4 5) ∧
  decodeTableWord 32 0x0401C6CC = some (.fbpop 6 7)

open Sys2Proof Sys2Proof.Machine in
/-- R86, R90 to R98: every well-formed instruction is read back from its words, with every operand: as many words as it has
are fetched, and they decode to it. -/
def Obligations.EncodedInstructionsDecodeToThemselves : Prop :=
  ∀ i : Instr, i.wf = true → i.isInstruction = true →
    ∃ w0 ws, encode i = w0 :: ws ∧ ws.length < 3 ∧ fetchWords w0 = ws.length + 1 ∧
      decodeWords w0 (ws.getD 0 0) (ws.getD 1 0) = .ok i ∧ ∀ rest, decode (encodeBytes i ++ rest) = .ok (i, rest)

open Sys2Proof Sys2Proof.Machine in
/-- Memory keeps its canonical form: from every state that has it, whatever step the schedule takes. The form is the
model's own. -/
def Obligations.EveryStepKeepsMemoryCanonical : Prop :=
  ∀ s t : State, s.memoryOk → step s = .next t → t.memoryOk

open Sys2Proof Sys2Proof.Machine in
/-- R256, R257: the module boots from the first copy of the firmware and of the blob that is accepted, with the blob's values
in the margin registers and all else zero or at its reset value, or stays in reset.
R256, R258: at reset the module is held in reset with nothing resident, the window at its reset values, and memory in
its canonical form. Registers for which the manual gives no reset value are zero (log 1); unwritten memory reads zero
(log 2); which values of a blob are out of range is read from other rules (log 38). That the step from reset boots rests on the flash
contents that the model gives (log 11). -/
def Obligations.ResetAndBootLeaveWhatTheManualSays : Prop :=
  (∀ s : State,
    (s.boot ≠ .inReset → exec .moduleBoot s = .next s) ∧
    (s.boot = .inReset →
      (s.fwOk = (false, false) ∨ ¬ BlobGood s.blobs.1 s.versionFloor ∧ ¬ BlobGood s.blobs.2 s.versionFloor →
        exec .moduleBoot s = .next { s with boot := .failed 1 }) ∧
      (s.fwOk ≠ (false, false) → BlobGood s.blobs.1 s.versionFloor →
        ∃ t, exec .moduleBoot s = .next t ∧ Booted s t s.blobs.1) ∧
      (s.fwOk ≠ (false, false) → ¬ BlobGood s.blobs.1 s.versionFloor → BlobGood s.blobs.2 s.versionFloor →
        ∃ t, exec .moduleBoot s = .next t ∧ Booted s t s.blobs.2)) ∧
    (∀ n, s.boot = .failed n → step s = .fault .heldInReset)) ∧
  (State.reset.boot = .inReset ∧ State.reset.memoryOk ∧ State.reset.cycle = 0 ∧ State.reset.launches = [] ∧
    (∀ w, State.reset.wave w = Wave.idle) ∧ (∀ b, State.reset.bank b = Bank.zero) ∧ (∀ a, State.reset.byte a = 0) ∧
    (∀ p, p < 48 → State.reset.regBits (0x40 * p) 16 4 = 4 ∧ State.reset.regBits (0x40 * p) 20 5 = 20 ∧
      State.reset.regBits (0x40 * p) 48 8 = 1 ∧ State.reset.partEn p = false) ∧
    (∀ v, v < 192 → State.reset.regBits (0x1000 + 0x20 * v) 2 4 = 1 ∧ State.reset.vfEn v = false) ∧
    ∃ t, step State.reset = .next t ∧ t.boot = .up ∧ t.memoryOk)

open Sys2Proof Sys2Proof.Machine in
/-- R315: quarantine lasts for the module's uptime: no step of a module that is up ends it. -/
def Obligations.QuarantineLastsWhileTheModuleIsUp : Prop :=
  ∀ (s t : State) (c : Nat), s.boot = .up → s.quarantined c = true → step s = .next t → t.quarantined c = true
end

