-- ==== Sys2Proof/Laws/Map.lean ====
section
/-! SUPPORT. Laws/Map.lean: sparse maps read back what was written, and every write keeps the canonical form. -/
namespace Sys2Proof.Machine

variable {α : Type}

@[simp] theorem SMap.find?_nil (k : Nat) : SMap.find? ([] : SMap α) k = none := rfl
theorem SMap.find?_cons (k' : Nat) (v : α) (m : SMap α) (k : Nat) :
    SMap.find? ((k', v) :: m) k = if k = k' then some v else SMap.find? m k := rfl

theorem SMap.find?_insert (m : SMap α) (k j : Nat) (v : α) :
    (SMap.insert m k v).find? j = if j = k then some v else m.find? j := by
  induction m with
  | nil => rfl
  | cons e m ih =>
    obtain ⟨k', v'⟩ := e
    simp only [SMap.insert]
    split
    · rfl
    · split
      · next h => subst h; simp only [SMap.find?_cons]; split <;> rfl
      · simp only [SMap.find?_cons, ih]
        grind

theorem SMap.find?_erase (m : SMap α) (k j : Nat) :
    (SMap.erase m k).find? j = if j = k then none else m.find? j := by
  induction m with
  | nil => simp [SMap.erase]
  | cons e m ih =>
    obtain ⟨k', v'⟩ := e
    simp only [SMap.erase]
    split <;> simp only [SMap.find?_cons, ih] <;> grind

/-- Reading a key after writing one. -/
theorem SMap.get_set [DecidableEq α] (d : Nat → α) (m : SMap α) (k j : Nat) (v : α) :
    SMap.get d (SMap.set d m k v) j = if j = k then v else SMap.get d m j := by
  unfold SMap.get SMap.set
  split
  · next h => rw [SMap.find?_erase]; split <;> simp_all
  · rw [SMap.find?_insert]; split <;> simp

@[simp] theorem SMap.get_set_self [DecidableEq α] (d : Nat → α) (m : SMap α) (k : Nat) (v : α) :
    SMap.get d (SMap.set d m k v) k = v := by simp [SMap.get_set]
theorem SMap.get_set_ne [DecidableEq α] (d : Nat → α) (m : SMap α) {k j : Nat} (v : α) (h : j ≠ k) :
    SMap.get d (SMap.set d m k v) j = SMap.get d m j := by simp [SMap.get_set, h]

@[simp] theorem SMap.get_nil (d : Nat → α) (k : Nat) : SMap.get d ([] : SMap α) k = d k := rfl

/-- Reading a key after a range has been cleared. -/
theorem SMap.get_clear (d : Nat → α) (m : SMap α) (lo n j : Nat) :
    SMap.get d (SMap.clear m lo n) j = if lo ≤ j ∧ j < lo + n then d j else SMap.get d m j := by
  unfold SMap.get
  have h : (SMap.clear m lo n).find? j = if lo ≤ j ∧ j < lo + n then none else m.find? j := by
    induction m with
    | nil => simp [SMap.clear]
    | cons e m ih =>
      obtain ⟨k', v'⟩ := e
      simp only [SMap.clear, List.filter_cons] at ih ⊢
      split <;> simp only [SMap.find?_cons, ih] <;> grind
  rw [h]; split <;> simp

/-! ### The canonical form -/

theorem SMap.sortedFrom_mono {k j : Nat} (h : k ≤ j) : ∀ {m : SMap α}, SMap.sortedFrom j m = true → SMap.sortedFrom k m = true
  | [], _ => rfl
  | (k', _) :: m, hm => by
    simp only [SMap.sortedFrom, Bool.and_eq_true, decide_eq_true_eq] at hm ⊢
    exact ⟨by omega, hm.2⟩

theorem SMap.sorted_of_sortedFrom {k : Nat} : ∀ {m : SMap α}, SMap.sortedFrom k m = true → SMap.sorted m = true
  | [], _ => rfl
  | (k', _) :: m, hm => by
    simp only [SMap.sortedFrom, Bool.and_eq_true] at hm
    exact hm.2

theorem SMap.sortedFrom_insert {k j : Nat} (v : α) (h : k < j) :
    ∀ {m : SMap α}, SMap.sortedFrom k m = true → SMap.sortedFrom k (SMap.insert m j v) = true
  | [], _ => by simp [SMap.insert, SMap.sortedFrom, h]
  | (k', v') :: m, hm => by
    simp only [SMap.sortedFrom, Bool.and_eq_true, decide_eq_true_eq] at hm
    simp only [SMap.insert]
    split
    · next hj => simp [SMap.sortedFrom, h, hj, hm.2]
    · split
      · next hj => subst hj; simp [SMap.sortedFrom, h, hm.2]
      · next h1 h2 =>
        simp only [SMap.sortedFrom, Bool.and_eq_true, decide_eq_true_eq]
        exact ⟨hm.1, SMap.sortedFrom_insert v (by omega) hm.2⟩

theorem SMap.sorted_insert {j : Nat} (v : α) : ∀ {m : SMap α}, SMap.sorted m = true → SMap.sorted (SMap.insert m j v) = true
  | [], _ => rfl
  | (k', v') :: m, hm => by
    simp only [SMap.insert]
    split
    · next hj =>
      simp only [SMap.sorted, SMap.sortedFrom, Bool.and_eq_true, decide_eq_true_eq]
      exact ⟨hj, hm⟩
    · split
      · next hj => subst hj; exact hm
      · next h1 h2 => exact SMap.sortedFrom_insert v (by omega) hm

theorem SMap.sortedFrom_filter (p : Nat × α → Bool) {k : Nat} :
    ∀ {m : SMap α}, SMap.sortedFrom k m = true → SMap.sortedFrom k (m.filter p) = true
  | [], _ => rfl
  | (k', v') :: m, hm => by
    simp only [SMap.sortedFrom, Bool.and_eq_true, decide_eq_true_eq] at hm
    rw [List.filter_cons]
    split
    · simp [SMap.sortedFrom, hm.1, SMap.sortedFrom_filter p hm.2]
    · exact SMap.sortedFrom_mono (by omega) (SMap.sortedFrom_filter p hm.2)

theorem SMap.sorted_filter (p : Nat × α → Bool) : ∀ {m : SMap α}, SMap.sorted m = true → SMap.sorted (m.filter p) = true
  | [], _ => rfl
  | (k', v') :: m, hm => by
    rw [List.filter_cons]
    split
    · exact SMap.sortedFrom_filter p hm
    · exact SMap.sorted_of_sortedFrom (SMap.sortedFrom_filter p hm)

theorem SMap.erase_eq_filter (m : SMap α) (k : Nat) : SMap.erase m k = m.filter fun e => !decide (k = e.1) := by
  induction m with
  | nil => rfl
  | cons e m ih =>
    obtain ⟨k', v'⟩ := e
    simp only [SMap.erase, List.filter_cons, ih]
    split <;> simp_all

theorem SMap.all_insert (p : Nat × α → Bool) (k : Nat) (v : α) (hv : p (k, v) = true) :
    ∀ {m : SMap α}, m.all p = true → (SMap.insert m k v).all p = true
  | [], _ => by simp [SMap.insert, hv]
  | (k', v') :: m, hm => by
    simp only [List.all_cons, Bool.and_eq_true] at hm
    simp only [SMap.insert]
    split
    · simp [hv, hm.1, hm.2]
    · split
      · next hj => subst hj; simp [hv, hm.2]
      · simp only [List.all_cons, hm.1, Bool.true_and]; exact SMap.all_insert p k v hv hm.2

theorem SMap.all_filter (p q : Nat × α → Bool) {m : SMap α} (h : m.all p = true) : (m.filter q).all p = true := by
  rw [List.all_eq_true] at h ⊢
  exact fun x hx => h x (List.mem_filter.1 hx).1

/-- A filtered map keeps the canonical form. -/
theorem SMap.wf_filter [DecidableEq α] (d : Nat → α) (p : Nat × α → Bool) {m : SMap α} (h : SMap.wf d m = true) :
    SMap.wf d (m.filter p) = true := by
  unfold SMap.wf at h ⊢
  rw [Bool.and_eq_true] at h ⊢
  exact ⟨SMap.sorted_filter p h.1, SMap.all_filter _ p h.2⟩

theorem SMap.wf_clear [DecidableEq α] (d : Nat → α) {m : SMap α} (lo n : Nat) (h : SMap.wf d m = true) :
    SMap.wf d (SMap.clear m lo n) = true := SMap.wf_filter d _ h

/-- A write keeps the canonical form. -/
theorem SMap.wf_set [DecidableEq α] (d : Nat → α) {m : SMap α} (k : Nat) (v : α) (h : SMap.wf d m = true) :
    SMap.wf d (SMap.set d m k v) = true := by
  unfold SMap.set
  split
  · rw [SMap.erase_eq_filter]; exact SMap.wf_filter d _ h
  · next hv =>
    unfold SMap.wf at h ⊢
    rw [Bool.and_eq_true] at h ⊢
    exact ⟨SMap.sorted_insert v h.1, SMap.all_insert _ k v (by simp [hv]) h.2⟩

/-- Writes over a list keep the canonical form. -/
theorem SMap.wf_foldl_set [DecidableEq α] {β : Type} (d : Nat → α) (key : β → Nat) (val : β → α) (l : List β) {m : SMap α}
    (h : SMap.wf d m = true) : SMap.wf d (l.foldl (fun m e => SMap.set d m (key e) (val e)) m) = true := by
  induction l generalizing m with
  | nil => exact h
  | cons e l ih => exact ih (SMap.wf_set d _ _ h)

/-- Memory's slices are put back in canonical form. -/
theorem Memory.wf_unslice {m : SMap Byte} (lo n : Nat) (part : SMap Byte) (h : Memory.wf m = true) :
    Memory.wf (SMap.unslice m lo n part) = true :=
  SMap.wf_foldl_set zeros (fun (e : Nat × Byte) => lo + e.1) (fun e => e.2) part.reverse (SMap.wf_clear zeros lo n h)

theorem Memory.wf_nil : Memory.wf [] = true := rfl

/-- The lanes that a masked write leaves alone, and those that it writes. -/
theorem SMap.get_setLanes (m : SMap W32) (base : Nat) (mask : Mask) (f : Nat → W32) (j : Nat) :
    SMap.get zeros (SMap.setLanes m base mask f) j =
      if base ≤ j ∧ j < base + 128 ∧ mask.getLsbD (j - base) then f (j - base) else SMap.get zeros m j := by
  have key : ∀ (n : Nat) (m : SMap W32),
      SMap.get zeros ((List.range n).foldl (fun m i => if mask.getLsbD i then SMap.set zeros m (base + i) (f i) else m) m) j =
        if base ≤ j ∧ j < base + n ∧ mask.getLsbD (j - base) then f (j - base) else SMap.get zeros m j := by
    intro n
    induction n with
    | zero => intro m; simp; omega
    | succ n ih =>
      intro m
      rw [List.range_succ, List.foldl_append]
      simp only [List.foldl_cons, List.foldl_nil]
      split
      · next hb =>
        rw [SMap.get_set, ih]
        by_cases hj : j = base + n
        · subst hj; simp [hb]
        · simp only [hj, if_false]
          congr 1
          simp only [eq_iff_iff]
          constructor <;> rintro ⟨h1, h2, h3⟩ <;> exact ⟨h1, by omega, h3⟩
      · next hb =>
        rw [ih]
        congr 1
        simp only [eq_iff_iff]
        constructor
        · rintro ⟨h1, h2, h3⟩; exact ⟨h1, by omega, h3⟩
        · rintro ⟨h1, h2, h3⟩
          refine ⟨h1, ?_, h3⟩
          rcases Nat.lt_or_ge j (base + n) with h | h
          · exact h
          · have : j = base + n := by omega
            subst this; simp at h3; exact absurd h3 hb
  exact key 128 m

/-! ### Masks of lanes -/

theorem laneMask_getLsbD (p : Nat → Bool) (i : Nat) : (laneMask p).getLsbD i = (decide (i < 128) && p i) := by
  have key : ∀ (n : Nat), n ≤ 128 → ((List.range n).foldl (fun (m : Mask) i => if p i then m ||| ((1 : Mask) <<< i) else m) 0).getLsbD i
      = (decide (i < n) && p i) := by
    intro n
    induction n with
    | zero => intro _; simp
    | succ n ih =>
      intro hn
      rw [List.range_succ, List.foldl_append]
      simp only [List.foldl_cons, List.foldl_nil]
      have h1 : ((1#128) <<< n).getLsbD i = decide (i = n) := by
        simp only [BitVec.getLsbD_shiftLeft, BitVec.getLsbD_one]
        by_cases hi : i = n
        · subst hi; simp; omega
        · simp [hi]; omega
      split
      · next hp =>
        rw [BitVec.getLsbD_or, ih (by omega), show ((1 : Mask) <<< n) = (1#128) <<< n from rfl, h1]
        by_cases hi : i = n
        · subst hi; simp [hp]
        · have : (decide (i < n + 1)) = decide (i < n) := by simp; omega
          rw [this]; simp [hi]
      · next hp =>
        rw [ih (by omega)]
        by_cases hi : i = n
        · subst hi; simp [hp]
        · have : (decide (i < n + 1)) = decide (i < n) := by simp; omega
          rw [this]
  exact key 128 (Nat.le_refl _)

end Sys2Proof.Machine
end

