-- ==== Sys2Proof/Laws/State.lean ====
section
/-! SUPPORT. Laws/State.lean: what each update of the state leaves alone, field by field, and what a read after an update
gives. -/
namespace Sys2Proof.Machine

/-! ### Fields of the state after each update -/

@[simp] theorem State.setWave_cycle (s : State) (w : Nat) (x : Wave) : (s.setWave w x).cycle = s.cycle := rfl
@[simp] theorem State.setWave_withheld (s : State) (w : Nat) (x : Wave) : (s.setWave w x).withheld = s.withheld := rfl
@[simp] theorem State.setWave_withholdTo (s : State) (w : Nat) (x : Wave) : (s.setWave w x).withholdTo = s.withholdTo := rfl
@[simp] theorem State.setWave_tick (s : State) (w : Nat) (x : Wave) : (s.setWave w x).tick = s.tick := rfl
@[simp] theorem State.setWave_choices (s : State) (w : Nat) (x : Wave) : (s.setWave w x).choices = s.choices := rfl
@[simp] theorem State.setWave_delays (s : State) (w : Nat) (x : Wave) : (s.setWave w x).delays = s.delays := rfl
@[simp] theorem State.setWave_boot (s : State) (w : Nat) (x : Wave) : (s.setWave w x).boot = s.boot := rfl
@[simp] theorem State.setWave_fwOk (s : State) (w : Nat) (x : Wave) : (s.setWave w x).fwOk = s.fwOk := rfl
@[simp] theorem State.setWave_blobs (s : State) (w : Nat) (x : Wave) : (s.setWave w x).blobs = s.blobs := rfl
@[simp] theorem State.setWave_blob (s : State) (w : Nat) (x : Wave) : (s.setWave w x).blob = s.blob := rfl
@[simp] theorem State.setWave_versionFloor (s : State) (w : Nat) (x : Wave) : (s.setWave w x).versionFloor = s.versionFloor := rfl
@[simp] theorem State.setWave_power (s : State) (w : Nat) (x : Wave) : (s.setWave w x).power = s.power := rfl
@[simp] theorem State.setWave_pmem (s : State) (w : Nat) (x : Wave) : (s.setWave w x).pmem = s.pmem := rfl
@[simp] theorem State.setWave_plain (s : State) (w : Nat) (x : Wave) : (s.setWave w x).plain = s.plain := rfl
@[simp] theorem State.setWave_poison (s : State) (w : Nat) (x : Wave) : (s.setWave w x).poison = s.poison := rfl
@[simp] theorem State.setWave_waiters (s : State) (w : Nat) (x : Wave) : (s.setWave w x).waiters = s.waiters := rfl
@[simp] theorem State.setWave_banks (s : State) (w : Nat) (x : Wave) : (s.setWave w x).banks = s.banks := rfl
@[simp] theorem State.setWave_cores (s : State) (w : Nat) (x : Wave) : (s.setWave w x).cores = s.cores := rfl
@[simp] theorem State.setWave_parts (s : State) (w : Nat) (x : Wave) : (s.setWave w x).parts = s.parts := rfl
@[simp] theorem State.setWave_win (s : State) (w : Nat) (x : Wave) : (s.setWave w x).win = s.win := rfl
@[simp] theorem State.setWave_launches (s : State) (w : Nat) (x : Wave) : (s.setWave w x).launches = s.launches := rfl
@[simp] theorem State.setWave_nextKey (s : State) (w : Nat) (x : Wave) : (s.setWave w x).nextKey = s.nextKey := rfl
@[simp] theorem State.setWave_creditEpoch (s : State) (w : Nat) (x : Wave) : (s.setWave w x).creditEpoch = s.creditEpoch := rfl
@[simp] theorem State.setWave_xfers (s : State) (w : Nat) (x : Wave) : (s.setWave w x).xfers = s.xfers := rfl
@[simp] theorem State.setWave_posted (s : State) (w : Nat) (x : Wave) : (s.setWave w x).posted = s.posted := rfl
@[simp] theorem State.setWave_arrived (s : State) (w : Nat) (x : Wave) : (s.setWave w x).arrived = s.arrived := rfl
@[simp] theorem State.setWave_audits (s : State) (w : Nat) (x : Wave) : (s.setWave w x).audits = s.audits := rfl
@[simp] theorem State.setWave_tlb (s : State) (w : Nat) (x : Wave) : (s.setWave w x).tlb = s.tlb := rfl
@[simp] theorem State.setWave_fbufs (s : State) (w : Nat) (x : Wave) : (s.setWave w x).fbufs = s.fbufs := rfl
@[simp] theorem State.setWave_images (s : State) (w : Nat) (x : Wave) : (s.setWave w x).images = s.images := rfl
@[simp] theorem State.setWave_nextTicket (s : State) (w : Nat) (x : Wave) : (s.setWave w x).nextTicket = s.nextTicket := rfl
@[simp] theorem State.setWave_worldKeys (s : State) (w : Nat) (x : Wave) : (s.setWave w x).worldKeys = s.worldKeys := rfl
@[simp] theorem State.setWave_keyCount (s : State) (w : Nat) (x : Wave) : (s.setWave w x).keyCount = s.keyCount := rfl
@[simp] theorem State.setWave_measured (s : State) (w : Nat) (x : Wave) : (s.setWave w x).measured = s.measured := rfl
@[simp] theorem State.setWave_imageReq (s : State) (w : Nat) (x : Wave) : (s.setWave w x).imageReq = s.imageReq := rfl
@[simp] theorem State.setWave_imagePages (s : State) (w : Nat) (x : Wave) : (s.setWave w x).imagePages = s.imagePages := rfl
@[simp] theorem State.setWave_clocks (s : State) (w : Nat) (x : Wave) : (s.setWave w x).clocks = s.clocks := rfl
@[simp] theorem State.setWave_crossing (s : State) (w : Nat) (x : Wave) : (s.setWave w x).crossing = s.crossing := rfl
@[simp] theorem State.setWave_inputs (s : State) (w : Nat) (x : Wave) : (s.setWave w x).inputs = s.inputs := rfl
@[simp] theorem State.setWave_cur (s : State) (w : Nat) (x : Wave) : (s.setWave w x).cur = s.cur := rfl
@[simp] theorem State.setWave_stages (s : State) (w : Nat) (x : Wave) : (s.setWave w x).stages = s.stages := rfl
@[simp] theorem State.setWave_outputs (s : State) (w : Nat) (x : Wave) : (s.setWave w x).outputs = s.outputs := rfl

@[simp] theorem State.setBank_cycle (s : State) (b : Nat) (x : Bank) : (s.setBank b x).cycle = s.cycle := rfl
@[simp] theorem State.setBank_withheld (s : State) (b : Nat) (x : Bank) : (s.setBank b x).withheld = s.withheld := rfl
@[simp] theorem State.setBank_withholdTo (s : State) (b : Nat) (x : Bank) : (s.setBank b x).withholdTo = s.withholdTo := rfl
@[simp] theorem State.setBank_tick (s : State) (b : Nat) (x : Bank) : (s.setBank b x).tick = s.tick := rfl
@[simp] theorem State.setBank_choices (s : State) (b : Nat) (x : Bank) : (s.setBank b x).choices = s.choices := rfl
@[simp] theorem State.setBank_delays (s : State) (b : Nat) (x : Bank) : (s.setBank b x).delays = s.delays := rfl
@[simp] theorem State.setBank_boot (s : State) (b : Nat) (x : Bank) : (s.setBank b x).boot = s.boot := rfl
@[simp] theorem State.setBank_fwOk (s : State) (b : Nat) (x : Bank) : (s.setBank b x).fwOk = s.fwOk := rfl
@[simp] theorem State.setBank_blobs (s : State) (b : Nat) (x : Bank) : (s.setBank b x).blobs = s.blobs := rfl
@[simp] theorem State.setBank_blob (s : State) (b : Nat) (x : Bank) : (s.setBank b x).blob = s.blob := rfl
@[simp] theorem State.setBank_versionFloor (s : State) (b : Nat) (x : Bank) : (s.setBank b x).versionFloor = s.versionFloor := rfl
@[simp] theorem State.setBank_power (s : State) (b : Nat) (x : Bank) : (s.setBank b x).power = s.power := rfl
@[simp] theorem State.setBank_pmem (s : State) (b : Nat) (x : Bank) : (s.setBank b x).pmem = s.pmem := rfl
@[simp] theorem State.setBank_plain (s : State) (b : Nat) (x : Bank) : (s.setBank b x).plain = s.plain := rfl
@[simp] theorem State.setBank_poison (s : State) (b : Nat) (x : Bank) : (s.setBank b x).poison = s.poison := rfl
@[simp] theorem State.setBank_waiters (s : State) (b : Nat) (x : Bank) : (s.setBank b x).waiters = s.waiters := rfl
@[simp] theorem State.setBank_waves (s : State) (b : Nat) (x : Bank) : (s.setBank b x).waves = s.waves := rfl
@[simp] theorem State.setBank_cores (s : State) (b : Nat) (x : Bank) : (s.setBank b x).cores = s.cores := rfl
@[simp] theorem State.setBank_parts (s : State) (b : Nat) (x : Bank) : (s.setBank b x).parts = s.parts := rfl
@[simp] theorem State.setBank_win (s : State) (b : Nat) (x : Bank) : (s.setBank b x).win = s.win := rfl
@[simp] theorem State.setBank_launches (s : State) (b : Nat) (x : Bank) : (s.setBank b x).launches = s.launches := rfl
@[simp] theorem State.setBank_nextKey (s : State) (b : Nat) (x : Bank) : (s.setBank b x).nextKey = s.nextKey := rfl
@[simp] theorem State.setBank_creditEpoch (s : State) (b : Nat) (x : Bank) : (s.setBank b x).creditEpoch = s.creditEpoch := rfl
@[simp] theorem State.setBank_xfers (s : State) (b : Nat) (x : Bank) : (s.setBank b x).xfers = s.xfers := rfl
@[simp] theorem State.setBank_posted (s : State) (b : Nat) (x : Bank) : (s.setBank b x).posted = s.posted := rfl
@[simp] theorem State.setBank_arrived (s : State) (b : Nat) (x : Bank) : (s.setBank b x).arrived = s.arrived := rfl
@[simp] theorem State.setBank_audits (s : State) (b : Nat) (x : Bank) : (s.setBank b x).audits = s.audits := rfl
@[simp] theorem State.setBank_tlb (s : State) (b : Nat) (x : Bank) : (s.setBank b x).tlb = s.tlb := rfl
@[simp] theorem State.setBank_fbufs (s : State) (b : Nat) (x : Bank) : (s.setBank b x).fbufs = s.fbufs := rfl
@[simp] theorem State.setBank_images (s : State) (b : Nat) (x : Bank) : (s.setBank b x).images = s.images := rfl
@[simp] theorem State.setBank_nextTicket (s : State) (b : Nat) (x : Bank) : (s.setBank b x).nextTicket = s.nextTicket := rfl
@[simp] theorem State.setBank_worldKeys (s : State) (b : Nat) (x : Bank) : (s.setBank b x).worldKeys = s.worldKeys := rfl
@[simp] theorem State.setBank_keyCount (s : State) (b : Nat) (x : Bank) : (s.setBank b x).keyCount = s.keyCount := rfl
@[simp] theorem State.setBank_measured (s : State) (b : Nat) (x : Bank) : (s.setBank b x).measured = s.measured := rfl
@[simp] theorem State.setBank_imageReq (s : State) (b : Nat) (x : Bank) : (s.setBank b x).imageReq = s.imageReq := rfl
@[simp] theorem State.setBank_imagePages (s : State) (b : Nat) (x : Bank) : (s.setBank b x).imagePages = s.imagePages := rfl
@[simp] theorem State.setBank_clocks (s : State) (b : Nat) (x : Bank) : (s.setBank b x).clocks = s.clocks := rfl
@[simp] theorem State.setBank_crossing (s : State) (b : Nat) (x : Bank) : (s.setBank b x).crossing = s.crossing := rfl
@[simp] theorem State.setBank_inputs (s : State) (b : Nat) (x : Bank) : (s.setBank b x).inputs = s.inputs := rfl
@[simp] theorem State.setBank_cur (s : State) (b : Nat) (x : Bank) : (s.setBank b x).cur = s.cur := rfl
@[simp] theorem State.setBank_stages (s : State) (b : Nat) (x : Bank) : (s.setBank b x).stages = s.stages := rfl
@[simp] theorem State.setBank_outputs (s : State) (b : Nat) (x : Bank) : (s.setBank b x).outputs = s.outputs := rfl

@[simp] theorem State.setCore_cycle (s : State) (c : Nat) (x : Core) : (s.setCore c x).cycle = s.cycle := rfl
@[simp] theorem State.setCore_withheld (s : State) (c : Nat) (x : Core) : (s.setCore c x).withheld = s.withheld := rfl
@[simp] theorem State.setCore_withholdTo (s : State) (c : Nat) (x : Core) : (s.setCore c x).withholdTo = s.withholdTo := rfl
@[simp] theorem State.setCore_tick (s : State) (c : Nat) (x : Core) : (s.setCore c x).tick = s.tick := rfl
@[simp] theorem State.setCore_choices (s : State) (c : Nat) (x : Core) : (s.setCore c x).choices = s.choices := rfl
@[simp] theorem State.setCore_delays (s : State) (c : Nat) (x : Core) : (s.setCore c x).delays = s.delays := rfl
@[simp] theorem State.setCore_boot (s : State) (c : Nat) (x : Core) : (s.setCore c x).boot = s.boot := rfl
@[simp] theorem State.setCore_fwOk (s : State) (c : Nat) (x : Core) : (s.setCore c x).fwOk = s.fwOk := rfl
@[simp] theorem State.setCore_blobs (s : State) (c : Nat) (x : Core) : (s.setCore c x).blobs = s.blobs := rfl
@[simp] theorem State.setCore_blob (s : State) (c : Nat) (x : Core) : (s.setCore c x).blob = s.blob := rfl
@[simp] theorem State.setCore_versionFloor (s : State) (c : Nat) (x : Core) : (s.setCore c x).versionFloor = s.versionFloor := rfl
@[simp] theorem State.setCore_power (s : State) (c : Nat) (x : Core) : (s.setCore c x).power = s.power := rfl
@[simp] theorem State.setCore_pmem (s : State) (c : Nat) (x : Core) : (s.setCore c x).pmem = s.pmem := rfl
@[simp] theorem State.setCore_plain (s : State) (c : Nat) (x : Core) : (s.setCore c x).plain = s.plain := rfl
@[simp] theorem State.setCore_poison (s : State) (c : Nat) (x : Core) : (s.setCore c x).poison = s.poison := rfl
@[simp] theorem State.setCore_waiters (s : State) (c : Nat) (x : Core) : (s.setCore c x).waiters = s.waiters := rfl
@[simp] theorem State.setCore_waves (s : State) (c : Nat) (x : Core) : (s.setCore c x).waves = s.waves := rfl
@[simp] theorem State.setCore_banks (s : State) (c : Nat) (x : Core) : (s.setCore c x).banks = s.banks := rfl
@[simp] theorem State.setCore_parts (s : State) (c : Nat) (x : Core) : (s.setCore c x).parts = s.parts := rfl
@[simp] theorem State.setCore_win (s : State) (c : Nat) (x : Core) : (s.setCore c x).win = s.win := rfl
@[simp] theorem State.setCore_launches (s : State) (c : Nat) (x : Core) : (s.setCore c x).launches = s.launches := rfl
@[simp] theorem State.setCore_nextKey (s : State) (c : Nat) (x : Core) : (s.setCore c x).nextKey = s.nextKey := rfl
@[simp] theorem State.setCore_creditEpoch (s : State) (c : Nat) (x : Core) : (s.setCore c x).creditEpoch = s.creditEpoch := rfl
@[simp] theorem State.setCore_xfers (s : State) (c : Nat) (x : Core) : (s.setCore c x).xfers = s.xfers := rfl
@[simp] theorem State.setCore_posted (s : State) (c : Nat) (x : Core) : (s.setCore c x).posted = s.posted := rfl
@[simp] theorem State.setCore_arrived (s : State) (c : Nat) (x : Core) : (s.setCore c x).arrived = s.arrived := rfl
@[simp] theorem State.setCore_audits (s : State) (c : Nat) (x : Core) : (s.setCore c x).audits = s.audits := rfl
@[simp] theorem State.setCore_tlb (s : State) (c : Nat) (x : Core) : (s.setCore c x).tlb = s.tlb := rfl
@[simp] theorem State.setCore_fbufs (s : State) (c : Nat) (x : Core) : (s.setCore c x).fbufs = s.fbufs := rfl
@[simp] theorem State.setCore_images (s : State) (c : Nat) (x : Core) : (s.setCore c x).images = s.images := rfl
@[simp] theorem State.setCore_nextTicket (s : State) (c : Nat) (x : Core) : (s.setCore c x).nextTicket = s.nextTicket := rfl
@[simp] theorem State.setCore_worldKeys (s : State) (c : Nat) (x : Core) : (s.setCore c x).worldKeys = s.worldKeys := rfl
@[simp] theorem State.setCore_keyCount (s : State) (c : Nat) (x : Core) : (s.setCore c x).keyCount = s.keyCount := rfl
@[simp] theorem State.setCore_measured (s : State) (c : Nat) (x : Core) : (s.setCore c x).measured = s.measured := rfl
@[simp] theorem State.setCore_imageReq (s : State) (c : Nat) (x : Core) : (s.setCore c x).imageReq = s.imageReq := rfl
@[simp] theorem State.setCore_imagePages (s : State) (c : Nat) (x : Core) : (s.setCore c x).imagePages = s.imagePages := rfl
@[simp] theorem State.setCore_clocks (s : State) (c : Nat) (x : Core) : (s.setCore c x).clocks = s.clocks := rfl
@[simp] theorem State.setCore_crossing (s : State) (c : Nat) (x : Core) : (s.setCore c x).crossing = s.crossing := rfl
@[simp] theorem State.setCore_inputs (s : State) (c : Nat) (x : Core) : (s.setCore c x).inputs = s.inputs := rfl
@[simp] theorem State.setCore_cur (s : State) (c : Nat) (x : Core) : (s.setCore c x).cur = s.cur := rfl
@[simp] theorem State.setCore_stages (s : State) (c : Nat) (x : Core) : (s.setCore c x).stages = s.stages := rfl
@[simp] theorem State.setCore_outputs (s : State) (c : Nat) (x : Core) : (s.setCore c x).outputs = s.outputs := rfl

@[simp] theorem State.setPart_cycle (s : State) (p : Nat) (x : Part) : (s.setPart p x).cycle = s.cycle := rfl
@[simp] theorem State.setPart_withheld (s : State) (p : Nat) (x : Part) : (s.setPart p x).withheld = s.withheld := rfl
@[simp] theorem State.setPart_withholdTo (s : State) (p : Nat) (x : Part) : (s.setPart p x).withholdTo = s.withholdTo := rfl
@[simp] theorem State.setPart_tick (s : State) (p : Nat) (x : Part) : (s.setPart p x).tick = s.tick := rfl
@[simp] theorem State.setPart_choices (s : State) (p : Nat) (x : Part) : (s.setPart p x).choices = s.choices := rfl
@[simp] theorem State.setPart_delays (s : State) (p : Nat) (x : Part) : (s.setPart p x).delays = s.delays := rfl
@[simp] theorem State.setPart_boot (s : State) (p : Nat) (x : Part) : (s.setPart p x).boot = s.boot := rfl
@[simp] theorem State.setPart_fwOk (s : State) (p : Nat) (x : Part) : (s.setPart p x).fwOk = s.fwOk := rfl
@[simp] theorem State.setPart_blobs (s : State) (p : Nat) (x : Part) : (s.setPart p x).blobs = s.blobs := rfl
@[simp] theorem State.setPart_blob (s : State) (p : Nat) (x : Part) : (s.setPart p x).blob = s.blob := rfl
@[simp] theorem State.setPart_versionFloor (s : State) (p : Nat) (x : Part) : (s.setPart p x).versionFloor = s.versionFloor := rfl
@[simp] theorem State.setPart_power (s : State) (p : Nat) (x : Part) : (s.setPart p x).power = s.power := rfl
@[simp] theorem State.setPart_pmem (s : State) (p : Nat) (x : Part) : (s.setPart p x).pmem = s.pmem := rfl
@[simp] theorem State.setPart_plain (s : State) (p : Nat) (x : Part) : (s.setPart p x).plain = s.plain := rfl
@[simp] theorem State.setPart_poison (s : State) (p : Nat) (x : Part) : (s.setPart p x).poison = s.poison := rfl
@[simp] theorem State.setPart_waiters (s : State) (p : Nat) (x : Part) : (s.setPart p x).waiters = s.waiters := rfl
@[simp] theorem State.setPart_waves (s : State) (p : Nat) (x : Part) : (s.setPart p x).waves = s.waves := rfl
@[simp] theorem State.setPart_banks (s : State) (p : Nat) (x : Part) : (s.setPart p x).banks = s.banks := rfl
@[simp] theorem State.setPart_cores (s : State) (p : Nat) (x : Part) : (s.setPart p x).cores = s.cores := rfl
@[simp] theorem State.setPart_win (s : State) (p : Nat) (x : Part) : (s.setPart p x).win = s.win := rfl
@[simp] theorem State.setPart_launches (s : State) (p : Nat) (x : Part) : (s.setPart p x).launches = s.launches := rfl
@[simp] theorem State.setPart_nextKey (s : State) (p : Nat) (x : Part) : (s.setPart p x).nextKey = s.nextKey := rfl
@[simp] theorem State.setPart_creditEpoch (s : State) (p : Nat) (x : Part) : (s.setPart p x).creditEpoch = s.creditEpoch := rfl
@[simp] theorem State.setPart_xfers (s : State) (p : Nat) (x : Part) : (s.setPart p x).xfers = s.xfers := rfl
@[simp] theorem State.setPart_posted (s : State) (p : Nat) (x : Part) : (s.setPart p x).posted = s.posted := rfl
@[simp] theorem State.setPart_arrived (s : State) (p : Nat) (x : Part) : (s.setPart p x).arrived = s.arrived := rfl
@[simp] theorem State.setPart_audits (s : State) (p : Nat) (x : Part) : (s.setPart p x).audits = s.audits := rfl
@[simp] theorem State.setPart_tlb (s : State) (p : Nat) (x : Part) : (s.setPart p x).tlb = s.tlb := rfl
@[simp] theorem State.setPart_fbufs (s : State) (p : Nat) (x : Part) : (s.setPart p x).fbufs = s.fbufs := rfl
@[simp] theorem State.setPart_images (s : State) (p : Nat) (x : Part) : (s.setPart p x).images = s.images := rfl
@[simp] theorem State.setPart_nextTicket (s : State) (p : Nat) (x : Part) : (s.setPart p x).nextTicket = s.nextTicket := rfl
@[simp] theorem State.setPart_worldKeys (s : State) (p : Nat) (x : Part) : (s.setPart p x).worldKeys = s.worldKeys := rfl
@[simp] theorem State.setPart_keyCount (s : State) (p : Nat) (x : Part) : (s.setPart p x).keyCount = s.keyCount := rfl
@[simp] theorem State.setPart_measured (s : State) (p : Nat) (x : Part) : (s.setPart p x).measured = s.measured := rfl
@[simp] theorem State.setPart_imageReq (s : State) (p : Nat) (x : Part) : (s.setPart p x).imageReq = s.imageReq := rfl
@[simp] theorem State.setPart_imagePages (s : State) (p : Nat) (x : Part) : (s.setPart p x).imagePages = s.imagePages := rfl
@[simp] theorem State.setPart_clocks (s : State) (p : Nat) (x : Part) : (s.setPart p x).clocks = s.clocks := rfl
@[simp] theorem State.setPart_crossing (s : State) (p : Nat) (x : Part) : (s.setPart p x).crossing = s.crossing := rfl
@[simp] theorem State.setPart_inputs (s : State) (p : Nat) (x : Part) : (s.setPart p x).inputs = s.inputs := rfl
@[simp] theorem State.setPart_cur (s : State) (p : Nat) (x : Part) : (s.setPart p x).cur = s.cur := rfl
@[simp] theorem State.setPart_stages (s : State) (p : Nat) (x : Part) : (s.setPart p x).stages = s.stages := rfl
@[simp] theorem State.setPart_outputs (s : State) (p : Nat) (x : Part) : (s.setPart p x).outputs = s.outputs := rfl

@[simp] theorem State.setFbuf_cycle (s : State) (v : Nat) (x : FaultBuffer) : (s.setFbuf v x).cycle = s.cycle := rfl
@[simp] theorem State.setFbuf_withheld (s : State) (v : Nat) (x : FaultBuffer) : (s.setFbuf v x).withheld = s.withheld := rfl
@[simp] theorem State.setFbuf_withholdTo (s : State) (v : Nat) (x : FaultBuffer) : (s.setFbuf v x).withholdTo = s.withholdTo := rfl
@[simp] theorem State.setFbuf_tick (s : State) (v : Nat) (x : FaultBuffer) : (s.setFbuf v x).tick = s.tick := rfl
@[simp] theorem State.setFbuf_choices (s : State) (v : Nat) (x : FaultBuffer) : (s.setFbuf v x).choices = s.choices := rfl
@[simp] theorem State.setFbuf_delays (s : State) (v : Nat) (x : FaultBuffer) : (s.setFbuf v x).delays = s.delays := rfl
@[simp] theorem State.setFbuf_boot (s : State) (v : Nat) (x : FaultBuffer) : (s.setFbuf v x).boot = s.boot := rfl
@[simp] theorem State.setFbuf_fwOk (s : State) (v : Nat) (x : FaultBuffer) : (s.setFbuf v x).fwOk = s.fwOk := rfl
@[simp] theorem State.setFbuf_blobs (s : State) (v : Nat) (x : FaultBuffer) : (s.setFbuf v x).blobs = s.blobs := rfl
@[simp] theorem State.setFbuf_blob (s : State) (v : Nat) (x : FaultBuffer) : (s.setFbuf v x).blob = s.blob := rfl
@[simp] theorem State.setFbuf_versionFloor (s : State) (v : Nat) (x : FaultBuffer) : (s.setFbuf v x).versionFloor = s.versionFloor := rfl
@[simp] theorem State.setFbuf_power (s : State) (v : Nat) (x : FaultBuffer) : (s.setFbuf v x).power = s.power := rfl
@[simp] theorem State.setFbuf_pmem (s : State) (v : Nat) (x : FaultBuffer) : (s.setFbuf v x).pmem = s.pmem := rfl
@[simp] theorem State.setFbuf_plain (s : State) (v : Nat) (x : FaultBuffer) : (s.setFbuf v x).plain = s.plain := rfl
@[simp] theorem State.setFbuf_poison (s : State) (v : Nat) (x : FaultBuffer) : (s.setFbuf v x).poison = s.poison := rfl
@[simp] theorem State.setFbuf_waiters (s : State) (v : Nat) (x : FaultBuffer) : (s.setFbuf v x).waiters = s.waiters := rfl
@[simp] theorem State.setFbuf_waves (s : State) (v : Nat) (x : FaultBuffer) : (s.setFbuf v x).waves = s.waves := rfl
@[simp] theorem State.setFbuf_banks (s : State) (v : Nat) (x : FaultBuffer) : (s.setFbuf v x).banks = s.banks := rfl
@[simp] theorem State.setFbuf_cores (s : State) (v : Nat) (x : FaultBuffer) : (s.setFbuf v x).cores = s.cores := rfl
@[simp] theorem State.setFbuf_parts (s : State) (v : Nat) (x : FaultBuffer) : (s.setFbuf v x).parts = s.parts := rfl
@[simp] theorem State.setFbuf_win (s : State) (v : Nat) (x : FaultBuffer) : (s.setFbuf v x).win = s.win := rfl
@[simp] theorem State.setFbuf_launches (s : State) (v : Nat) (x : FaultBuffer) : (s.setFbuf v x).launches = s.launches := rfl
@[simp] theorem State.setFbuf_nextKey (s : State) (v : Nat) (x : FaultBuffer) : (s.setFbuf v x).nextKey = s.nextKey := rfl
@[simp] theorem State.setFbuf_creditEpoch (s : State) (v : Nat) (x : FaultBuffer) : (s.setFbuf v x).creditEpoch = s.creditEpoch := rfl
@[simp] theorem State.setFbuf_xfers (s : State) (v : Nat) (x : FaultBuffer) : (s.setFbuf v x).xfers = s.xfers := rfl
@[simp] theorem State.setFbuf_posted (s : State) (v : Nat) (x : FaultBuffer) : (s.setFbuf v x).posted = s.posted := rfl
@[simp] theorem State.setFbuf_arrived (s : State) (v : Nat) (x : FaultBuffer) : (s.setFbuf v x).arrived = s.arrived := rfl
@[simp] theorem State.setFbuf_audits (s : State) (v : Nat) (x : FaultBuffer) : (s.setFbuf v x).audits = s.audits := rfl
@[simp] theorem State.setFbuf_tlb (s : State) (v : Nat) (x : FaultBuffer) : (s.setFbuf v x).tlb = s.tlb := rfl
@[simp] theorem State.setFbuf_images (s : State) (v : Nat) (x : FaultBuffer) : (s.setFbuf v x).images = s.images := rfl
@[simp] theorem State.setFbuf_nextTicket (s : State) (v : Nat) (x : FaultBuffer) : (s.setFbuf v x).nextTicket = s.nextTicket := rfl
@[simp] theorem State.setFbuf_worldKeys (s : State) (v : Nat) (x : FaultBuffer) : (s.setFbuf v x).worldKeys = s.worldKeys := rfl
@[simp] theorem State.setFbuf_keyCount (s : State) (v : Nat) (x : FaultBuffer) : (s.setFbuf v x).keyCount = s.keyCount := rfl
@[simp] theorem State.setFbuf_measured (s : State) (v : Nat) (x : FaultBuffer) : (s.setFbuf v x).measured = s.measured := rfl
@[simp] theorem State.setFbuf_imageReq (s : State) (v : Nat) (x : FaultBuffer) : (s.setFbuf v x).imageReq = s.imageReq := rfl
@[simp] theorem State.setFbuf_imagePages (s : State) (v : Nat) (x : FaultBuffer) : (s.setFbuf v x).imagePages = s.imagePages := rfl
@[simp] theorem State.setFbuf_clocks (s : State) (v : Nat) (x : FaultBuffer) : (s.setFbuf v x).clocks = s.clocks := rfl
@[simp] theorem State.setFbuf_crossing (s : State) (v : Nat) (x : FaultBuffer) : (s.setFbuf v x).crossing = s.crossing := rfl
@[simp] theorem State.setFbuf_inputs (s : State) (v : Nat) (x : FaultBuffer) : (s.setFbuf v x).inputs = s.inputs := rfl
@[simp] theorem State.setFbuf_cur (s : State) (v : Nat) (x : FaultBuffer) : (s.setFbuf v x).cur = s.cur := rfl
@[simp] theorem State.setFbuf_stages (s : State) (v : Nat) (x : FaultBuffer) : (s.setFbuf v x).stages = s.stages := rfl
@[simp] theorem State.setFbuf_outputs (s : State) (v : Nat) (x : FaultBuffer) : (s.setFbuf v x).outputs = s.outputs := rfl

@[simp] theorem State.setReg_cycle (s : State) (o : Nat) (v : Word) : (s.setReg o v).cycle = s.cycle := rfl
@[simp] theorem State.setReg_withheld (s : State) (o : Nat) (v : Word) : (s.setReg o v).withheld = s.withheld := rfl
@[simp] theorem State.setReg_withholdTo (s : State) (o : Nat) (v : Word) : (s.setReg o v).withholdTo = s.withholdTo := rfl
@[simp] theorem State.setReg_tick (s : State) (o : Nat) (v : Word) : (s.setReg o v).tick = s.tick := rfl
@[simp] theorem State.setReg_choices (s : State) (o : Nat) (v : Word) : (s.setReg o v).choices = s.choices := rfl
@[simp] theorem State.setReg_delays (s : State) (o : Nat) (v : Word) : (s.setReg o v).delays = s.delays := rfl
@[simp] theorem State.setReg_boot (s : State) (o : Nat) (v : Word) : (s.setReg o v).boot = s.boot := rfl
@[simp] theorem State.setReg_fwOk (s : State) (o : Nat) (v : Word) : (s.setReg o v).fwOk = s.fwOk := rfl
@[simp] theorem State.setReg_blobs (s : State) (o : Nat) (v : Word) : (s.setReg o v).blobs = s.blobs := rfl
@[simp] theorem State.setReg_blob (s : State) (o : Nat) (v : Word) : (s.setReg o v).blob = s.blob := rfl
@[simp] theorem State.setReg_versionFloor (s : State) (o : Nat) (v : Word) : (s.setReg o v).versionFloor = s.versionFloor := rfl
@[simp] theorem State.setReg_power (s : State) (o : Nat) (v : Word) : (s.setReg o v).power = s.power := rfl
@[simp] theorem State.setReg_pmem (s : State) (o : Nat) (v : Word) : (s.setReg o v).pmem = s.pmem := rfl
@[simp] theorem State.setReg_plain (s : State) (o : Nat) (v : Word) : (s.setReg o v).plain = s.plain := rfl
@[simp] theorem State.setReg_poison (s : State) (o : Nat) (v : Word) : (s.setReg o v).poison = s.poison := rfl
@[simp] theorem State.setReg_waiters (s : State) (o : Nat) (v : Word) : (s.setReg o v).waiters = s.waiters := rfl
@[simp] theorem State.setReg_waves (s : State) (o : Nat) (v : Word) : (s.setReg o v).waves = s.waves := rfl
@[simp] theorem State.setReg_banks (s : State) (o : Nat) (v : Word) : (s.setReg o v).banks = s.banks := rfl
@[simp] theorem State.setReg_cores (s : State) (o : Nat) (v : Word) : (s.setReg o v).cores = s.cores := rfl
@[simp] theorem State.setReg_parts (s : State) (o : Nat) (v : Word) : (s.setReg o v).parts = s.parts := rfl
@[simp] theorem State.setReg_launches (s : State) (o : Nat) (v : Word) : (s.setReg o v).launches = s.launches := rfl
@[simp] theorem State.setReg_nextKey (s : State) (o : Nat) (v : Word) : (s.setReg o v).nextKey = s.nextKey := rfl
@[simp] theorem State.setReg_creditEpoch (s : State) (o : Nat) (v : Word) : (s.setReg o v).creditEpoch = s.creditEpoch := rfl
@[simp] theorem State.setReg_xfers (s : State) (o : Nat) (v : Word) : (s.setReg o v).xfers = s.xfers := rfl
@[simp] theorem State.setReg_posted (s : State) (o : Nat) (v : Word) : (s.setReg o v).posted = s.posted := rfl
@[simp] theorem State.setReg_arrived (s : State) (o : Nat) (v : Word) : (s.setReg o v).arrived = s.arrived := rfl
@[simp] theorem State.setReg_audits (s : State) (o : Nat) (v : Word) : (s.setReg o v).audits = s.audits := rfl
@[simp] theorem State.setReg_tlb (s : State) (o : Nat) (v : Word) : (s.setReg o v).tlb = s.tlb := rfl
@[simp] theorem State.setReg_fbufs (s : State) (o : Nat) (v : Word) : (s.setReg o v).fbufs = s.fbufs := rfl
@[simp] theorem State.setReg_images (s : State) (o : Nat) (v : Word) : (s.setReg o v).images = s.images := rfl
@[simp] theorem State.setReg_nextTicket (s : State) (o : Nat) (v : Word) : (s.setReg o v).nextTicket = s.nextTicket := rfl
@[simp] theorem State.setReg_worldKeys (s : State) (o : Nat) (v : Word) : (s.setReg o v).worldKeys = s.worldKeys := rfl
@[simp] theorem State.setReg_keyCount (s : State) (o : Nat) (v : Word) : (s.setReg o v).keyCount = s.keyCount := rfl
@[simp] theorem State.setReg_measured (s : State) (o : Nat) (v : Word) : (s.setReg o v).measured = s.measured := rfl
@[simp] theorem State.setReg_imageReq (s : State) (o : Nat) (v : Word) : (s.setReg o v).imageReq = s.imageReq := rfl
@[simp] theorem State.setReg_imagePages (s : State) (o : Nat) (v : Word) : (s.setReg o v).imagePages = s.imagePages := rfl
@[simp] theorem State.setReg_clocks (s : State) (o : Nat) (v : Word) : (s.setReg o v).clocks = s.clocks := rfl
@[simp] theorem State.setReg_crossing (s : State) (o : Nat) (v : Word) : (s.setReg o v).crossing = s.crossing := rfl
@[simp] theorem State.setReg_inputs (s : State) (o : Nat) (v : Word) : (s.setReg o v).inputs = s.inputs := rfl
@[simp] theorem State.setReg_cur (s : State) (o : Nat) (v : Word) : (s.setReg o v).cur = s.cur := rfl
@[simp] theorem State.setReg_stages (s : State) (o : Nat) (v : Word) : (s.setReg o v).stages = s.stages := rfl
@[simp] theorem State.setReg_outputs (s : State) (o : Nat) (v : Word) : (s.setReg o v).outputs = s.outputs := rfl

@[simp] theorem State.out_cycle (s : State) (o : Output) : (s.out o).cycle = s.cycle := rfl
@[simp] theorem State.out_withheld (s : State) (o : Output) : (s.out o).withheld = s.withheld := rfl
@[simp] theorem State.out_withholdTo (s : State) (o : Output) : (s.out o).withholdTo = s.withholdTo := rfl
@[simp] theorem State.out_tick (s : State) (o : Output) : (s.out o).tick = s.tick := rfl
@[simp] theorem State.out_choices (s : State) (o : Output) : (s.out o).choices = s.choices := rfl
@[simp] theorem State.out_delays (s : State) (o : Output) : (s.out o).delays = s.delays := rfl
@[simp] theorem State.out_boot (s : State) (o : Output) : (s.out o).boot = s.boot := rfl
@[simp] theorem State.out_fwOk (s : State) (o : Output) : (s.out o).fwOk = s.fwOk := rfl
@[simp] theorem State.out_blobs (s : State) (o : Output) : (s.out o).blobs = s.blobs := rfl
@[simp] theorem State.out_blob (s : State) (o : Output) : (s.out o).blob = s.blob := rfl
@[simp] theorem State.out_versionFloor (s : State) (o : Output) : (s.out o).versionFloor = s.versionFloor := rfl
@[simp] theorem State.out_power (s : State) (o : Output) : (s.out o).power = s.power := rfl
@[simp] theorem State.out_pmem (s : State) (o : Output) : (s.out o).pmem = s.pmem := rfl
@[simp] theorem State.out_plain (s : State) (o : Output) : (s.out o).plain = s.plain := rfl
@[simp] theorem State.out_poison (s : State) (o : Output) : (s.out o).poison = s.poison := rfl
@[simp] theorem State.out_waiters (s : State) (o : Output) : (s.out o).waiters = s.waiters := rfl
@[simp] theorem State.out_waves (s : State) (o : Output) : (s.out o).waves = s.waves := rfl
@[simp] theorem State.out_banks (s : State) (o : Output) : (s.out o).banks = s.banks := rfl
@[simp] theorem State.out_cores (s : State) (o : Output) : (s.out o).cores = s.cores := rfl
@[simp] theorem State.out_parts (s : State) (o : Output) : (s.out o).parts = s.parts := rfl
@[simp] theorem State.out_win (s : State) (o : Output) : (s.out o).win = s.win := rfl
@[simp] theorem State.out_launches (s : State) (o : Output) : (s.out o).launches = s.launches := rfl
@[simp] theorem State.out_nextKey (s : State) (o : Output) : (s.out o).nextKey = s.nextKey := rfl
@[simp] theorem State.out_creditEpoch (s : State) (o : Output) : (s.out o).creditEpoch = s.creditEpoch := rfl
@[simp] theorem State.out_xfers (s : State) (o : Output) : (s.out o).xfers = s.xfers := rfl
@[simp] theorem State.out_posted (s : State) (o : Output) : (s.out o).posted = s.posted := rfl
@[simp] theorem State.out_arrived (s : State) (o : Output) : (s.out o).arrived = s.arrived := rfl
@[simp] theorem State.out_audits (s : State) (o : Output) : (s.out o).audits = s.audits := rfl
@[simp] theorem State.out_tlb (s : State) (o : Output) : (s.out o).tlb = s.tlb := rfl
@[simp] theorem State.out_fbufs (s : State) (o : Output) : (s.out o).fbufs = s.fbufs := rfl
@[simp] theorem State.out_images (s : State) (o : Output) : (s.out o).images = s.images := rfl
@[simp] theorem State.out_nextTicket (s : State) (o : Output) : (s.out o).nextTicket = s.nextTicket := rfl
@[simp] theorem State.out_worldKeys (s : State) (o : Output) : (s.out o).worldKeys = s.worldKeys := rfl
@[simp] theorem State.out_keyCount (s : State) (o : Output) : (s.out o).keyCount = s.keyCount := rfl
@[simp] theorem State.out_measured (s : State) (o : Output) : (s.out o).measured = s.measured := rfl
@[simp] theorem State.out_imageReq (s : State) (o : Output) : (s.out o).imageReq = s.imageReq := rfl
@[simp] theorem State.out_imagePages (s : State) (o : Output) : (s.out o).imagePages = s.imagePages := rfl
@[simp] theorem State.out_clocks (s : State) (o : Output) : (s.out o).clocks = s.clocks := rfl
@[simp] theorem State.out_crossing (s : State) (o : Output) : (s.out o).crossing = s.crossing := rfl
@[simp] theorem State.out_inputs (s : State) (o : Output) : (s.out o).inputs = s.inputs := rfl
@[simp] theorem State.out_cur (s : State) (o : Output) : (s.out o).cur = s.cur := rfl
@[simp] theorem State.out_stages (s : State) (o : Output) : (s.out o).stages = s.stages := rfl

@[simp] theorem State.setCw_cycle (s : State) (W : Wave) : (s.setCw W).cycle = s.cycle := rfl
@[simp] theorem State.setCw_withheld (s : State) (W : Wave) : (s.setCw W).withheld = s.withheld := rfl
@[simp] theorem State.setCw_withholdTo (s : State) (W : Wave) : (s.setCw W).withholdTo = s.withholdTo := rfl
@[simp] theorem State.setCw_tick (s : State) (W : Wave) : (s.setCw W).tick = s.tick := rfl
@[simp] theorem State.setCw_choices (s : State) (W : Wave) : (s.setCw W).choices = s.choices := rfl
@[simp] theorem State.setCw_delays (s : State) (W : Wave) : (s.setCw W).delays = s.delays := rfl
@[simp] theorem State.setCw_boot (s : State) (W : Wave) : (s.setCw W).boot = s.boot := rfl
@[simp] theorem State.setCw_fwOk (s : State) (W : Wave) : (s.setCw W).fwOk = s.fwOk := rfl
@[simp] theorem State.setCw_blobs (s : State) (W : Wave) : (s.setCw W).blobs = s.blobs := rfl
@[simp] theorem State.setCw_blob (s : State) (W : Wave) : (s.setCw W).blob = s.blob := rfl
@[simp] theorem State.setCw_versionFloor (s : State) (W : Wave) : (s.setCw W).versionFloor = s.versionFloor := rfl
@[simp] theorem State.setCw_power (s : State) (W : Wave) : (s.setCw W).power = s.power := rfl
@[simp] theorem State.setCw_pmem (s : State) (W : Wave) : (s.setCw W).pmem = s.pmem := rfl
@[simp] theorem State.setCw_plain (s : State) (W : Wave) : (s.setCw W).plain = s.plain := rfl
@[simp] theorem State.setCw_poison (s : State) (W : Wave) : (s.setCw W).poison = s.poison := rfl
@[simp] theorem State.setCw_waiters (s : State) (W : Wave) : (s.setCw W).waiters = s.waiters := rfl
@[simp] theorem State.setCw_banks (s : State) (W : Wave) : (s.setCw W).banks = s.banks := rfl
@[simp] theorem State.setCw_cores (s : State) (W : Wave) : (s.setCw W).cores = s.cores := rfl
@[simp] theorem State.setCw_parts (s : State) (W : Wave) : (s.setCw W).parts = s.parts := rfl
@[simp] theorem State.setCw_win (s : State) (W : Wave) : (s.setCw W).win = s.win := rfl
@[simp] theorem State.setCw_launches (s : State) (W : Wave) : (s.setCw W).launches = s.launches := rfl
@[simp] theorem State.setCw_nextKey (s : State) (W : Wave) : (s.setCw W).nextKey = s.nextKey := rfl
@[simp] theorem State.setCw_creditEpoch (s : State) (W : Wave) : (s.setCw W).creditEpoch = s.creditEpoch := rfl
@[simp] theorem State.setCw_xfers (s : State) (W : Wave) : (s.setCw W).xfers = s.xfers := rfl
@[simp] theorem State.setCw_posted (s : State) (W : Wave) : (s.setCw W).posted = s.posted := rfl
@[simp] theorem State.setCw_arrived (s : State) (W : Wave) : (s.setCw W).arrived = s.arrived := rfl
@[simp] theorem State.setCw_audits (s : State) (W : Wave) : (s.setCw W).audits = s.audits := rfl
@[simp] theorem State.setCw_tlb (s : State) (W : Wave) : (s.setCw W).tlb = s.tlb := rfl
@[simp] theorem State.setCw_fbufs (s : State) (W : Wave) : (s.setCw W).fbufs = s.fbufs := rfl
@[simp] theorem State.setCw_images (s : State) (W : Wave) : (s.setCw W).images = s.images := rfl
@[simp] theorem State.setCw_nextTicket (s : State) (W : Wave) : (s.setCw W).nextTicket = s.nextTicket := rfl
@[simp] theorem State.setCw_worldKeys (s : State) (W : Wave) : (s.setCw W).worldKeys = s.worldKeys := rfl
@[simp] theorem State.setCw_keyCount (s : State) (W : Wave) : (s.setCw W).keyCount = s.keyCount := rfl
@[simp] theorem State.setCw_measured (s : State) (W : Wave) : (s.setCw W).measured = s.measured := rfl
@[simp] theorem State.setCw_imageReq (s : State) (W : Wave) : (s.setCw W).imageReq = s.imageReq := rfl
@[simp] theorem State.setCw_imagePages (s : State) (W : Wave) : (s.setCw W).imagePages = s.imagePages := rfl
@[simp] theorem State.setCw_clocks (s : State) (W : Wave) : (s.setCw W).clocks = s.clocks := rfl
@[simp] theorem State.setCw_crossing (s : State) (W : Wave) : (s.setCw W).crossing = s.crossing := rfl
@[simp] theorem State.setCw_inputs (s : State) (W : Wave) : (s.setCw W).inputs = s.inputs := rfl
@[simp] theorem State.setCw_cur (s : State) (W : Wave) : (s.setCw W).cur = s.cur := rfl
@[simp] theorem State.setCw_stages (s : State) (W : Wave) : (s.setCw W).stages = s.stages := rfl
@[simp] theorem State.setCw_outputs (s : State) (W : Wave) : (s.setCw W).outputs = s.outputs := rfl

@[simp] theorem State.setCs_cycle (s : State) (t : Slot) : (s.setCs t).cycle = s.cycle := rfl
@[simp] theorem State.setCs_withheld (s : State) (t : Slot) : (s.setCs t).withheld = s.withheld := rfl
@[simp] theorem State.setCs_withholdTo (s : State) (t : Slot) : (s.setCs t).withholdTo = s.withholdTo := rfl
@[simp] theorem State.setCs_tick (s : State) (t : Slot) : (s.setCs t).tick = s.tick := rfl
@[simp] theorem State.setCs_choices (s : State) (t : Slot) : (s.setCs t).choices = s.choices := rfl
@[simp] theorem State.setCs_delays (s : State) (t : Slot) : (s.setCs t).delays = s.delays := rfl
@[simp] theorem State.setCs_boot (s : State) (t : Slot) : (s.setCs t).boot = s.boot := rfl
@[simp] theorem State.setCs_fwOk (s : State) (t : Slot) : (s.setCs t).fwOk = s.fwOk := rfl
@[simp] theorem State.setCs_blobs (s : State) (t : Slot) : (s.setCs t).blobs = s.blobs := rfl
@[simp] theorem State.setCs_blob (s : State) (t : Slot) : (s.setCs t).blob = s.blob := rfl
@[simp] theorem State.setCs_versionFloor (s : State) (t : Slot) : (s.setCs t).versionFloor = s.versionFloor := rfl
@[simp] theorem State.setCs_power (s : State) (t : Slot) : (s.setCs t).power = s.power := rfl
@[simp] theorem State.setCs_pmem (s : State) (t : Slot) : (s.setCs t).pmem = s.pmem := rfl
@[simp] theorem State.setCs_plain (s : State) (t : Slot) : (s.setCs t).plain = s.plain := rfl
@[simp] theorem State.setCs_poison (s : State) (t : Slot) : (s.setCs t).poison = s.poison := rfl
@[simp] theorem State.setCs_waiters (s : State) (t : Slot) : (s.setCs t).waiters = s.waiters := rfl
@[simp] theorem State.setCs_banks (s : State) (t : Slot) : (s.setCs t).banks = s.banks := rfl
@[simp] theorem State.setCs_cores (s : State) (t : Slot) : (s.setCs t).cores = s.cores := rfl
@[simp] theorem State.setCs_parts (s : State) (t : Slot) : (s.setCs t).parts = s.parts := rfl
@[simp] theorem State.setCs_win (s : State) (t : Slot) : (s.setCs t).win = s.win := rfl
@[simp] theorem State.setCs_launches (s : State) (t : Slot) : (s.setCs t).launches = s.launches := rfl
@[simp] theorem State.setCs_nextKey (s : State) (t : Slot) : (s.setCs t).nextKey = s.nextKey := rfl
@[simp] theorem State.setCs_creditEpoch (s : State) (t : Slot) : (s.setCs t).creditEpoch = s.creditEpoch := rfl
@[simp] theorem State.setCs_xfers (s : State) (t : Slot) : (s.setCs t).xfers = s.xfers := rfl
@[simp] theorem State.setCs_posted (s : State) (t : Slot) : (s.setCs t).posted = s.posted := rfl
@[simp] theorem State.setCs_arrived (s : State) (t : Slot) : (s.setCs t).arrived = s.arrived := rfl
@[simp] theorem State.setCs_audits (s : State) (t : Slot) : (s.setCs t).audits = s.audits := rfl
@[simp] theorem State.setCs_tlb (s : State) (t : Slot) : (s.setCs t).tlb = s.tlb := rfl
@[simp] theorem State.setCs_fbufs (s : State) (t : Slot) : (s.setCs t).fbufs = s.fbufs := rfl
@[simp] theorem State.setCs_images (s : State) (t : Slot) : (s.setCs t).images = s.images := rfl
@[simp] theorem State.setCs_nextTicket (s : State) (t : Slot) : (s.setCs t).nextTicket = s.nextTicket := rfl
@[simp] theorem State.setCs_worldKeys (s : State) (t : Slot) : (s.setCs t).worldKeys = s.worldKeys := rfl
@[simp] theorem State.setCs_keyCount (s : State) (t : Slot) : (s.setCs t).keyCount = s.keyCount := rfl
@[simp] theorem State.setCs_measured (s : State) (t : Slot) : (s.setCs t).measured = s.measured := rfl
@[simp] theorem State.setCs_imageReq (s : State) (t : Slot) : (s.setCs t).imageReq = s.imageReq := rfl
@[simp] theorem State.setCs_imagePages (s : State) (t : Slot) : (s.setCs t).imagePages = s.imagePages := rfl
@[simp] theorem State.setCs_clocks (s : State) (t : Slot) : (s.setCs t).clocks = s.clocks := rfl
@[simp] theorem State.setCs_crossing (s : State) (t : Slot) : (s.setCs t).crossing = s.crossing := rfl
@[simp] theorem State.setCs_inputs (s : State) (t : Slot) : (s.setCs t).inputs = s.inputs := rfl
@[simp] theorem State.setCs_cur (s : State) (t : Slot) : (s.setCs t).cur = s.cur := rfl
@[simp] theorem State.setCs_stages (s : State) (t : Slot) : (s.setCs t).stages = s.stages := rfl
@[simp] theorem State.setCs_outputs (s : State) (t : Slot) : (s.setCs t).outputs = s.outputs := rfl

@[simp] theorem State.setSlotOf_cycle (s : State) (w : Nat) (x : SlotId) (t : Slot) : (s.setSlotOf w x t).cycle = s.cycle := rfl
@[simp] theorem State.setSlotOf_withheld (s : State) (w : Nat) (x : SlotId) (t : Slot) : (s.setSlotOf w x t).withheld = s.withheld := rfl
@[simp] theorem State.setSlotOf_withholdTo (s : State) (w : Nat) (x : SlotId) (t : Slot) : (s.setSlotOf w x t).withholdTo = s.withholdTo := rfl
@[simp] theorem State.setSlotOf_tick (s : State) (w : Nat) (x : SlotId) (t : Slot) : (s.setSlotOf w x t).tick = s.tick := rfl
@[simp] theorem State.setSlotOf_choices (s : State) (w : Nat) (x : SlotId) (t : Slot) : (s.setSlotOf w x t).choices = s.choices := rfl
@[simp] theorem State.setSlotOf_delays (s : State) (w : Nat) (x : SlotId) (t : Slot) : (s.setSlotOf w x t).delays = s.delays := rfl
@[simp] theorem State.setSlotOf_boot (s : State) (w : Nat) (x : SlotId) (t : Slot) : (s.setSlotOf w x t).boot = s.boot := rfl
@[simp] theorem State.setSlotOf_fwOk (s : State) (w : Nat) (x : SlotId) (t : Slot) : (s.setSlotOf w x t).fwOk = s.fwOk := rfl
@[simp] theorem State.setSlotOf_blobs (s : State) (w : Nat) (x : SlotId) (t : Slot) : (s.setSlotOf w x t).blobs = s.blobs := rfl
@[simp] theorem State.setSlotOf_blob (s : State) (w : Nat) (x : SlotId) (t : Slot) : (s.setSlotOf w x t).blob = s.blob := rfl
@[simp] theorem State.setSlotOf_versionFloor (s : State) (w : Nat) (x : SlotId) (t : Slot) : (s.setSlotOf w x t).versionFloor = s.versionFloor := rfl
@[simp] theorem State.setSlotOf_power (s : State) (w : Nat) (x : SlotId) (t : Slot) : (s.setSlotOf w x t).power = s.power := rfl
@[simp] theorem State.setSlotOf_pmem (s : State) (w : Nat) (x : SlotId) (t : Slot) : (s.setSlotOf w x t).pmem = s.pmem := rfl
@[simp] theorem State.setSlotOf_plain (s : State) (w : Nat) (x : SlotId) (t : Slot) : (s.setSlotOf w x t).plain = s.plain := rfl
@[simp] theorem State.setSlotOf_poison (s : State) (w : Nat) (x : SlotId) (t : Slot) : (s.setSlotOf w x t).poison = s.poison := rfl
@[simp] theorem State.setSlotOf_waiters (s : State) (w : Nat) (x : SlotId) (t : Slot) : (s.setSlotOf w x t).waiters = s.waiters := rfl
@[simp] theorem State.setSlotOf_banks (s : State) (w : Nat) (x : SlotId) (t : Slot) : (s.setSlotOf w x t).banks = s.banks := rfl
@[simp] theorem State.setSlotOf_cores (s : State) (w : Nat) (x : SlotId) (t : Slot) : (s.setSlotOf w x t).cores = s.cores := rfl
@[simp] theorem State.setSlotOf_parts (s : State) (w : Nat) (x : SlotId) (t : Slot) : (s.setSlotOf w x t).parts = s.parts := rfl
@[simp] theorem State.setSlotOf_win (s : State) (w : Nat) (x : SlotId) (t : Slot) : (s.setSlotOf w x t).win = s.win := rfl
@[simp] theorem State.setSlotOf_launches (s : State) (w : Nat) (x : SlotId) (t : Slot) : (s.setSlotOf w x t).launches = s.launches := rfl
@[simp] theorem State.setSlotOf_nextKey (s : State) (w : Nat) (x : SlotId) (t : Slot) : (s.setSlotOf w x t).nextKey = s.nextKey := rfl
@[simp] theorem State.setSlotOf_creditEpoch (s : State) (w : Nat) (x : SlotId) (t : Slot) : (s.setSlotOf w x t).creditEpoch = s.creditEpoch := rfl
@[simp] theorem State.setSlotOf_xfers (s : State) (w : Nat) (x : SlotId) (t : Slot) : (s.setSlotOf w x t).xfers = s.xfers := rfl
@[simp] theorem State.setSlotOf_posted (s : State) (w : Nat) (x : SlotId) (t : Slot) : (s.setSlotOf w x t).posted = s.posted := rfl
@[simp] theorem State.setSlotOf_arrived (s : State) (w : Nat) (x : SlotId) (t : Slot) : (s.setSlotOf w x t).arrived = s.arrived := rfl
@[simp] theorem State.setSlotOf_audits (s : State) (w : Nat) (x : SlotId) (t : Slot) : (s.setSlotOf w x t).audits = s.audits := rfl
@[simp] theorem State.setSlotOf_tlb (s : State) (w : Nat) (x : SlotId) (t : Slot) : (s.setSlotOf w x t).tlb = s.tlb := rfl
@[simp] theorem State.setSlotOf_fbufs (s : State) (w : Nat) (x : SlotId) (t : Slot) : (s.setSlotOf w x t).fbufs = s.fbufs := rfl
@[simp] theorem State.setSlotOf_images (s : State) (w : Nat) (x : SlotId) (t : Slot) : (s.setSlotOf w x t).images = s.images := rfl
@[simp] theorem State.setSlotOf_nextTicket (s : State) (w : Nat) (x : SlotId) (t : Slot) : (s.setSlotOf w x t).nextTicket = s.nextTicket := rfl
@[simp] theorem State.setSlotOf_worldKeys (s : State) (w : Nat) (x : SlotId) (t : Slot) : (s.setSlotOf w x t).worldKeys = s.worldKeys := rfl
@[simp] theorem State.setSlotOf_keyCount (s : State) (w : Nat) (x : SlotId) (t : Slot) : (s.setSlotOf w x t).keyCount = s.keyCount := rfl
@[simp] theorem State.setSlotOf_measured (s : State) (w : Nat) (x : SlotId) (t : Slot) : (s.setSlotOf w x t).measured = s.measured := rfl
@[simp] theorem State.setSlotOf_imageReq (s : State) (w : Nat) (x : SlotId) (t : Slot) : (s.setSlotOf w x t).imageReq = s.imageReq := rfl
@[simp] theorem State.setSlotOf_imagePages (s : State) (w : Nat) (x : SlotId) (t : Slot) : (s.setSlotOf w x t).imagePages = s.imagePages := rfl
@[simp] theorem State.setSlotOf_clocks (s : State) (w : Nat) (x : SlotId) (t : Slot) : (s.setSlotOf w x t).clocks = s.clocks := rfl
@[simp] theorem State.setSlotOf_crossing (s : State) (w : Nat) (x : SlotId) (t : Slot) : (s.setSlotOf w x t).crossing = s.crossing := rfl
@[simp] theorem State.setSlotOf_inputs (s : State) (w : Nat) (x : SlotId) (t : Slot) : (s.setSlotOf w x t).inputs = s.inputs := rfl
@[simp] theorem State.setSlotOf_cur (s : State) (w : Nat) (x : SlotId) (t : Slot) : (s.setSlotOf w x t).cur = s.cur := rfl
@[simp] theorem State.setSlotOf_stages (s : State) (w : Nat) (x : SlotId) (t : Slot) : (s.setSlotOf w x t).stages = s.stages := rfl
@[simp] theorem State.setSlotOf_outputs (s : State) (w : Nat) (x : SlotId) (t : Slot) : (s.setSlotOf w x t).outputs = s.outputs := rfl

@[simp] theorem State.setS_cycle (s : State) (r : SReg) (v : Word) : (s.setS r v).cycle = s.cycle := rfl
@[simp] theorem State.setS_withheld (s : State) (r : SReg) (v : Word) : (s.setS r v).withheld = s.withheld := rfl
@[simp] theorem State.setS_withholdTo (s : State) (r : SReg) (v : Word) : (s.setS r v).withholdTo = s.withholdTo := rfl
@[simp] theorem State.setS_tick (s : State) (r : SReg) (v : Word) : (s.setS r v).tick = s.tick := rfl
@[simp] theorem State.setS_choices (s : State) (r : SReg) (v : Word) : (s.setS r v).choices = s.choices := rfl
@[simp] theorem State.setS_delays (s : State) (r : SReg) (v : Word) : (s.setS r v).delays = s.delays := rfl
@[simp] theorem State.setS_boot (s : State) (r : SReg) (v : Word) : (s.setS r v).boot = s.boot := rfl
@[simp] theorem State.setS_fwOk (s : State) (r : SReg) (v : Word) : (s.setS r v).fwOk = s.fwOk := rfl
@[simp] theorem State.setS_blobs (s : State) (r : SReg) (v : Word) : (s.setS r v).blobs = s.blobs := rfl
@[simp] theorem State.setS_blob (s : State) (r : SReg) (v : Word) : (s.setS r v).blob = s.blob := rfl
@[simp] theorem State.setS_versionFloor (s : State) (r : SReg) (v : Word) : (s.setS r v).versionFloor = s.versionFloor := rfl
@[simp] theorem State.setS_power (s : State) (r : SReg) (v : Word) : (s.setS r v).power = s.power := rfl
@[simp] theorem State.setS_pmem (s : State) (r : SReg) (v : Word) : (s.setS r v).pmem = s.pmem := rfl
@[simp] theorem State.setS_plain (s : State) (r : SReg) (v : Word) : (s.setS r v).plain = s.plain := rfl
@[simp] theorem State.setS_poison (s : State) (r : SReg) (v : Word) : (s.setS r v).poison = s.poison := rfl
@[simp] theorem State.setS_waiters (s : State) (r : SReg) (v : Word) : (s.setS r v).waiters = s.waiters := rfl
@[simp] theorem State.setS_banks (s : State) (r : SReg) (v : Word) : (s.setS r v).banks = s.banks := rfl
@[simp] theorem State.setS_cores (s : State) (r : SReg) (v : Word) : (s.setS r v).cores = s.cores := rfl
@[simp] theorem State.setS_parts (s : State) (r : SReg) (v : Word) : (s.setS r v).parts = s.parts := rfl
@[simp] theorem State.setS_win (s : State) (r : SReg) (v : Word) : (s.setS r v).win = s.win := rfl
@[simp] theorem State.setS_launches (s : State) (r : SReg) (v : Word) : (s.setS r v).launches = s.launches := rfl
@[simp] theorem State.setS_nextKey (s : State) (r : SReg) (v : Word) : (s.setS r v).nextKey = s.nextKey := rfl
@[simp] theorem State.setS_creditEpoch (s : State) (r : SReg) (v : Word) : (s.setS r v).creditEpoch = s.creditEpoch := rfl
@[simp] theorem State.setS_xfers (s : State) (r : SReg) (v : Word) : (s.setS r v).xfers = s.xfers := rfl
@[simp] theorem State.setS_posted (s : State) (r : SReg) (v : Word) : (s.setS r v).posted = s.posted := rfl
@[simp] theorem State.setS_arrived (s : State) (r : SReg) (v : Word) : (s.setS r v).arrived = s.arrived := rfl
@[simp] theorem State.setS_audits (s : State) (r : SReg) (v : Word) : (s.setS r v).audits = s.audits := rfl
@[simp] theorem State.setS_tlb (s : State) (r : SReg) (v : Word) : (s.setS r v).tlb = s.tlb := rfl
@[simp] theorem State.setS_fbufs (s : State) (r : SReg) (v : Word) : (s.setS r v).fbufs = s.fbufs := rfl
@[simp] theorem State.setS_images (s : State) (r : SReg) (v : Word) : (s.setS r v).images = s.images := rfl
@[simp] theorem State.setS_nextTicket (s : State) (r : SReg) (v : Word) : (s.setS r v).nextTicket = s.nextTicket := rfl
@[simp] theorem State.setS_worldKeys (s : State) (r : SReg) (v : Word) : (s.setS r v).worldKeys = s.worldKeys := rfl
@[simp] theorem State.setS_keyCount (s : State) (r : SReg) (v : Word) : (s.setS r v).keyCount = s.keyCount := rfl
@[simp] theorem State.setS_measured (s : State) (r : SReg) (v : Word) : (s.setS r v).measured = s.measured := rfl
@[simp] theorem State.setS_imageReq (s : State) (r : SReg) (v : Word) : (s.setS r v).imageReq = s.imageReq := rfl
@[simp] theorem State.setS_imagePages (s : State) (r : SReg) (v : Word) : (s.setS r v).imagePages = s.imagePages := rfl
@[simp] theorem State.setS_clocks (s : State) (r : SReg) (v : Word) : (s.setS r v).clocks = s.clocks := rfl
@[simp] theorem State.setS_crossing (s : State) (r : SReg) (v : Word) : (s.setS r v).crossing = s.crossing := rfl
@[simp] theorem State.setS_inputs (s : State) (r : SReg) (v : Word) : (s.setS r v).inputs = s.inputs := rfl
@[simp] theorem State.setS_cur (s : State) (r : SReg) (v : Word) : (s.setS r v).cur = s.cur := rfl
@[simp] theorem State.setS_stages (s : State) (r : SReg) (v : Word) : (s.setS r v).stages = s.stages := rfl
@[simp] theorem State.setS_outputs (s : State) (r : SReg) (v : Word) : (s.setS r v).outputs = s.outputs := rfl

@[simp] theorem State.setK_cycle (s : State) (k : KReg) (v : Mask) : (s.setK k v).cycle = s.cycle := rfl
@[simp] theorem State.setK_withheld (s : State) (k : KReg) (v : Mask) : (s.setK k v).withheld = s.withheld := rfl
@[simp] theorem State.setK_withholdTo (s : State) (k : KReg) (v : Mask) : (s.setK k v).withholdTo = s.withholdTo := rfl
@[simp] theorem State.setK_tick (s : State) (k : KReg) (v : Mask) : (s.setK k v).tick = s.tick := rfl
@[simp] theorem State.setK_choices (s : State) (k : KReg) (v : Mask) : (s.setK k v).choices = s.choices := rfl
@[simp] theorem State.setK_delays (s : State) (k : KReg) (v : Mask) : (s.setK k v).delays = s.delays := rfl
@[simp] theorem State.setK_boot (s : State) (k : KReg) (v : Mask) : (s.setK k v).boot = s.boot := rfl
@[simp] theorem State.setK_fwOk (s : State) (k : KReg) (v : Mask) : (s.setK k v).fwOk = s.fwOk := rfl
@[simp] theorem State.setK_blobs (s : State) (k : KReg) (v : Mask) : (s.setK k v).blobs = s.blobs := rfl
@[simp] theorem State.setK_blob (s : State) (k : KReg) (v : Mask) : (s.setK k v).blob = s.blob := rfl
@[simp] theorem State.setK_versionFloor (s : State) (k : KReg) (v : Mask) : (s.setK k v).versionFloor = s.versionFloor := rfl
@[simp] theorem State.setK_power (s : State) (k : KReg) (v : Mask) : (s.setK k v).power = s.power := rfl
@[simp] theorem State.setK_pmem (s : State) (k : KReg) (v : Mask) : (s.setK k v).pmem = s.pmem := rfl
@[simp] theorem State.setK_plain (s : State) (k : KReg) (v : Mask) : (s.setK k v).plain = s.plain := rfl
@[simp] theorem State.setK_poison (s : State) (k : KReg) (v : Mask) : (s.setK k v).poison = s.poison := rfl
@[simp] theorem State.setK_waiters (s : State) (k : KReg) (v : Mask) : (s.setK k v).waiters = s.waiters := rfl
@[simp] theorem State.setK_banks (s : State) (k : KReg) (v : Mask) : (s.setK k v).banks = s.banks := rfl
@[simp] theorem State.setK_cores (s : State) (k : KReg) (v : Mask) : (s.setK k v).cores = s.cores := rfl
@[simp] theorem State.setK_parts (s : State) (k : KReg) (v : Mask) : (s.setK k v).parts = s.parts := rfl
@[simp] theorem State.setK_win (s : State) (k : KReg) (v : Mask) : (s.setK k v).win = s.win := rfl
@[simp] theorem State.setK_launches (s : State) (k : KReg) (v : Mask) : (s.setK k v).launches = s.launches := rfl
@[simp] theorem State.setK_nextKey (s : State) (k : KReg) (v : Mask) : (s.setK k v).nextKey = s.nextKey := rfl
@[simp] theorem State.setK_creditEpoch (s : State) (k : KReg) (v : Mask) : (s.setK k v).creditEpoch = s.creditEpoch := rfl
@[simp] theorem State.setK_xfers (s : State) (k : KReg) (v : Mask) : (s.setK k v).xfers = s.xfers := rfl
@[simp] theorem State.setK_posted (s : State) (k : KReg) (v : Mask) : (s.setK k v).posted = s.posted := rfl
@[simp] theorem State.setK_arrived (s : State) (k : KReg) (v : Mask) : (s.setK k v).arrived = s.arrived := rfl
@[simp] theorem State.setK_audits (s : State) (k : KReg) (v : Mask) : (s.setK k v).audits = s.audits := rfl
@[simp] theorem State.setK_tlb (s : State) (k : KReg) (v : Mask) : (s.setK k v).tlb = s.tlb := rfl
@[simp] theorem State.setK_fbufs (s : State) (k : KReg) (v : Mask) : (s.setK k v).fbufs = s.fbufs := rfl
@[simp] theorem State.setK_images (s : State) (k : KReg) (v : Mask) : (s.setK k v).images = s.images := rfl
@[simp] theorem State.setK_nextTicket (s : State) (k : KReg) (v : Mask) : (s.setK k v).nextTicket = s.nextTicket := rfl
@[simp] theorem State.setK_worldKeys (s : State) (k : KReg) (v : Mask) : (s.setK k v).worldKeys = s.worldKeys := rfl
@[simp] theorem State.setK_keyCount (s : State) (k : KReg) (v : Mask) : (s.setK k v).keyCount = s.keyCount := rfl
@[simp] theorem State.setK_measured (s : State) (k : KReg) (v : Mask) : (s.setK k v).measured = s.measured := rfl
@[simp] theorem State.setK_imageReq (s : State) (k : KReg) (v : Mask) : (s.setK k v).imageReq = s.imageReq := rfl
@[simp] theorem State.setK_imagePages (s : State) (k : KReg) (v : Mask) : (s.setK k v).imagePages = s.imagePages := rfl
@[simp] theorem State.setK_clocks (s : State) (k : KReg) (v : Mask) : (s.setK k v).clocks = s.clocks := rfl
@[simp] theorem State.setK_crossing (s : State) (k : KReg) (v : Mask) : (s.setK k v).crossing = s.crossing := rfl
@[simp] theorem State.setK_inputs (s : State) (k : KReg) (v : Mask) : (s.setK k v).inputs = s.inputs := rfl
@[simp] theorem State.setK_cur (s : State) (k : KReg) (v : Mask) : (s.setK k v).cur = s.cur := rfl
@[simp] theorem State.setK_stages (s : State) (k : KReg) (v : Mask) : (s.setK k v).stages = s.stages := rfl
@[simp] theorem State.setK_outputs (s : State) (k : KReg) (v : Mask) : (s.setK k v).outputs = s.outputs := rfl

@[simp] theorem State.advance_cycle (s : State) (n : Nat) : (s.advance n).cycle = s.cycle := rfl
@[simp] theorem State.advance_withheld (s : State) (n : Nat) : (s.advance n).withheld = s.withheld := rfl
@[simp] theorem State.advance_withholdTo (s : State) (n : Nat) : (s.advance n).withholdTo = s.withholdTo := rfl
@[simp] theorem State.advance_tick (s : State) (n : Nat) : (s.advance n).tick = s.tick := rfl
@[simp] theorem State.advance_choices (s : State) (n : Nat) : (s.advance n).choices = s.choices := rfl
@[simp] theorem State.advance_delays (s : State) (n : Nat) : (s.advance n).delays = s.delays := rfl
@[simp] theorem State.advance_boot (s : State) (n : Nat) : (s.advance n).boot = s.boot := rfl
@[simp] theorem State.advance_fwOk (s : State) (n : Nat) : (s.advance n).fwOk = s.fwOk := rfl
@[simp] theorem State.advance_blobs (s : State) (n : Nat) : (s.advance n).blobs = s.blobs := rfl
@[simp] theorem State.advance_blob (s : State) (n : Nat) : (s.advance n).blob = s.blob := rfl
@[simp] theorem State.advance_versionFloor (s : State) (n : Nat) : (s.advance n).versionFloor = s.versionFloor := rfl
@[simp] theorem State.advance_power (s : State) (n : Nat) : (s.advance n).power = s.power := rfl
@[simp] theorem State.advance_pmem (s : State) (n : Nat) : (s.advance n).pmem = s.pmem := rfl
@[simp] theorem State.advance_plain (s : State) (n : Nat) : (s.advance n).plain = s.plain := rfl
@[simp] theorem State.advance_poison (s : State) (n : Nat) : (s.advance n).poison = s.poison := rfl
@[simp] theorem State.advance_waiters (s : State) (n : Nat) : (s.advance n).waiters = s.waiters := rfl
@[simp] theorem State.advance_banks (s : State) (n : Nat) : (s.advance n).banks = s.banks := rfl
@[simp] theorem State.advance_cores (s : State) (n : Nat) : (s.advance n).cores = s.cores := rfl
@[simp] theorem State.advance_parts (s : State) (n : Nat) : (s.advance n).parts = s.parts := rfl
@[simp] theorem State.advance_win (s : State) (n : Nat) : (s.advance n).win = s.win := rfl
@[simp] theorem State.advance_launches (s : State) (n : Nat) : (s.advance n).launches = s.launches := rfl
@[simp] theorem State.advance_nextKey (s : State) (n : Nat) : (s.advance n).nextKey = s.nextKey := rfl
@[simp] theorem State.advance_creditEpoch (s : State) (n : Nat) : (s.advance n).creditEpoch = s.creditEpoch := rfl
@[simp] theorem State.advance_xfers (s : State) (n : Nat) : (s.advance n).xfers = s.xfers := rfl
@[simp] theorem State.advance_posted (s : State) (n : Nat) : (s.advance n).posted = s.posted := rfl
@[simp] theorem State.advance_arrived (s : State) (n : Nat) : (s.advance n).arrived = s.arrived := rfl
@[simp] theorem State.advance_audits (s : State) (n : Nat) : (s.advance n).audits = s.audits := rfl
@[simp] theorem State.advance_tlb (s : State) (n : Nat) : (s.advance n).tlb = s.tlb := rfl
@[simp] theorem State.advance_fbufs (s : State) (n : Nat) : (s.advance n).fbufs = s.fbufs := rfl
@[simp] theorem State.advance_images (s : State) (n : Nat) : (s.advance n).images = s.images := rfl
@[simp] theorem State.advance_nextTicket (s : State) (n : Nat) : (s.advance n).nextTicket = s.nextTicket := rfl
@[simp] theorem State.advance_worldKeys (s : State) (n : Nat) : (s.advance n).worldKeys = s.worldKeys := rfl
@[simp] theorem State.advance_keyCount (s : State) (n : Nat) : (s.advance n).keyCount = s.keyCount := rfl
@[simp] theorem State.advance_measured (s : State) (n : Nat) : (s.advance n).measured = s.measured := rfl
@[simp] theorem State.advance_imageReq (s : State) (n : Nat) : (s.advance n).imageReq = s.imageReq := rfl
@[simp] theorem State.advance_imagePages (s : State) (n : Nat) : (s.advance n).imagePages = s.imagePages := rfl
@[simp] theorem State.advance_clocks (s : State) (n : Nat) : (s.advance n).clocks = s.clocks := rfl
@[simp] theorem State.advance_crossing (s : State) (n : Nat) : (s.advance n).crossing = s.crossing := rfl
@[simp] theorem State.advance_inputs (s : State) (n : Nat) : (s.advance n).inputs = s.inputs := rfl
@[simp] theorem State.advance_cur (s : State) (n : Nat) : (s.advance n).cur = s.cur := rfl
@[simp] theorem State.advance_stages (s : State) (n : Nat) : (s.advance n).stages = s.stages := rfl
@[simp] theorem State.advance_outputs (s : State) (n : Nat) : (s.advance n).outputs = s.outputs := rfl

@[simp] theorem State.jump_cycle (s : State) (a : Word) : (s.jump a).cycle = s.cycle := rfl
@[simp] theorem State.jump_withheld (s : State) (a : Word) : (s.jump a).withheld = s.withheld := rfl
@[simp] theorem State.jump_withholdTo (s : State) (a : Word) : (s.jump a).withholdTo = s.withholdTo := rfl
@[simp] theorem State.jump_tick (s : State) (a : Word) : (s.jump a).tick = s.tick := rfl
@[simp] theorem State.jump_choices (s : State) (a : Word) : (s.jump a).choices = s.choices := rfl
@[simp] theorem State.jump_delays (s : State) (a : Word) : (s.jump a).delays = s.delays := rfl
@[simp] theorem State.jump_boot (s : State) (a : Word) : (s.jump a).boot = s.boot := rfl
@[simp] theorem State.jump_fwOk (s : State) (a : Word) : (s.jump a).fwOk = s.fwOk := rfl
@[simp] theorem State.jump_blobs (s : State) (a : Word) : (s.jump a).blobs = s.blobs := rfl
@[simp] theorem State.jump_blob (s : State) (a : Word) : (s.jump a).blob = s.blob := rfl
@[simp] theorem State.jump_versionFloor (s : State) (a : Word) : (s.jump a).versionFloor = s.versionFloor := rfl
@[simp] theorem State.jump_power (s : State) (a : Word) : (s.jump a).power = s.power := rfl
@[simp] theorem State.jump_pmem (s : State) (a : Word) : (s.jump a).pmem = s.pmem := rfl
@[simp] theorem State.jump_plain (s : State) (a : Word) : (s.jump a).plain = s.plain := rfl
@[simp] theorem State.jump_poison (s : State) (a : Word) : (s.jump a).poison = s.poison := rfl
@[simp] theorem State.jump_waiters (s : State) (a : Word) : (s.jump a).waiters = s.waiters := rfl
@[simp] theorem State.jump_banks (s : State) (a : Word) : (s.jump a).banks = s.banks := rfl
@[simp] theorem State.jump_cores (s : State) (a : Word) : (s.jump a).cores = s.cores := rfl
@[simp] theorem State.jump_parts (s : State) (a : Word) : (s.jump a).parts = s.parts := rfl
@[simp] theorem State.jump_win (s : State) (a : Word) : (s.jump a).win = s.win := rfl
@[simp] theorem State.jump_launches (s : State) (a : Word) : (s.jump a).launches = s.launches := rfl
@[simp] theorem State.jump_nextKey (s : State) (a : Word) : (s.jump a).nextKey = s.nextKey := rfl
@[simp] theorem State.jump_creditEpoch (s : State) (a : Word) : (s.jump a).creditEpoch = s.creditEpoch := rfl
@[simp] theorem State.jump_xfers (s : State) (a : Word) : (s.jump a).xfers = s.xfers := rfl
@[simp] theorem State.jump_posted (s : State) (a : Word) : (s.jump a).posted = s.posted := rfl
@[simp] theorem State.jump_arrived (s : State) (a : Word) : (s.jump a).arrived = s.arrived := rfl
@[simp] theorem State.jump_audits (s : State) (a : Word) : (s.jump a).audits = s.audits := rfl
@[simp] theorem State.jump_tlb (s : State) (a : Word) : (s.jump a).tlb = s.tlb := rfl
@[simp] theorem State.jump_fbufs (s : State) (a : Word) : (s.jump a).fbufs = s.fbufs := rfl
@[simp] theorem State.jump_images (s : State) (a : Word) : (s.jump a).images = s.images := rfl
@[simp] theorem State.jump_nextTicket (s : State) (a : Word) : (s.jump a).nextTicket = s.nextTicket := rfl
@[simp] theorem State.jump_worldKeys (s : State) (a : Word) : (s.jump a).worldKeys = s.worldKeys := rfl
@[simp] theorem State.jump_keyCount (s : State) (a : Word) : (s.jump a).keyCount = s.keyCount := rfl
@[simp] theorem State.jump_measured (s : State) (a : Word) : (s.jump a).measured = s.measured := rfl
@[simp] theorem State.jump_imageReq (s : State) (a : Word) : (s.jump a).imageReq = s.imageReq := rfl
@[simp] theorem State.jump_imagePages (s : State) (a : Word) : (s.jump a).imagePages = s.imagePages := rfl
@[simp] theorem State.jump_clocks (s : State) (a : Word) : (s.jump a).clocks = s.clocks := rfl
@[simp] theorem State.jump_crossing (s : State) (a : Word) : (s.jump a).crossing = s.crossing := rfl
@[simp] theorem State.jump_inputs (s : State) (a : Word) : (s.jump a).inputs = s.inputs := rfl
@[simp] theorem State.jump_cur (s : State) (a : Word) : (s.jump a).cur = s.cur := rfl
@[simp] theorem State.jump_stages (s : State) (a : Word) : (s.jump a).stages = s.stages := rfl
@[simp] theorem State.jump_outputs (s : State) (a : Word) : (s.jump a).outputs = s.outputs := rfl

@[simp] theorem State.pokeBytes_cycle (s : State) (a : Nat) (bs : List Byte) : (s.pokeBytes a bs).cycle = s.cycle := rfl
@[simp] theorem State.pokeBytes_withheld (s : State) (a : Nat) (bs : List Byte) : (s.pokeBytes a bs).withheld = s.withheld := rfl
@[simp] theorem State.pokeBytes_withholdTo (s : State) (a : Nat) (bs : List Byte) : (s.pokeBytes a bs).withholdTo = s.withholdTo := rfl
@[simp] theorem State.pokeBytes_tick (s : State) (a : Nat) (bs : List Byte) : (s.pokeBytes a bs).tick = s.tick := rfl
@[simp] theorem State.pokeBytes_choices (s : State) (a : Nat) (bs : List Byte) : (s.pokeBytes a bs).choices = s.choices := rfl
@[simp] theorem State.pokeBytes_delays (s : State) (a : Nat) (bs : List Byte) : (s.pokeBytes a bs).delays = s.delays := rfl
@[simp] theorem State.pokeBytes_boot (s : State) (a : Nat) (bs : List Byte) : (s.pokeBytes a bs).boot = s.boot := rfl
@[simp] theorem State.pokeBytes_fwOk (s : State) (a : Nat) (bs : List Byte) : (s.pokeBytes a bs).fwOk = s.fwOk := rfl
@[simp] theorem State.pokeBytes_blobs (s : State) (a : Nat) (bs : List Byte) : (s.pokeBytes a bs).blobs = s.blobs := rfl
@[simp] theorem State.pokeBytes_blob (s : State) (a : Nat) (bs : List Byte) : (s.pokeBytes a bs).blob = s.blob := rfl
@[simp] theorem State.pokeBytes_versionFloor (s : State) (a : Nat) (bs : List Byte) : (s.pokeBytes a bs).versionFloor = s.versionFloor := rfl
@[simp] theorem State.pokeBytes_power (s : State) (a : Nat) (bs : List Byte) : (s.pokeBytes a bs).power = s.power := rfl
@[simp] theorem State.pokeBytes_waves (s : State) (a : Nat) (bs : List Byte) : (s.pokeBytes a bs).waves = s.waves := rfl
@[simp] theorem State.pokeBytes_banks (s : State) (a : Nat) (bs : List Byte) : (s.pokeBytes a bs).banks = s.banks := rfl
@[simp] theorem State.pokeBytes_cores (s : State) (a : Nat) (bs : List Byte) : (s.pokeBytes a bs).cores = s.cores := rfl
@[simp] theorem State.pokeBytes_parts (s : State) (a : Nat) (bs : List Byte) : (s.pokeBytes a bs).parts = s.parts := rfl
@[simp] theorem State.pokeBytes_win (s : State) (a : Nat) (bs : List Byte) : (s.pokeBytes a bs).win = s.win := rfl
@[simp] theorem State.pokeBytes_launches (s : State) (a : Nat) (bs : List Byte) : (s.pokeBytes a bs).launches = s.launches := rfl
@[simp] theorem State.pokeBytes_nextKey (s : State) (a : Nat) (bs : List Byte) : (s.pokeBytes a bs).nextKey = s.nextKey := rfl
@[simp] theorem State.pokeBytes_creditEpoch (s : State) (a : Nat) (bs : List Byte) : (s.pokeBytes a bs).creditEpoch = s.creditEpoch := rfl
@[simp] theorem State.pokeBytes_xfers (s : State) (a : Nat) (bs : List Byte) : (s.pokeBytes a bs).xfers = s.xfers := rfl
@[simp] theorem State.pokeBytes_posted (s : State) (a : Nat) (bs : List Byte) : (s.pokeBytes a bs).posted = s.posted := rfl
@[simp] theorem State.pokeBytes_arrived (s : State) (a : Nat) (bs : List Byte) : (s.pokeBytes a bs).arrived = s.arrived := rfl
@[simp] theorem State.pokeBytes_audits (s : State) (a : Nat) (bs : List Byte) : (s.pokeBytes a bs).audits = s.audits := rfl
@[simp] theorem State.pokeBytes_tlb (s : State) (a : Nat) (bs : List Byte) : (s.pokeBytes a bs).tlb = s.tlb := rfl
@[simp] theorem State.pokeBytes_fbufs (s : State) (a : Nat) (bs : List Byte) : (s.pokeBytes a bs).fbufs = s.fbufs := rfl
@[simp] theorem State.pokeBytes_images (s : State) (a : Nat) (bs : List Byte) : (s.pokeBytes a bs).images = s.images := rfl
@[simp] theorem State.pokeBytes_nextTicket (s : State) (a : Nat) (bs : List Byte) : (s.pokeBytes a bs).nextTicket = s.nextTicket := rfl
@[simp] theorem State.pokeBytes_worldKeys (s : State) (a : Nat) (bs : List Byte) : (s.pokeBytes a bs).worldKeys = s.worldKeys := rfl
@[simp] theorem State.pokeBytes_keyCount (s : State) (a : Nat) (bs : List Byte) : (s.pokeBytes a bs).keyCount = s.keyCount := rfl
@[simp] theorem State.pokeBytes_measured (s : State) (a : Nat) (bs : List Byte) : (s.pokeBytes a bs).measured = s.measured := rfl
@[simp] theorem State.pokeBytes_imageReq (s : State) (a : Nat) (bs : List Byte) : (s.pokeBytes a bs).imageReq = s.imageReq := rfl
@[simp] theorem State.pokeBytes_imagePages (s : State) (a : Nat) (bs : List Byte) : (s.pokeBytes a bs).imagePages = s.imagePages := rfl
@[simp] theorem State.pokeBytes_clocks (s : State) (a : Nat) (bs : List Byte) : (s.pokeBytes a bs).clocks = s.clocks := rfl
@[simp] theorem State.pokeBytes_crossing (s : State) (a : Nat) (bs : List Byte) : (s.pokeBytes a bs).crossing = s.crossing := rfl
@[simp] theorem State.pokeBytes_inputs (s : State) (a : Nat) (bs : List Byte) : (s.pokeBytes a bs).inputs = s.inputs := rfl
@[simp] theorem State.pokeBytes_cur (s : State) (a : Nat) (bs : List Byte) : (s.pokeBytes a bs).cur = s.cur := rfl
@[simp] theorem State.pokeBytes_stages (s : State) (a : Nat) (bs : List Byte) : (s.pokeBytes a bs).stages = s.stages := rfl
@[simp] theorem State.pokeBytes_outputs (s : State) (a : Nat) (bs : List Byte) : (s.pokeBytes a bs).outputs = s.outputs := rfl

@[simp] theorem State.clearMarks_cycle (s : State) (k n : Nat) : (s.clearMarks k n).cycle = s.cycle := rfl
@[simp] theorem State.clearMarks_withheld (s : State) (k n : Nat) : (s.clearMarks k n).withheld = s.withheld := rfl
@[simp] theorem State.clearMarks_withholdTo (s : State) (k n : Nat) : (s.clearMarks k n).withholdTo = s.withholdTo := rfl
@[simp] theorem State.clearMarks_tick (s : State) (k n : Nat) : (s.clearMarks k n).tick = s.tick := rfl
@[simp] theorem State.clearMarks_choices (s : State) (k n : Nat) : (s.clearMarks k n).choices = s.choices := rfl
@[simp] theorem State.clearMarks_delays (s : State) (k n : Nat) : (s.clearMarks k n).delays = s.delays := rfl
@[simp] theorem State.clearMarks_boot (s : State) (k n : Nat) : (s.clearMarks k n).boot = s.boot := rfl
@[simp] theorem State.clearMarks_fwOk (s : State) (k n : Nat) : (s.clearMarks k n).fwOk = s.fwOk := rfl
@[simp] theorem State.clearMarks_blobs (s : State) (k n : Nat) : (s.clearMarks k n).blobs = s.blobs := rfl
@[simp] theorem State.clearMarks_blob (s : State) (k n : Nat) : (s.clearMarks k n).blob = s.blob := rfl
@[simp] theorem State.clearMarks_versionFloor (s : State) (k n : Nat) : (s.clearMarks k n).versionFloor = s.versionFloor := rfl
@[simp] theorem State.clearMarks_power (s : State) (k n : Nat) : (s.clearMarks k n).power = s.power := rfl
@[simp] theorem State.clearMarks_pmem (s : State) (k n : Nat) : (s.clearMarks k n).pmem = s.pmem := rfl
@[simp] theorem State.clearMarks_plain (s : State) (k n : Nat) : (s.clearMarks k n).plain = s.plain := rfl
@[simp] theorem State.clearMarks_waiters (s : State) (k n : Nat) : (s.clearMarks k n).waiters = s.waiters := rfl
@[simp] theorem State.clearMarks_waves (s : State) (k n : Nat) : (s.clearMarks k n).waves = s.waves := rfl
@[simp] theorem State.clearMarks_banks (s : State) (k n : Nat) : (s.clearMarks k n).banks = s.banks := rfl
@[simp] theorem State.clearMarks_cores (s : State) (k n : Nat) : (s.clearMarks k n).cores = s.cores := rfl
@[simp] theorem State.clearMarks_parts (s : State) (k n : Nat) : (s.clearMarks k n).parts = s.parts := rfl
@[simp] theorem State.clearMarks_win (s : State) (k n : Nat) : (s.clearMarks k n).win = s.win := rfl
@[simp] theorem State.clearMarks_launches (s : State) (k n : Nat) : (s.clearMarks k n).launches = s.launches := rfl
@[simp] theorem State.clearMarks_nextKey (s : State) (k n : Nat) : (s.clearMarks k n).nextKey = s.nextKey := rfl
@[simp] theorem State.clearMarks_creditEpoch (s : State) (k n : Nat) : (s.clearMarks k n).creditEpoch = s.creditEpoch := rfl
@[simp] theorem State.clearMarks_xfers (s : State) (k n : Nat) : (s.clearMarks k n).xfers = s.xfers := rfl
@[simp] theorem State.clearMarks_posted (s : State) (k n : Nat) : (s.clearMarks k n).posted = s.posted := rfl
@[simp] theorem State.clearMarks_arrived (s : State) (k n : Nat) : (s.clearMarks k n).arrived = s.arrived := rfl
@[simp] theorem State.clearMarks_audits (s : State) (k n : Nat) : (s.clearMarks k n).audits = s.audits := rfl
@[simp] theorem State.clearMarks_tlb (s : State) (k n : Nat) : (s.clearMarks k n).tlb = s.tlb := rfl
@[simp] theorem State.clearMarks_fbufs (s : State) (k n : Nat) : (s.clearMarks k n).fbufs = s.fbufs := rfl
@[simp] theorem State.clearMarks_images (s : State) (k n : Nat) : (s.clearMarks k n).images = s.images := rfl
@[simp] theorem State.clearMarks_nextTicket (s : State) (k n : Nat) : (s.clearMarks k n).nextTicket = s.nextTicket := rfl
@[simp] theorem State.clearMarks_worldKeys (s : State) (k n : Nat) : (s.clearMarks k n).worldKeys = s.worldKeys := rfl
@[simp] theorem State.clearMarks_keyCount (s : State) (k n : Nat) : (s.clearMarks k n).keyCount = s.keyCount := rfl
@[simp] theorem State.clearMarks_measured (s : State) (k n : Nat) : (s.clearMarks k n).measured = s.measured := rfl
@[simp] theorem State.clearMarks_imageReq (s : State) (k n : Nat) : (s.clearMarks k n).imageReq = s.imageReq := rfl
@[simp] theorem State.clearMarks_imagePages (s : State) (k n : Nat) : (s.clearMarks k n).imagePages = s.imagePages := rfl
@[simp] theorem State.clearMarks_clocks (s : State) (k n : Nat) : (s.clearMarks k n).clocks = s.clocks := rfl
@[simp] theorem State.clearMarks_crossing (s : State) (k n : Nat) : (s.clearMarks k n).crossing = s.crossing := rfl
@[simp] theorem State.clearMarks_inputs (s : State) (k n : Nat) : (s.clearMarks k n).inputs = s.inputs := rfl
@[simp] theorem State.clearMarks_cur (s : State) (k n : Nat) : (s.clearMarks k n).cur = s.cur := rfl
@[simp] theorem State.clearMarks_stages (s : State) (k n : Nat) : (s.clearMarks k n).stages = s.stages := rfl
@[simp] theorem State.clearMarks_outputs (s : State) (k n : Nat) : (s.clearMarks k n).outputs = s.outputs := rfl

@[simp] theorem State.markPoison_cycle (s : State) (k n : Nat) : (s.markPoison k n).cycle = s.cycle := rfl
@[simp] theorem State.markPoison_withheld (s : State) (k n : Nat) : (s.markPoison k n).withheld = s.withheld := rfl
@[simp] theorem State.markPoison_withholdTo (s : State) (k n : Nat) : (s.markPoison k n).withholdTo = s.withholdTo := rfl
@[simp] theorem State.markPoison_tick (s : State) (k n : Nat) : (s.markPoison k n).tick = s.tick := rfl
@[simp] theorem State.markPoison_choices (s : State) (k n : Nat) : (s.markPoison k n).choices = s.choices := rfl
@[simp] theorem State.markPoison_delays (s : State) (k n : Nat) : (s.markPoison k n).delays = s.delays := rfl
@[simp] theorem State.markPoison_boot (s : State) (k n : Nat) : (s.markPoison k n).boot = s.boot := rfl
@[simp] theorem State.markPoison_fwOk (s : State) (k n : Nat) : (s.markPoison k n).fwOk = s.fwOk := rfl
@[simp] theorem State.markPoison_blobs (s : State) (k n : Nat) : (s.markPoison k n).blobs = s.blobs := rfl
@[simp] theorem State.markPoison_blob (s : State) (k n : Nat) : (s.markPoison k n).blob = s.blob := rfl
@[simp] theorem State.markPoison_versionFloor (s : State) (k n : Nat) : (s.markPoison k n).versionFloor = s.versionFloor := rfl
@[simp] theorem State.markPoison_power (s : State) (k n : Nat) : (s.markPoison k n).power = s.power := rfl
@[simp] theorem State.markPoison_pmem (s : State) (k n : Nat) : (s.markPoison k n).pmem = s.pmem := rfl
@[simp] theorem State.markPoison_plain (s : State) (k n : Nat) : (s.markPoison k n).plain = s.plain := rfl
@[simp] theorem State.markPoison_waiters (s : State) (k n : Nat) : (s.markPoison k n).waiters = s.waiters := rfl
@[simp] theorem State.markPoison_waves (s : State) (k n : Nat) : (s.markPoison k n).waves = s.waves := rfl
@[simp] theorem State.markPoison_banks (s : State) (k n : Nat) : (s.markPoison k n).banks = s.banks := rfl
@[simp] theorem State.markPoison_cores (s : State) (k n : Nat) : (s.markPoison k n).cores = s.cores := rfl
@[simp] theorem State.markPoison_parts (s : State) (k n : Nat) : (s.markPoison k n).parts = s.parts := rfl
@[simp] theorem State.markPoison_win (s : State) (k n : Nat) : (s.markPoison k n).win = s.win := rfl
@[simp] theorem State.markPoison_launches (s : State) (k n : Nat) : (s.markPoison k n).launches = s.launches := rfl
@[simp] theorem State.markPoison_nextKey (s : State) (k n : Nat) : (s.markPoison k n).nextKey = s.nextKey := rfl
@[simp] theorem State.markPoison_creditEpoch (s : State) (k n : Nat) : (s.markPoison k n).creditEpoch = s.creditEpoch := rfl
@[simp] theorem State.markPoison_xfers (s : State) (k n : Nat) : (s.markPoison k n).xfers = s.xfers := rfl
@[simp] theorem State.markPoison_posted (s : State) (k n : Nat) : (s.markPoison k n).posted = s.posted := rfl
@[simp] theorem State.markPoison_arrived (s : State) (k n : Nat) : (s.markPoison k n).arrived = s.arrived := rfl
@[simp] theorem State.markPoison_audits (s : State) (k n : Nat) : (s.markPoison k n).audits = s.audits := rfl
@[simp] theorem State.markPoison_tlb (s : State) (k n : Nat) : (s.markPoison k n).tlb = s.tlb := rfl
@[simp] theorem State.markPoison_fbufs (s : State) (k n : Nat) : (s.markPoison k n).fbufs = s.fbufs := rfl
@[simp] theorem State.markPoison_images (s : State) (k n : Nat) : (s.markPoison k n).images = s.images := rfl
@[simp] theorem State.markPoison_nextTicket (s : State) (k n : Nat) : (s.markPoison k n).nextTicket = s.nextTicket := rfl
@[simp] theorem State.markPoison_worldKeys (s : State) (k n : Nat) : (s.markPoison k n).worldKeys = s.worldKeys := rfl
@[simp] theorem State.markPoison_keyCount (s : State) (k n : Nat) : (s.markPoison k n).keyCount = s.keyCount := rfl
@[simp] theorem State.markPoison_measured (s : State) (k n : Nat) : (s.markPoison k n).measured = s.measured := rfl
@[simp] theorem State.markPoison_imageReq (s : State) (k n : Nat) : (s.markPoison k n).imageReq = s.imageReq := rfl
@[simp] theorem State.markPoison_imagePages (s : State) (k n : Nat) : (s.markPoison k n).imagePages = s.imagePages := rfl
@[simp] theorem State.markPoison_clocks (s : State) (k n : Nat) : (s.markPoison k n).clocks = s.clocks := rfl
@[simp] theorem State.markPoison_crossing (s : State) (k n : Nat) : (s.markPoison k n).crossing = s.crossing := rfl
@[simp] theorem State.markPoison_inputs (s : State) (k n : Nat) : (s.markPoison k n).inputs = s.inputs := rfl
@[simp] theorem State.markPoison_cur (s : State) (k n : Nat) : (s.markPoison k n).cur = s.cur := rfl
@[simp] theorem State.markPoison_stages (s : State) (k n : Nat) : (s.markPoison k n).stages = s.stages := rfl
@[simp] theorem State.markPoison_outputs (s : State) (k n : Nat) : (s.markPoison k n).outputs = s.outputs := rfl

@[simp] theorem State.setLaunch_cycle (s : State) (l : Launch) : (s.setLaunch l).cycle = s.cycle := rfl
@[simp] theorem State.setLaunch_withheld (s : State) (l : Launch) : (s.setLaunch l).withheld = s.withheld := rfl
@[simp] theorem State.setLaunch_withholdTo (s : State) (l : Launch) : (s.setLaunch l).withholdTo = s.withholdTo := rfl
@[simp] theorem State.setLaunch_tick (s : State) (l : Launch) : (s.setLaunch l).tick = s.tick := rfl
@[simp] theorem State.setLaunch_choices (s : State) (l : Launch) : (s.setLaunch l).choices = s.choices := rfl
@[simp] theorem State.setLaunch_delays (s : State) (l : Launch) : (s.setLaunch l).delays = s.delays := rfl
@[simp] theorem State.setLaunch_boot (s : State) (l : Launch) : (s.setLaunch l).boot = s.boot := rfl
@[simp] theorem State.setLaunch_fwOk (s : State) (l : Launch) : (s.setLaunch l).fwOk = s.fwOk := rfl
@[simp] theorem State.setLaunch_blobs (s : State) (l : Launch) : (s.setLaunch l).blobs = s.blobs := rfl
@[simp] theorem State.setLaunch_blob (s : State) (l : Launch) : (s.setLaunch l).blob = s.blob := rfl
@[simp] theorem State.setLaunch_versionFloor (s : State) (l : Launch) : (s.setLaunch l).versionFloor = s.versionFloor := rfl
@[simp] theorem State.setLaunch_power (s : State) (l : Launch) : (s.setLaunch l).power = s.power := rfl
@[simp] theorem State.setLaunch_pmem (s : State) (l : Launch) : (s.setLaunch l).pmem = s.pmem := rfl
@[simp] theorem State.setLaunch_plain (s : State) (l : Launch) : (s.setLaunch l).plain = s.plain := rfl
@[simp] theorem State.setLaunch_poison (s : State) (l : Launch) : (s.setLaunch l).poison = s.poison := rfl
@[simp] theorem State.setLaunch_waiters (s : State) (l : Launch) : (s.setLaunch l).waiters = s.waiters := rfl
@[simp] theorem State.setLaunch_waves (s : State) (l : Launch) : (s.setLaunch l).waves = s.waves := rfl
@[simp] theorem State.setLaunch_banks (s : State) (l : Launch) : (s.setLaunch l).banks = s.banks := rfl
@[simp] theorem State.setLaunch_cores (s : State) (l : Launch) : (s.setLaunch l).cores = s.cores := rfl
@[simp] theorem State.setLaunch_parts (s : State) (l : Launch) : (s.setLaunch l).parts = s.parts := rfl
@[simp] theorem State.setLaunch_win (s : State) (l : Launch) : (s.setLaunch l).win = s.win := rfl
@[simp] theorem State.setLaunch_nextKey (s : State) (l : Launch) : (s.setLaunch l).nextKey = s.nextKey := rfl
@[simp] theorem State.setLaunch_creditEpoch (s : State) (l : Launch) : (s.setLaunch l).creditEpoch = s.creditEpoch := rfl
@[simp] theorem State.setLaunch_xfers (s : State) (l : Launch) : (s.setLaunch l).xfers = s.xfers := rfl
@[simp] theorem State.setLaunch_posted (s : State) (l : Launch) : (s.setLaunch l).posted = s.posted := rfl
@[simp] theorem State.setLaunch_arrived (s : State) (l : Launch) : (s.setLaunch l).arrived = s.arrived := rfl
@[simp] theorem State.setLaunch_audits (s : State) (l : Launch) : (s.setLaunch l).audits = s.audits := rfl
@[simp] theorem State.setLaunch_tlb (s : State) (l : Launch) : (s.setLaunch l).tlb = s.tlb := rfl
@[simp] theorem State.setLaunch_fbufs (s : State) (l : Launch) : (s.setLaunch l).fbufs = s.fbufs := rfl
@[simp] theorem State.setLaunch_images (s : State) (l : Launch) : (s.setLaunch l).images = s.images := rfl
@[simp] theorem State.setLaunch_nextTicket (s : State) (l : Launch) : (s.setLaunch l).nextTicket = s.nextTicket := rfl
@[simp] theorem State.setLaunch_worldKeys (s : State) (l : Launch) : (s.setLaunch l).worldKeys = s.worldKeys := rfl
@[simp] theorem State.setLaunch_keyCount (s : State) (l : Launch) : (s.setLaunch l).keyCount = s.keyCount := rfl
@[simp] theorem State.setLaunch_measured (s : State) (l : Launch) : (s.setLaunch l).measured = s.measured := rfl
@[simp] theorem State.setLaunch_imageReq (s : State) (l : Launch) : (s.setLaunch l).imageReq = s.imageReq := rfl
@[simp] theorem State.setLaunch_imagePages (s : State) (l : Launch) : (s.setLaunch l).imagePages = s.imagePages := rfl
@[simp] theorem State.setLaunch_clocks (s : State) (l : Launch) : (s.setLaunch l).clocks = s.clocks := rfl
@[simp] theorem State.setLaunch_crossing (s : State) (l : Launch) : (s.setLaunch l).crossing = s.crossing := rfl
@[simp] theorem State.setLaunch_inputs (s : State) (l : Launch) : (s.setLaunch l).inputs = s.inputs := rfl
@[simp] theorem State.setLaunch_cur (s : State) (l : Launch) : (s.setLaunch l).cur = s.cur := rfl
@[simp] theorem State.setLaunch_stages (s : State) (l : Launch) : (s.setLaunch l).stages = s.stages := rfl
@[simp] theorem State.setLaunch_outputs (s : State) (l : Launch) : (s.setLaunch l).outputs = s.outputs := rfl

@[simp] theorem State.setAudit_cycle (s : State) (a : Audit) : (s.setAudit a).cycle = s.cycle := rfl
@[simp] theorem State.setAudit_withheld (s : State) (a : Audit) : (s.setAudit a).withheld = s.withheld := rfl
@[simp] theorem State.setAudit_withholdTo (s : State) (a : Audit) : (s.setAudit a).withholdTo = s.withholdTo := rfl
@[simp] theorem State.setAudit_tick (s : State) (a : Audit) : (s.setAudit a).tick = s.tick := rfl
@[simp] theorem State.setAudit_choices (s : State) (a : Audit) : (s.setAudit a).choices = s.choices := rfl
@[simp] theorem State.setAudit_delays (s : State) (a : Audit) : (s.setAudit a).delays = s.delays := rfl
@[simp] theorem State.setAudit_boot (s : State) (a : Audit) : (s.setAudit a).boot = s.boot := rfl
@[simp] theorem State.setAudit_fwOk (s : State) (a : Audit) : (s.setAudit a).fwOk = s.fwOk := rfl
@[simp] theorem State.setAudit_blobs (s : State) (a : Audit) : (s.setAudit a).blobs = s.blobs := rfl
@[simp] theorem State.setAudit_blob (s : State) (a : Audit) : (s.setAudit a).blob = s.blob := rfl
@[simp] theorem State.setAudit_versionFloor (s : State) (a : Audit) : (s.setAudit a).versionFloor = s.versionFloor := rfl
@[simp] theorem State.setAudit_power (s : State) (a : Audit) : (s.setAudit a).power = s.power := rfl
@[simp] theorem State.setAudit_pmem (s : State) (a : Audit) : (s.setAudit a).pmem = s.pmem := rfl
@[simp] theorem State.setAudit_plain (s : State) (a : Audit) : (s.setAudit a).plain = s.plain := rfl
@[simp] theorem State.setAudit_poison (s : State) (a : Audit) : (s.setAudit a).poison = s.poison := rfl
@[simp] theorem State.setAudit_waiters (s : State) (a : Audit) : (s.setAudit a).waiters = s.waiters := rfl
@[simp] theorem State.setAudit_waves (s : State) (a : Audit) : (s.setAudit a).waves = s.waves := rfl
@[simp] theorem State.setAudit_banks (s : State) (a : Audit) : (s.setAudit a).banks = s.banks := rfl
@[simp] theorem State.setAudit_cores (s : State) (a : Audit) : (s.setAudit a).cores = s.cores := rfl
@[simp] theorem State.setAudit_parts (s : State) (a : Audit) : (s.setAudit a).parts = s.parts := rfl
@[simp] theorem State.setAudit_win (s : State) (a : Audit) : (s.setAudit a).win = s.win := rfl
@[simp] theorem State.setAudit_launches (s : State) (a : Audit) : (s.setAudit a).launches = s.launches := rfl
@[simp] theorem State.setAudit_nextKey (s : State) (a : Audit) : (s.setAudit a).nextKey = s.nextKey := rfl
@[simp] theorem State.setAudit_creditEpoch (s : State) (a : Audit) : (s.setAudit a).creditEpoch = s.creditEpoch := rfl
@[simp] theorem State.setAudit_xfers (s : State) (a : Audit) : (s.setAudit a).xfers = s.xfers := rfl
@[simp] theorem State.setAudit_posted (s : State) (a : Audit) : (s.setAudit a).posted = s.posted := rfl
@[simp] theorem State.setAudit_arrived (s : State) (a : Audit) : (s.setAudit a).arrived = s.arrived := rfl
@[simp] theorem State.setAudit_tlb (s : State) (a : Audit) : (s.setAudit a).tlb = s.tlb := rfl
@[simp] theorem State.setAudit_fbufs (s : State) (a : Audit) : (s.setAudit a).fbufs = s.fbufs := rfl
@[simp] theorem State.setAudit_images (s : State) (a : Audit) : (s.setAudit a).images = s.images := rfl
@[simp] theorem State.setAudit_nextTicket (s : State) (a : Audit) : (s.setAudit a).nextTicket = s.nextTicket := rfl
@[simp] theorem State.setAudit_worldKeys (s : State) (a : Audit) : (s.setAudit a).worldKeys = s.worldKeys := rfl
@[simp] theorem State.setAudit_keyCount (s : State) (a : Audit) : (s.setAudit a).keyCount = s.keyCount := rfl
@[simp] theorem State.setAudit_measured (s : State) (a : Audit) : (s.setAudit a).measured = s.measured := rfl
@[simp] theorem State.setAudit_imageReq (s : State) (a : Audit) : (s.setAudit a).imageReq = s.imageReq := rfl
@[simp] theorem State.setAudit_imagePages (s : State) (a : Audit) : (s.setAudit a).imagePages = s.imagePages := rfl
@[simp] theorem State.setAudit_clocks (s : State) (a : Audit) : (s.setAudit a).clocks = s.clocks := rfl
@[simp] theorem State.setAudit_crossing (s : State) (a : Audit) : (s.setAudit a).crossing = s.crossing := rfl
@[simp] theorem State.setAudit_inputs (s : State) (a : Audit) : (s.setAudit a).inputs = s.inputs := rfl
@[simp] theorem State.setAudit_cur (s : State) (a : Audit) : (s.setAudit a).cur = s.cur := rfl
@[simp] theorem State.setAudit_stages (s : State) (a : Audit) : (s.setAudit a).stages = s.stages := rfl
@[simp] theorem State.setAudit_outputs (s : State) (a : Audit) : (s.setAudit a).outputs = s.outputs := rfl

/-! ### Reads after updates -/

@[simp] theorem State.wave_setWave (s : State) (w : Nat) (x : Wave) (w' : Nat) :
    (s.setWave w x).wave w' = if w' = w then x else s.wave w' := SMap.get_set ..
@[simp] theorem State.bank_setBank (s : State) (b : Nat) (x : Bank) (b' : Nat) :
    (s.setBank b x).bank b' = if b' = b then x else s.bank b' := SMap.get_set ..
@[simp] theorem State.core_setCore (s : State) (c : Nat) (x : Core) (c' : Nat) :
    (s.setCore c x).core c' = if c' = c then x else s.core c' := SMap.get_set ..
@[simp] theorem State.part_setPart (s : State) (p : Nat) (x : Part) (p' : Nat) :
    (s.setPart p x).part p' = if p' = p then x else s.part p' := SMap.get_set ..
@[simp] theorem State.fbuf_setFbuf (s : State) (v : Nat) (x : FaultBuffer) (v' : Nat) :
    (s.setFbuf v x).fbuf v' = if v' = v then x else s.fbuf v' := SMap.get_set ..
theorem State.reg_setReg (s : State) (o : Nat) (v : Word) (o' : Nat) :
    (s.setReg o v).reg o' = if o' / 8 = o / 8 then v else s.reg o' := SMap.get_set ..

@[simp] theorem State.setWave_at_bank (s : State) (w : Nat) (x : Wave) (b' : Nat) : (s.setWave w x).bank b' = s.bank b' := rfl
@[simp] theorem State.setWave_at_core (s : State) (w : Nat) (x : Wave) (c' : Nat) : (s.setWave w x).core c' = s.core c' := rfl
@[simp] theorem State.setWave_at_part (s : State) (w : Nat) (x : Wave) (p' : Nat) : (s.setWave w x).part p' = s.part p' := rfl
@[simp] theorem State.setWave_at_fbuf (s : State) (w : Nat) (x : Wave) (v' : Nat) : (s.setWave w x).fbuf v' = s.fbuf v' := rfl
@[simp] theorem State.setWave_at_reg (s : State) (w : Nat) (x : Wave) (o' : Nat) : (s.setWave w x).reg o' = s.reg o' := rfl
@[simp] theorem State.setWave_at_byte (s : State) (w : Nat) (x : Wave) (a' : Nat) : (s.setWave w x).byte a' = s.byte a' := rfl
@[simp] theorem State.setBank_at_wave (s : State) (b : Nat) (x : Bank) (w' : Nat) : (s.setBank b x).wave w' = s.wave w' := rfl
@[simp] theorem State.setBank_at_core (s : State) (b : Nat) (x : Bank) (c' : Nat) : (s.setBank b x).core c' = s.core c' := rfl
@[simp] theorem State.setBank_at_part (s : State) (b : Nat) (x : Bank) (p' : Nat) : (s.setBank b x).part p' = s.part p' := rfl
@[simp] theorem State.setBank_at_fbuf (s : State) (b : Nat) (x : Bank) (v' : Nat) : (s.setBank b x).fbuf v' = s.fbuf v' := rfl
@[simp] theorem State.setBank_at_reg (s : State) (b : Nat) (x : Bank) (o' : Nat) : (s.setBank b x).reg o' = s.reg o' := rfl
@[simp] theorem State.setBank_at_byte (s : State) (b : Nat) (x : Bank) (a' : Nat) : (s.setBank b x).byte a' = s.byte a' := rfl
@[simp] theorem State.setBank_at_cw (s : State) (b : Nat) (x : Bank) : (s.setBank b x).cw = s.cw := rfl
@[simp] theorem State.setBank_at_cs (s : State) (b : Nat) (x : Bank) : (s.setBank b x).cs = s.cs := rfl
@[simp] theorem State.setCore_at_wave (s : State) (c : Nat) (x : Core) (w' : Nat) : (s.setCore c x).wave w' = s.wave w' := rfl
@[simp] theorem State.setCore_at_bank (s : State) (c : Nat) (x : Core) (b' : Nat) : (s.setCore c x).bank b' = s.bank b' := rfl
@[simp] theorem State.setCore_at_part (s : State) (c : Nat) (x : Core) (p' : Nat) : (s.setCore c x).part p' = s.part p' := rfl
@[simp] theorem State.setCore_at_fbuf (s : State) (c : Nat) (x : Core) (v' : Nat) : (s.setCore c x).fbuf v' = s.fbuf v' := rfl
@[simp] theorem State.setCore_at_reg (s : State) (c : Nat) (x : Core) (o' : Nat) : (s.setCore c x).reg o' = s.reg o' := rfl
@[simp] theorem State.setCore_at_byte (s : State) (c : Nat) (x : Core) (a' : Nat) : (s.setCore c x).byte a' = s.byte a' := rfl
@[simp] theorem State.setCore_at_cw (s : State) (c : Nat) (x : Core) : (s.setCore c x).cw = s.cw := rfl
@[simp] theorem State.setCore_at_cs (s : State) (c : Nat) (x : Core) : (s.setCore c x).cs = s.cs := rfl
@[simp] theorem State.setPart_at_wave (s : State) (p : Nat) (x : Part) (w' : Nat) : (s.setPart p x).wave w' = s.wave w' := rfl
@[simp] theorem State.setPart_at_bank (s : State) (p : Nat) (x : Part) (b' : Nat) : (s.setPart p x).bank b' = s.bank b' := rfl
@[simp] theorem State.setPart_at_core (s : State) (p : Nat) (x : Part) (c' : Nat) : (s.setPart p x).core c' = s.core c' := rfl
@[simp] theorem State.setPart_at_fbuf (s : State) (p : Nat) (x : Part) (v' : Nat) : (s.setPart p x).fbuf v' = s.fbuf v' := rfl
@[simp] theorem State.setPart_at_reg (s : State) (p : Nat) (x : Part) (o' : Nat) : (s.setPart p x).reg o' = s.reg o' := rfl
@[simp] theorem State.setPart_at_byte (s : State) (p : Nat) (x : Part) (a' : Nat) : (s.setPart p x).byte a' = s.byte a' := rfl
@[simp] theorem State.setPart_at_cw (s : State) (p : Nat) (x : Part) : (s.setPart p x).cw = s.cw := rfl
@[simp] theorem State.setPart_at_cs (s : State) (p : Nat) (x : Part) : (s.setPart p x).cs = s.cs := rfl
@[simp] theorem State.setFbuf_at_wave (s : State) (v : Nat) (x : FaultBuffer) (w' : Nat) : (s.setFbuf v x).wave w' = s.wave w' := rfl
@[simp] theorem State.setFbuf_at_bank (s : State) (v : Nat) (x : FaultBuffer) (b' : Nat) : (s.setFbuf v x).bank b' = s.bank b' := rfl
@[simp] theorem State.setFbuf_at_core (s : State) (v : Nat) (x : FaultBuffer) (c' : Nat) : (s.setFbuf v x).core c' = s.core c' := rfl
@[simp] theorem State.setFbuf_at_part (s : State) (v : Nat) (x : FaultBuffer) (p' : Nat) : (s.setFbuf v x).part p' = s.part p' := rfl
@[simp] theorem State.setFbuf_at_reg (s : State) (v : Nat) (x : FaultBuffer) (o' : Nat) : (s.setFbuf v x).reg o' = s.reg o' := rfl
@[simp] theorem State.setFbuf_at_byte (s : State) (v : Nat) (x : FaultBuffer) (a' : Nat) : (s.setFbuf v x).byte a' = s.byte a' := rfl
@[simp] theorem State.setFbuf_at_cw (s : State) (v : Nat) (x : FaultBuffer) : (s.setFbuf v x).cw = s.cw := rfl
@[simp] theorem State.setFbuf_at_cs (s : State) (v : Nat) (x : FaultBuffer) : (s.setFbuf v x).cs = s.cs := rfl
@[simp] theorem State.setReg_at_wave (s : State) (o : Nat) (v : Word) (w' : Nat) : (s.setReg o v).wave w' = s.wave w' := rfl
@[simp] theorem State.setReg_at_bank (s : State) (o : Nat) (v : Word) (b' : Nat) : (s.setReg o v).bank b' = s.bank b' := rfl
@[simp] theorem State.setReg_at_core (s : State) (o : Nat) (v : Word) (c' : Nat) : (s.setReg o v).core c' = s.core c' := rfl
@[simp] theorem State.setReg_at_part (s : State) (o : Nat) (v : Word) (p' : Nat) : (s.setReg o v).part p' = s.part p' := rfl
@[simp] theorem State.setReg_at_fbuf (s : State) (o : Nat) (v : Word) (v' : Nat) : (s.setReg o v).fbuf v' = s.fbuf v' := rfl
@[simp] theorem State.setReg_at_byte (s : State) (o : Nat) (v : Word) (a' : Nat) : (s.setReg o v).byte a' = s.byte a' := rfl
@[simp] theorem State.setReg_at_cw (s : State) (o : Nat) (v : Word) : (s.setReg o v).cw = s.cw := rfl
@[simp] theorem State.setReg_at_cs (s : State) (o : Nat) (v : Word) : (s.setReg o v).cs = s.cs := rfl
@[simp] theorem State.out_at_wave (s : State) (o : Output) (w' : Nat) : (s.out o).wave w' = s.wave w' := rfl
@[simp] theorem State.out_at_bank (s : State) (o : Output) (b' : Nat) : (s.out o).bank b' = s.bank b' := rfl
@[simp] theorem State.out_at_core (s : State) (o : Output) (c' : Nat) : (s.out o).core c' = s.core c' := rfl
@[simp] theorem State.out_at_part (s : State) (o : Output) (p' : Nat) : (s.out o).part p' = s.part p' := rfl
@[simp] theorem State.out_at_fbuf (s : State) (o : Output) (v' : Nat) : (s.out o).fbuf v' = s.fbuf v' := rfl
@[simp] theorem State.out_at_reg (s : State) (o : Output) (o' : Nat) : (s.out o).reg o' = s.reg o' := rfl
@[simp] theorem State.out_at_byte (s : State) (o : Output) (a' : Nat) : (s.out o).byte a' = s.byte a' := rfl
@[simp] theorem State.out_at_cw (s : State) (o : Output) : (s.out o).cw = s.cw := rfl
@[simp] theorem State.out_at_cs (s : State) (o : Output) : (s.out o).cs = s.cs := rfl
@[simp] theorem State.setCw_at_bank (s : State) (W : Wave) (b' : Nat) : (s.setCw W).bank b' = s.bank b' := rfl
@[simp] theorem State.setCw_at_core (s : State) (W : Wave) (c' : Nat) : (s.setCw W).core c' = s.core c' := rfl
@[simp] theorem State.setCw_at_part (s : State) (W : Wave) (p' : Nat) : (s.setCw W).part p' = s.part p' := rfl
@[simp] theorem State.setCw_at_fbuf (s : State) (W : Wave) (v' : Nat) : (s.setCw W).fbuf v' = s.fbuf v' := rfl
@[simp] theorem State.setCw_at_reg (s : State) (W : Wave) (o' : Nat) : (s.setCw W).reg o' = s.reg o' := rfl
@[simp] theorem State.setCw_at_byte (s : State) (W : Wave) (a' : Nat) : (s.setCw W).byte a' = s.byte a' := rfl
@[simp] theorem State.setCs_at_bank (s : State) (t : Slot) (b' : Nat) : (s.setCs t).bank b' = s.bank b' := rfl
@[simp] theorem State.setCs_at_core (s : State) (t : Slot) (c' : Nat) : (s.setCs t).core c' = s.core c' := rfl
@[simp] theorem State.setCs_at_part (s : State) (t : Slot) (p' : Nat) : (s.setCs t).part p' = s.part p' := rfl
@[simp] theorem State.setCs_at_fbuf (s : State) (t : Slot) (v' : Nat) : (s.setCs t).fbuf v' = s.fbuf v' := rfl
@[simp] theorem State.setCs_at_reg (s : State) (t : Slot) (o' : Nat) : (s.setCs t).reg o' = s.reg o' := rfl
@[simp] theorem State.setCs_at_byte (s : State) (t : Slot) (a' : Nat) : (s.setCs t).byte a' = s.byte a' := rfl
@[simp] theorem State.setSlotOf_at_bank (s : State) (w : Nat) (x : SlotId) (t : Slot) (b' : Nat) : (s.setSlotOf w x t).bank b' = s.bank b' := rfl
@[simp] theorem State.setSlotOf_at_core (s : State) (w : Nat) (x : SlotId) (t : Slot) (c' : Nat) : (s.setSlotOf w x t).core c' = s.core c' := rfl
@[simp] theorem State.setSlotOf_at_part (s : State) (w : Nat) (x : SlotId) (t : Slot) (p' : Nat) : (s.setSlotOf w x t).part p' = s.part p' := rfl
@[simp] theorem State.setSlotOf_at_fbuf (s : State) (w : Nat) (x : SlotId) (t : Slot) (v' : Nat) : (s.setSlotOf w x t).fbuf v' = s.fbuf v' := rfl
@[simp] theorem State.setSlotOf_at_reg (s : State) (w : Nat) (x : SlotId) (t : Slot) (o' : Nat) : (s.setSlotOf w x t).reg o' = s.reg o' := rfl
@[simp] theorem State.setSlotOf_at_byte (s : State) (w : Nat) (x : SlotId) (t : Slot) (a' : Nat) : (s.setSlotOf w x t).byte a' = s.byte a' := rfl
@[simp] theorem State.setS_at_bank (s : State) (r : SReg) (v : Word) (b' : Nat) : (s.setS r v).bank b' = s.bank b' := rfl
@[simp] theorem State.setS_at_core (s : State) (r : SReg) (v : Word) (c' : Nat) : (s.setS r v).core c' = s.core c' := rfl
@[simp] theorem State.setS_at_part (s : State) (r : SReg) (v : Word) (p' : Nat) : (s.setS r v).part p' = s.part p' := rfl
@[simp] theorem State.setS_at_fbuf (s : State) (r : SReg) (v : Word) (v' : Nat) : (s.setS r v).fbuf v' = s.fbuf v' := rfl
@[simp] theorem State.setS_at_reg (s : State) (r : SReg) (v : Word) (o' : Nat) : (s.setS r v).reg o' = s.reg o' := rfl
@[simp] theorem State.setS_at_byte (s : State) (r : SReg) (v : Word) (a' : Nat) : (s.setS r v).byte a' = s.byte a' := rfl
@[simp] theorem State.setK_at_bank (s : State) (k : KReg) (v : Mask) (b' : Nat) : (s.setK k v).bank b' = s.bank b' := rfl
@[simp] theorem State.setK_at_core (s : State) (k : KReg) (v : Mask) (c' : Nat) : (s.setK k v).core c' = s.core c' := rfl
@[simp] theorem State.setK_at_part (s : State) (k : KReg) (v : Mask) (p' : Nat) : (s.setK k v).part p' = s.part p' := rfl
@[simp] theorem State.setK_at_fbuf (s : State) (k : KReg) (v : Mask) (v' : Nat) : (s.setK k v).fbuf v' = s.fbuf v' := rfl
@[simp] theorem State.setK_at_reg (s : State) (k : KReg) (v : Mask) (o' : Nat) : (s.setK k v).reg o' = s.reg o' := rfl
@[simp] theorem State.setK_at_byte (s : State) (k : KReg) (v : Mask) (a' : Nat) : (s.setK k v).byte a' = s.byte a' := rfl
@[simp] theorem State.advance_at_bank (s : State) (n : Nat) (b' : Nat) : (s.advance n).bank b' = s.bank b' := rfl
@[simp] theorem State.advance_at_core (s : State) (n : Nat) (c' : Nat) : (s.advance n).core c' = s.core c' := rfl
@[simp] theorem State.advance_at_part (s : State) (n : Nat) (p' : Nat) : (s.advance n).part p' = s.part p' := rfl
@[simp] theorem State.advance_at_fbuf (s : State) (n : Nat) (v' : Nat) : (s.advance n).fbuf v' = s.fbuf v' := rfl
@[simp] theorem State.advance_at_reg (s : State) (n : Nat) (o' : Nat) : (s.advance n).reg o' = s.reg o' := rfl
@[simp] theorem State.advance_at_byte (s : State) (n : Nat) (a' : Nat) : (s.advance n).byte a' = s.byte a' := rfl
@[simp] theorem State.jump_at_bank (s : State) (a : Word) (b' : Nat) : (s.jump a).bank b' = s.bank b' := rfl
@[simp] theorem State.jump_at_core (s : State) (a : Word) (c' : Nat) : (s.jump a).core c' = s.core c' := rfl
@[simp] theorem State.jump_at_part (s : State) (a : Word) (p' : Nat) : (s.jump a).part p' = s.part p' := rfl
@[simp] theorem State.jump_at_fbuf (s : State) (a : Word) (v' : Nat) : (s.jump a).fbuf v' = s.fbuf v' := rfl
@[simp] theorem State.jump_at_reg (s : State) (a : Word) (o' : Nat) : (s.jump a).reg o' = s.reg o' := rfl
@[simp] theorem State.jump_at_byte (s : State) (a : Word) (a' : Nat) : (s.jump a).byte a' = s.byte a' := rfl
@[simp] theorem State.pokeBytes_at_wave (s : State) (a : Nat) (bs : List Byte) (w' : Nat) : (s.pokeBytes a bs).wave w' = s.wave w' := rfl
@[simp] theorem State.pokeBytes_at_bank (s : State) (a : Nat) (bs : List Byte) (b' : Nat) : (s.pokeBytes a bs).bank b' = s.bank b' := rfl
@[simp] theorem State.pokeBytes_at_core (s : State) (a : Nat) (bs : List Byte) (c' : Nat) : (s.pokeBytes a bs).core c' = s.core c' := rfl
@[simp] theorem State.pokeBytes_at_part (s : State) (a : Nat) (bs : List Byte) (p' : Nat) : (s.pokeBytes a bs).part p' = s.part p' := rfl
@[simp] theorem State.pokeBytes_at_fbuf (s : State) (a : Nat) (bs : List Byte) (v' : Nat) : (s.pokeBytes a bs).fbuf v' = s.fbuf v' := rfl
@[simp] theorem State.pokeBytes_at_reg (s : State) (a : Nat) (bs : List Byte) (o' : Nat) : (s.pokeBytes a bs).reg o' = s.reg o' := rfl
@[simp] theorem State.pokeBytes_at_cw (s : State) (a : Nat) (bs : List Byte) : (s.pokeBytes a bs).cw = s.cw := rfl
@[simp] theorem State.pokeBytes_at_cs (s : State) (a : Nat) (bs : List Byte) : (s.pokeBytes a bs).cs = s.cs := rfl
@[simp] theorem State.clearMarks_at_wave (s : State) (k n : Nat) (w' : Nat) : (s.clearMarks k n).wave w' = s.wave w' := rfl
@[simp] theorem State.clearMarks_at_bank (s : State) (k n : Nat) (b' : Nat) : (s.clearMarks k n).bank b' = s.bank b' := rfl
@[simp] theorem State.clearMarks_at_core (s : State) (k n : Nat) (c' : Nat) : (s.clearMarks k n).core c' = s.core c' := rfl
@[simp] theorem State.clearMarks_at_part (s : State) (k n : Nat) (p' : Nat) : (s.clearMarks k n).part p' = s.part p' := rfl
@[simp] theorem State.clearMarks_at_fbuf (s : State) (k n : Nat) (v' : Nat) : (s.clearMarks k n).fbuf v' = s.fbuf v' := rfl
@[simp] theorem State.clearMarks_at_reg (s : State) (k n : Nat) (o' : Nat) : (s.clearMarks k n).reg o' = s.reg o' := rfl
@[simp] theorem State.clearMarks_at_byte (s : State) (k n : Nat) (a' : Nat) : (s.clearMarks k n).byte a' = s.byte a' := rfl
@[simp] theorem State.clearMarks_at_cw (s : State) (k n : Nat) : (s.clearMarks k n).cw = s.cw := rfl
@[simp] theorem State.clearMarks_at_cs (s : State) (k n : Nat) : (s.clearMarks k n).cs = s.cs := rfl
@[simp] theorem State.markPoison_at_wave (s : State) (k n : Nat) (w' : Nat) : (s.markPoison k n).wave w' = s.wave w' := rfl
@[simp] theorem State.markPoison_at_bank (s : State) (k n : Nat) (b' : Nat) : (s.markPoison k n).bank b' = s.bank b' := rfl
@[simp] theorem State.markPoison_at_core (s : State) (k n : Nat) (c' : Nat) : (s.markPoison k n).core c' = s.core c' := rfl
@[simp] theorem State.markPoison_at_part (s : State) (k n : Nat) (p' : Nat) : (s.markPoison k n).part p' = s.part p' := rfl
@[simp] theorem State.markPoison_at_fbuf (s : State) (k n : Nat) (v' : Nat) : (s.markPoison k n).fbuf v' = s.fbuf v' := rfl
@[simp] theorem State.markPoison_at_reg (s : State) (k n : Nat) (o' : Nat) : (s.markPoison k n).reg o' = s.reg o' := rfl
@[simp] theorem State.markPoison_at_byte (s : State) (k n : Nat) (a' : Nat) : (s.markPoison k n).byte a' = s.byte a' := rfl
@[simp] theorem State.markPoison_at_cw (s : State) (k n : Nat) : (s.markPoison k n).cw = s.cw := rfl
@[simp] theorem State.markPoison_at_cs (s : State) (k n : Nat) : (s.markPoison k n).cs = s.cs := rfl
@[simp] theorem State.setLaunch_at_wave (s : State) (l : Launch) (w' : Nat) : (s.setLaunch l).wave w' = s.wave w' := rfl
@[simp] theorem State.setLaunch_at_bank (s : State) (l : Launch) (b' : Nat) : (s.setLaunch l).bank b' = s.bank b' := rfl
@[simp] theorem State.setLaunch_at_core (s : State) (l : Launch) (c' : Nat) : (s.setLaunch l).core c' = s.core c' := rfl
@[simp] theorem State.setLaunch_at_part (s : State) (l : Launch) (p' : Nat) : (s.setLaunch l).part p' = s.part p' := rfl
@[simp] theorem State.setLaunch_at_fbuf (s : State) (l : Launch) (v' : Nat) : (s.setLaunch l).fbuf v' = s.fbuf v' := rfl
@[simp] theorem State.setLaunch_at_reg (s : State) (l : Launch) (o' : Nat) : (s.setLaunch l).reg o' = s.reg o' := rfl
@[simp] theorem State.setLaunch_at_byte (s : State) (l : Launch) (a' : Nat) : (s.setLaunch l).byte a' = s.byte a' := rfl
@[simp] theorem State.setLaunch_at_cw (s : State) (l : Launch) : (s.setLaunch l).cw = s.cw := rfl
@[simp] theorem State.setLaunch_at_cs (s : State) (l : Launch) : (s.setLaunch l).cs = s.cs := rfl
@[simp] theorem State.setAudit_at_wave (s : State) (a : Audit) (w' : Nat) : (s.setAudit a).wave w' = s.wave w' := rfl
@[simp] theorem State.setAudit_at_bank (s : State) (a : Audit) (b' : Nat) : (s.setAudit a).bank b' = s.bank b' := rfl
@[simp] theorem State.setAudit_at_core (s : State) (a : Audit) (c' : Nat) : (s.setAudit a).core c' = s.core c' := rfl
@[simp] theorem State.setAudit_at_part (s : State) (a : Audit) (p' : Nat) : (s.setAudit a).part p' = s.part p' := rfl
@[simp] theorem State.setAudit_at_fbuf (s : State) (a : Audit) (v' : Nat) : (s.setAudit a).fbuf v' = s.fbuf v' := rfl
@[simp] theorem State.setAudit_at_reg (s : State) (a : Audit) (o' : Nat) : (s.setAudit a).reg o' = s.reg o' := rfl
@[simp] theorem State.setAudit_at_byte (s : State) (a : Audit) (a' : Nat) : (s.setAudit a).byte a' = s.byte a' := rfl
@[simp] theorem State.setAudit_at_cw (s : State) (a : Audit) : (s.setAudit a).cw = s.cw := rfl
@[simp] theorem State.setAudit_at_cs (s : State) (a : Audit) : (s.setAudit a).cs = s.cs := rfl

/-! ### The issuing wave and its slot -/

@[simp] theorem State.cw_setCw (s : State) (W : Wave) : (s.setCw W).cw = W := by
  simp [State.cw, State.setCw]
@[simp] theorem State.setCw_at_wave (s : State) (W : Wave) (w : Nat) :
    (s.setCw W).wave w = if w = s.cur.1 then W else s.wave w := by simp [State.setCw]
theorem State.cw_def (s : State) : s.cw = s.wave s.cur.1 := rfl
@[simp] theorem State.setCw_setCw (s : State) (W W' : Wave) (w : Nat) :
    ((s.setCw W).setCw W').wave w = (s.setCw W').wave w := by
  simp only [State.setCw_at_wave, State.setCw_cur]; split <;> rfl

theorem Wave.slot_setSlot (W : Wave) (x y : SlotId) (t : Slot) :
    (W.setSlot x t).slot y = if y = x then t else W.slot y := by cases x <;> cases y <;> rfl
@[simp] theorem Wave.slot_setSlot_self (W : Wave) (x : SlotId) (t : Slot) : (W.setSlot x t).slot x = t := by cases x <;> rfl
@[simp] theorem Wave.slot_setSlot_other (W : Wave) (x : SlotId) (t : Slot) :
    (W.setSlot x t).slot (otherSlot x) = W.slot (otherSlot x) := by cases x <;> rfl
@[simp] theorem Wave.setSlot_setSlot (W : Wave) (x : SlotId) (t u : Slot) : (W.setSlot x t).setSlot x u = W.setSlot x u := by
  cases x <;> rfl
@[simp] theorem otherSlot_otherSlot (x : SlotId) : otherSlot (otherSlot x) = x := by cases x <;> rfl
theorem otherSlot_ne (x : SlotId) : otherSlot x ≠ x := by cases x <;> decide

@[simp] theorem Wave.setSlot_resident (W : Wave) (x : SlotId) (t : Slot) : (W.setSlot x t).resident = W.resident := by cases x <;> rfl
@[simp] theorem Wave.setSlot_sregs (W : Wave) (x : SlotId) (t : Slot) : (W.setSlot x t).sregs = W.sregs := by cases x <;> rfl
@[simp] theorem Wave.setSlot_kregs (W : Wave) (x : SlotId) (t : Slot) : (W.setSlot x t).kregs = W.kregs := by cases x <;> rfl
@[simp] theorem Wave.setSlot_vregs (W : Wave) (x : SlotId) (t : Slot) : (W.setSlot x t).vregs = W.vregs := by cases x <;> rfl
@[simp] theorem Wave.setSlot_ostacks (W : Wave) (x : SlotId) (t : Slot) : (W.setSlot x t).ostacks = W.ostacks := by cases x <;> rfl
@[simp] theorem Wave.setSlot_depths (W : Wave) (x : SlotId) (t : Slot) : (W.setSlot x t).depths = W.depths := by cases x <;> rfl
@[simp] theorem Wave.setSlot_gens (W : Wave) (x : SlotId) (t : Slot) : (W.setSlot x t).gens = W.gens := by cases x <;> rfl
@[simp] theorem Wave.setSlot_rndseed (W : Wave) (x : SlotId) (t : Slot) : (W.setSlot x t).rndseed = W.rndseed := by cases x <;> rfl
@[simp] theorem Wave.setSlot_last (W : Wave) (x : SlotId) (t : Slot) : (W.setSlot x t).last = W.last := by cases x <;> rfl
@[simp] theorem Wave.setSlot_liveLanes (W : Wave) (x : SlotId) (t : Slot) : (W.setSlot x t).liveLanes = W.liveLanes := by cases x <;> rfl
@[simp] theorem Wave.setSlot_dsp (W : Wave) (x : SlotId) (t : Slot) : (W.setSlot x t).dsp = W.dsp := by cases x <;> rfl
@[simp] theorem Wave.setSlot_dslim (W : Wave) (x : SlotId) (t : Slot) : (W.setSlot x t).dslim = W.dslim := by cases x <;> rfl
@[simp] theorem Wave.setSlot_entries (W : Wave) (x : SlotId) (t : Slot) : (W.setSlot x t).entries = W.entries := by cases x <;> rfl
@[simp] theorem Wave.setSlot_system (W : Wave) (x : SlotId) (t : Slot) : (W.setSlot x t).system = W.system := by cases x <;> rfl
@[simp] theorem Wave.setSlot_handler (W : Wave) (x : SlotId) (t : Slot) : (W.setSlot x t).handler = W.handler := by cases x <;> rfl
@[simp] theorem Wave.setSlot_trap (W : Wave) (x : SlotId) (t : Slot) : (W.setSlot x t).trap = W.trap := by cases x <;> rfl
@[simp] theorem Wave.setSlot_frozen (W : Wave) (x : SlotId) (t : Slot) : (W.setSlot x t).frozen = W.frozen := by cases x <;> rfl
@[simp] theorem Wave.setSlot_service (W : Wave) (x : SlotId) (t : Slot) : (W.setSlot x t).service = W.service := by cases x <;> rfl
@[simp] theorem Wave.setSlot_heldFault (W : Wave) (x : SlotId) (t : Slot) : (W.setSlot x t).heldFault = W.heldFault := by cases x <;> rfl
@[simp] theorem Wave.setSlot_adopts (W : Wave) (x : SlotId) (t : Slot) : (W.setSlot x t).adopts = W.adopts := by cases x <;> rfl
@[simp] theorem Wave.setSlot_mwtimeo (W : Wave) (x : SlotId) (t : Slot) : (W.setSlot x t).mwtimeo = W.mwtimeo := by cases x <;> rfl
@[simp] theorem Wave.setSlot_capsule (W : Wave) (x : SlotId) (t : Slot) : (W.setSlot x t).capsule = W.capsule := by cases x <;> rfl
@[simp] theorem Wave.setSlot_syncs (W : Wave) (x : SlotId) (t : Slot) : (W.setSlot x t).syncs = W.syncs := by cases x <;> rfl
@[simp] theorem Wave.setSlot_pend (W : Wave) (x : SlotId) (t : Slot) : (W.setSlot x t).pend = W.pend := by cases x <;> rfl
@[simp] theorem Wave.setSlot_gates (W : Wave) (x : SlotId) (t : Slot) : (W.setSlot x t).gates = W.gates := by cases x <;> rfl

@[simp] theorem Wave.setS_resident (W : Wave) (r : SReg) (v : Word) : (W.setS r v).resident = W.resident := by unfold Wave.setS; split <;> rfl
@[simp] theorem Wave.setS_kregs (W : Wave) (r : SReg) (v : Word) : (W.setS r v).kregs = W.kregs := by unfold Wave.setS; split <;> rfl
@[simp] theorem Wave.setS_vregs (W : Wave) (r : SReg) (v : Word) : (W.setS r v).vregs = W.vregs := by unfold Wave.setS; split <;> rfl
@[simp] theorem Wave.setS_ostacks (W : Wave) (r : SReg) (v : Word) : (W.setS r v).ostacks = W.ostacks := by unfold Wave.setS; split <;> rfl
@[simp] theorem Wave.setS_depths (W : Wave) (r : SReg) (v : Word) : (W.setS r v).depths = W.depths := by unfold Wave.setS; split <;> rfl
@[simp] theorem Wave.setS_gens (W : Wave) (r : SReg) (v : Word) : (W.setS r v).gens = W.gens := by unfold Wave.setS; split <;> rfl
@[simp] theorem Wave.setS_rndseed (W : Wave) (r : SReg) (v : Word) : (W.setS r v).rndseed = W.rndseed := by unfold Wave.setS; split <;> rfl
@[simp] theorem Wave.setS_slotA (W : Wave) (r : SReg) (v : Word) : (W.setS r v).slotA = W.slotA := by unfold Wave.setS; split <;> rfl
@[simp] theorem Wave.setS_slotB (W : Wave) (r : SReg) (v : Word) : (W.setS r v).slotB = W.slotB := by unfold Wave.setS; split <;> rfl
@[simp] theorem Wave.setS_last (W : Wave) (r : SReg) (v : Word) : (W.setS r v).last = W.last := by unfold Wave.setS; split <;> rfl
@[simp] theorem Wave.setS_liveLanes (W : Wave) (r : SReg) (v : Word) : (W.setS r v).liveLanes = W.liveLanes := by unfold Wave.setS; split <;> rfl
@[simp] theorem Wave.setS_dsp (W : Wave) (r : SReg) (v : Word) : (W.setS r v).dsp = W.dsp := by unfold Wave.setS; split <;> rfl
@[simp] theorem Wave.setS_dslim (W : Wave) (r : SReg) (v : Word) : (W.setS r v).dslim = W.dslim := by unfold Wave.setS; split <;> rfl
@[simp] theorem Wave.setS_entries (W : Wave) (r : SReg) (v : Word) : (W.setS r v).entries = W.entries := by unfold Wave.setS; split <;> rfl
@[simp] theorem Wave.setS_system (W : Wave) (r : SReg) (v : Word) : (W.setS r v).system = W.system := by unfold Wave.setS; split <;> rfl
@[simp] theorem Wave.setS_handler (W : Wave) (r : SReg) (v : Word) : (W.setS r v).handler = W.handler := by unfold Wave.setS; split <;> rfl
@[simp] theorem Wave.setS_trap (W : Wave) (r : SReg) (v : Word) : (W.setS r v).trap = W.trap := by unfold Wave.setS; split <;> rfl
@[simp] theorem Wave.setS_frozen (W : Wave) (r : SReg) (v : Word) : (W.setS r v).frozen = W.frozen := by unfold Wave.setS; split <;> rfl
@[simp] theorem Wave.setS_service (W : Wave) (r : SReg) (v : Word) : (W.setS r v).service = W.service := by unfold Wave.setS; split <;> rfl
@[simp] theorem Wave.setS_heldFault (W : Wave) (r : SReg) (v : Word) : (W.setS r v).heldFault = W.heldFault := by unfold Wave.setS; split <;> rfl
@[simp] theorem Wave.setS_adopts (W : Wave) (r : SReg) (v : Word) : (W.setS r v).adopts = W.adopts := by unfold Wave.setS; split <;> rfl
@[simp] theorem Wave.setS_mwtimeo (W : Wave) (r : SReg) (v : Word) : (W.setS r v).mwtimeo = W.mwtimeo := by unfold Wave.setS; split <;> rfl
@[simp] theorem Wave.setS_capsule (W : Wave) (r : SReg) (v : Word) : (W.setS r v).capsule = W.capsule := by unfold Wave.setS; split <;> rfl
@[simp] theorem Wave.setS_syncs (W : Wave) (r : SReg) (v : Word) : (W.setS r v).syncs = W.syncs := by unfold Wave.setS; split <;> rfl
@[simp] theorem Wave.setS_pend (W : Wave) (r : SReg) (v : Word) : (W.setS r v).pend = W.pend := by unfold Wave.setS; split <;> rfl
@[simp] theorem Wave.setS_gates (W : Wave) (r : SReg) (v : Word) : (W.setS r v).gates = W.gates := by unfold Wave.setS; split <;> rfl
@[simp] theorem Wave.setK_resident (W : Wave) (k : KReg) (v : Mask) : (W.setK k v).resident = W.resident := by unfold Wave.setK; split <;> rfl
@[simp] theorem Wave.setK_sregs (W : Wave) (k : KReg) (v : Mask) : (W.setK k v).sregs = W.sregs := by unfold Wave.setK; split <;> rfl
@[simp] theorem Wave.setK_vregs (W : Wave) (k : KReg) (v : Mask) : (W.setK k v).vregs = W.vregs := by unfold Wave.setK; split <;> rfl
@[simp] theorem Wave.setK_ostacks (W : Wave) (k : KReg) (v : Mask) : (W.setK k v).ostacks = W.ostacks := by unfold Wave.setK; split <;> rfl
@[simp] theorem Wave.setK_depths (W : Wave) (k : KReg) (v : Mask) : (W.setK k v).depths = W.depths := by unfold Wave.setK; split <;> rfl
@[simp] theorem Wave.setK_gens (W : Wave) (k : KReg) (v : Mask) : (W.setK k v).gens = W.gens := by unfold Wave.setK; split <;> rfl
@[simp] theorem Wave.setK_rndseed (W : Wave) (k : KReg) (v : Mask) : (W.setK k v).rndseed = W.rndseed := by unfold Wave.setK; split <;> rfl
@[simp] theorem Wave.setK_slotA (W : Wave) (k : KReg) (v : Mask) : (W.setK k v).slotA = W.slotA := by unfold Wave.setK; split <;> rfl
@[simp] theorem Wave.setK_slotB (W : Wave) (k : KReg) (v : Mask) : (W.setK k v).slotB = W.slotB := by unfold Wave.setK; split <;> rfl
@[simp] theorem Wave.setK_last (W : Wave) (k : KReg) (v : Mask) : (W.setK k v).last = W.last := by unfold Wave.setK; split <;> rfl
@[simp] theorem Wave.setK_liveLanes (W : Wave) (k : KReg) (v : Mask) : (W.setK k v).liveLanes = W.liveLanes := by unfold Wave.setK; split <;> rfl
@[simp] theorem Wave.setK_dsp (W : Wave) (k : KReg) (v : Mask) : (W.setK k v).dsp = W.dsp := by unfold Wave.setK; split <;> rfl
@[simp] theorem Wave.setK_dslim (W : Wave) (k : KReg) (v : Mask) : (W.setK k v).dslim = W.dslim := by unfold Wave.setK; split <;> rfl
@[simp] theorem Wave.setK_entries (W : Wave) (k : KReg) (v : Mask) : (W.setK k v).entries = W.entries := by unfold Wave.setK; split <;> rfl
@[simp] theorem Wave.setK_system (W : Wave) (k : KReg) (v : Mask) : (W.setK k v).system = W.system := by unfold Wave.setK; split <;> rfl
@[simp] theorem Wave.setK_handler (W : Wave) (k : KReg) (v : Mask) : (W.setK k v).handler = W.handler := by unfold Wave.setK; split <;> rfl
@[simp] theorem Wave.setK_trap (W : Wave) (k : KReg) (v : Mask) : (W.setK k v).trap = W.trap := by unfold Wave.setK; split <;> rfl
@[simp] theorem Wave.setK_frozen (W : Wave) (k : KReg) (v : Mask) : (W.setK k v).frozen = W.frozen := by unfold Wave.setK; split <;> rfl
@[simp] theorem Wave.setK_service (W : Wave) (k : KReg) (v : Mask) : (W.setK k v).service = W.service := by unfold Wave.setK; split <;> rfl
@[simp] theorem Wave.setK_heldFault (W : Wave) (k : KReg) (v : Mask) : (W.setK k v).heldFault = W.heldFault := by unfold Wave.setK; split <;> rfl
@[simp] theorem Wave.setK_adopts (W : Wave) (k : KReg) (v : Mask) : (W.setK k v).adopts = W.adopts := by unfold Wave.setK; split <;> rfl
@[simp] theorem Wave.setK_mwtimeo (W : Wave) (k : KReg) (v : Mask) : (W.setK k v).mwtimeo = W.mwtimeo := by unfold Wave.setK; split <;> rfl
@[simp] theorem Wave.setK_capsule (W : Wave) (k : KReg) (v : Mask) : (W.setK k v).capsule = W.capsule := by unfold Wave.setK; split <;> rfl
@[simp] theorem Wave.setK_syncs (W : Wave) (k : KReg) (v : Mask) : (W.setK k v).syncs = W.syncs := by unfold Wave.setK; split <;> rfl
@[simp] theorem Wave.setK_pend (W : Wave) (k : KReg) (v : Mask) : (W.setK k v).pend = W.pend := by unfold Wave.setK; split <;> rfl
@[simp] theorem Wave.setK_gates (W : Wave) (k : KReg) (v : Mask) : (W.setK k v).gates = W.gates := by unfold Wave.setK; split <;> rfl
@[simp] theorem Wave.setVs_resident (W : Wave) (r : Nat) (m : Mask) (g : Nat → W32) : (W.setVs r m g).resident = W.resident := rfl
@[simp] theorem Wave.setV_resident (W : Wave) (r i : Nat) (v : W32) : (W.setV r i v).resident = W.resident := rfl
@[simp] theorem Wave.setVs_sregs (W : Wave) (r : Nat) (m : Mask) (g : Nat → W32) : (W.setVs r m g).sregs = W.sregs := rfl
@[simp] theorem Wave.setV_sregs (W : Wave) (r i : Nat) (v : W32) : (W.setV r i v).sregs = W.sregs := rfl
@[simp] theorem Wave.setVs_kregs (W : Wave) (r : Nat) (m : Mask) (g : Nat → W32) : (W.setVs r m g).kregs = W.kregs := rfl
@[simp] theorem Wave.setV_kregs (W : Wave) (r i : Nat) (v : W32) : (W.setV r i v).kregs = W.kregs := rfl
@[simp] theorem Wave.setVs_ostacks (W : Wave) (r : Nat) (m : Mask) (g : Nat → W32) : (W.setVs r m g).ostacks = W.ostacks := rfl
@[simp] theorem Wave.setV_ostacks (W : Wave) (r i : Nat) (v : W32) : (W.setV r i v).ostacks = W.ostacks := rfl
@[simp] theorem Wave.setVs_depths (W : Wave) (r : Nat) (m : Mask) (g : Nat → W32) : (W.setVs r m g).depths = W.depths := rfl
@[simp] theorem Wave.setV_depths (W : Wave) (r i : Nat) (v : W32) : (W.setV r i v).depths = W.depths := rfl
@[simp] theorem Wave.setVs_gens (W : Wave) (r : Nat) (m : Mask) (g : Nat → W32) : (W.setVs r m g).gens = W.gens := rfl
@[simp] theorem Wave.setV_gens (W : Wave) (r i : Nat) (v : W32) : (W.setV r i v).gens = W.gens := rfl
@[simp] theorem Wave.setVs_rndseed (W : Wave) (r : Nat) (m : Mask) (g : Nat → W32) : (W.setVs r m g).rndseed = W.rndseed := rfl
@[simp] theorem Wave.setV_rndseed (W : Wave) (r i : Nat) (v : W32) : (W.setV r i v).rndseed = W.rndseed := rfl
@[simp] theorem Wave.setVs_slotA (W : Wave) (r : Nat) (m : Mask) (g : Nat → W32) : (W.setVs r m g).slotA = W.slotA := rfl
@[simp] theorem Wave.setV_slotA (W : Wave) (r i : Nat) (v : W32) : (W.setV r i v).slotA = W.slotA := rfl
@[simp] theorem Wave.setVs_slotB (W : Wave) (r : Nat) (m : Mask) (g : Nat → W32) : (W.setVs r m g).slotB = W.slotB := rfl
@[simp] theorem Wave.setV_slotB (W : Wave) (r i : Nat) (v : W32) : (W.setV r i v).slotB = W.slotB := rfl
@[simp] theorem Wave.setVs_last (W : Wave) (r : Nat) (m : Mask) (g : Nat → W32) : (W.setVs r m g).last = W.last := rfl
@[simp] theorem Wave.setV_last (W : Wave) (r i : Nat) (v : W32) : (W.setV r i v).last = W.last := rfl
@[simp] theorem Wave.setVs_liveLanes (W : Wave) (r : Nat) (m : Mask) (g : Nat → W32) : (W.setVs r m g).liveLanes = W.liveLanes := rfl
@[simp] theorem Wave.setV_liveLanes (W : Wave) (r i : Nat) (v : W32) : (W.setV r i v).liveLanes = W.liveLanes := rfl
@[simp] theorem Wave.setVs_dsp (W : Wave) (r : Nat) (m : Mask) (g : Nat → W32) : (W.setVs r m g).dsp = W.dsp := rfl
@[simp] theorem Wave.setV_dsp (W : Wave) (r i : Nat) (v : W32) : (W.setV r i v).dsp = W.dsp := rfl
@[simp] theorem Wave.setVs_dslim (W : Wave) (r : Nat) (m : Mask) (g : Nat → W32) : (W.setVs r m g).dslim = W.dslim := rfl
@[simp] theorem Wave.setV_dslim (W : Wave) (r i : Nat) (v : W32) : (W.setV r i v).dslim = W.dslim := rfl
@[simp] theorem Wave.setVs_entries (W : Wave) (r : Nat) (m : Mask) (g : Nat → W32) : (W.setVs r m g).entries = W.entries := rfl
@[simp] theorem Wave.setV_entries (W : Wave) (r i : Nat) (v : W32) : (W.setV r i v).entries = W.entries := rfl
@[simp] theorem Wave.setVs_system (W : Wave) (r : Nat) (m : Mask) (g : Nat → W32) : (W.setVs r m g).system = W.system := rfl
@[simp] theorem Wave.setV_system (W : Wave) (r i : Nat) (v : W32) : (W.setV r i v).system = W.system := rfl
@[simp] theorem Wave.setVs_handler (W : Wave) (r : Nat) (m : Mask) (g : Nat → W32) : (W.setVs r m g).handler = W.handler := rfl
@[simp] theorem Wave.setV_handler (W : Wave) (r i : Nat) (v : W32) : (W.setV r i v).handler = W.handler := rfl
@[simp] theorem Wave.setVs_trap (W : Wave) (r : Nat) (m : Mask) (g : Nat → W32) : (W.setVs r m g).trap = W.trap := rfl
@[simp] theorem Wave.setV_trap (W : Wave) (r i : Nat) (v : W32) : (W.setV r i v).trap = W.trap := rfl
@[simp] theorem Wave.setVs_frozen (W : Wave) (r : Nat) (m : Mask) (g : Nat → W32) : (W.setVs r m g).frozen = W.frozen := rfl
@[simp] theorem Wave.setV_frozen (W : Wave) (r i : Nat) (v : W32) : (W.setV r i v).frozen = W.frozen := rfl
@[simp] theorem Wave.setVs_service (W : Wave) (r : Nat) (m : Mask) (g : Nat → W32) : (W.setVs r m g).service = W.service := rfl
@[simp] theorem Wave.setV_service (W : Wave) (r i : Nat) (v : W32) : (W.setV r i v).service = W.service := rfl
@[simp] theorem Wave.setVs_heldFault (W : Wave) (r : Nat) (m : Mask) (g : Nat → W32) : (W.setVs r m g).heldFault = W.heldFault := rfl
@[simp] theorem Wave.setV_heldFault (W : Wave) (r i : Nat) (v : W32) : (W.setV r i v).heldFault = W.heldFault := rfl
@[simp] theorem Wave.setVs_adopts (W : Wave) (r : Nat) (m : Mask) (g : Nat → W32) : (W.setVs r m g).adopts = W.adopts := rfl
@[simp] theorem Wave.setV_adopts (W : Wave) (r i : Nat) (v : W32) : (W.setV r i v).adopts = W.adopts := rfl
@[simp] theorem Wave.setVs_mwtimeo (W : Wave) (r : Nat) (m : Mask) (g : Nat → W32) : (W.setVs r m g).mwtimeo = W.mwtimeo := rfl
@[simp] theorem Wave.setV_mwtimeo (W : Wave) (r i : Nat) (v : W32) : (W.setV r i v).mwtimeo = W.mwtimeo := rfl
@[simp] theorem Wave.setVs_capsule (W : Wave) (r : Nat) (m : Mask) (g : Nat → W32) : (W.setVs r m g).capsule = W.capsule := rfl
@[simp] theorem Wave.setV_capsule (W : Wave) (r i : Nat) (v : W32) : (W.setV r i v).capsule = W.capsule := rfl
@[simp] theorem Wave.setVs_syncs (W : Wave) (r : Nat) (m : Mask) (g : Nat → W32) : (W.setVs r m g).syncs = W.syncs := rfl
@[simp] theorem Wave.setV_syncs (W : Wave) (r i : Nat) (v : W32) : (W.setV r i v).syncs = W.syncs := rfl
@[simp] theorem Wave.setVs_pend (W : Wave) (r : Nat) (m : Mask) (g : Nat → W32) : (W.setVs r m g).pend = W.pend := rfl
@[simp] theorem Wave.setV_pend (W : Wave) (r i : Nat) (v : W32) : (W.setV r i v).pend = W.pend := rfl
@[simp] theorem Wave.setVs_gates (W : Wave) (r : Nat) (m : Mask) (g : Nat → W32) : (W.setVs r m g).gates = W.gates := rfl
@[simp] theorem Wave.setV_gates (W : Wave) (r i : Nat) (v : W32) : (W.setV r i v).gates = W.gates := rfl

@[simp] theorem Wave.slot_setS (W : Wave) (r : SReg) (v : Word) (x : SlotId) : (W.setS r v).slot x = W.slot x := by
  cases x <;> simp [Wave.slot]
@[simp] theorem Wave.slot_setK (W : Wave) (k : KReg) (v : Mask) (x : SlotId) : (W.setK k v).slot x = W.slot x := by
  cases x <;> simp [Wave.slot]
@[simp] theorem Wave.slot_setVs (W : Wave) (r : Nat) (m : Mask) (g : Nat → W32) (x : SlotId) :
    (W.setVs r m g).slot x = W.slot x := by cases x <;> rfl

/-- S[r] after a write of S[d]: writes of s0 are discarded, and s0 reads zero (R101). -/
theorem Wave.s_setS (W : Wave) (d : SReg) (v : Word) (r : SReg) :
    (W.setS d v).s r = if r = d ∧ r ≠ 0 then v else W.s r := by
  unfold Wave.setS Wave.s
  by_cases hr : r = 0
  · simp [hr]
  · by_cases hd : d = 0
    · have : ¬ r = d := fun h => hr (h.trans hd)
      simp [hd]
    · simp only [hr, hd, if_false, SMap.get_set, ne_eq, not_false_eq_true, and_true]
      simp only [← BitVec.toNat_inj]
/-- K[k] after a write of K[d]: k0 is no register (R89). -/
theorem Wave.k_setK (W : Wave) (d : KReg) (v : Mask) (k : KReg) :
    (W.setK d v).k k = if k = d ∧ k ≠ 0 then v else W.k k := by
  unfold Wave.setK Wave.k
  by_cases hr : k = 0
  · simp [hr]
  · by_cases hd : d = 0
    · have : ¬ k = d := fun h => hr (h.trans hd)
      simp [hd]
    · simp only [hr, hd, if_false, SMap.get_set, ne_eq, not_false_eq_true, and_true]
      simp only [← BitVec.toNat_inj]
/-- V[r][i] after a masked write of V[d]. -/
theorem Wave.v_setVs (W : Wave) (d : Nat) (m : Mask) (g : Nat → W32) (r i : Nat) (hi : i < 128) :
    (W.setVs d m g).v r i = if r = d ∧ m.getLsbD i then g i else W.v r i := by
  simp only [Wave.setVs, Wave.v, SMap.get_setLanes]
  by_cases hr : r = d
  · subst hr
    have h1 : 128 * r + i - 128 * r = i := by omega
    have h2 : 128 * r ≤ 128 * r + i := by omega
    simp [h1, h2, hi]
  · have : ¬ (128 * d ≤ 128 * r + i ∧ 128 * r + i < 128 * d + 128 ∧ m.getLsbD (128 * r + i - 128 * d) = true) := by
      rintro ⟨h1, h2, -⟩; omega
    simp [this, hr]
theorem Wave.v_setV (W : Wave) (d j : Nat) (v : W32) (r i : Nat) (hi : i < 128) (hj : j < 128) :
    (W.setV d j v).v r i = if r = d ∧ i = j then v else W.v r i := by
  simp only [Wave.setV, Wave.v, SMap.get_set]
  have : 128 * r + i = 128 * d + j ↔ r = d ∧ i = j := by omega
  simp [this]

@[simp] theorem Wave.setSlot_at_s (W : Wave) (x : SlotId) (t : Slot) (r' : SReg) : (W.setSlot x t).s r' = W.s r' := by cases x <;> rfl
@[simp] theorem Wave.setK_at_s (W : Wave) (d : KReg) (u : Mask) (r' : SReg) : (W.setK d u).s r' = W.s r' := by simp [Wave.s]
@[simp] theorem Wave.setVs_at_s (W : Wave) (d : Nat) (m : Mask) (g : Nat → W32) (r' : SReg) : (W.setVs d m g).s r' = W.s r' := rfl
@[simp] theorem Wave.setV_at_s (W : Wave) (d j : Nat) (u : W32) (r' : SReg) : (W.setV d j u).s r' = W.s r' := rfl
@[simp] theorem Wave.setSlot_at_k (W : Wave) (x : SlotId) (t : Slot) (k' : KReg) : (W.setSlot x t).k k' = W.k k' := by cases x <;> rfl
@[simp] theorem Wave.setS_at_k (W : Wave) (d : SReg) (u : Word) (k' : KReg) : (W.setS d u).k k' = W.k k' := by simp [Wave.k]
@[simp] theorem Wave.setVs_at_k (W : Wave) (d : Nat) (m : Mask) (g : Nat → W32) (k' : KReg) : (W.setVs d m g).k k' = W.k k' := rfl
@[simp] theorem Wave.setV_at_k (W : Wave) (d j : Nat) (u : W32) (k' : KReg) : (W.setV d j u).k k' = W.k k' := rfl
@[simp] theorem Wave.setSlot_at_v (W : Wave) (x : SlotId) (t : Slot) (r i : Nat) : (W.setSlot x t).v r i = W.v r i := by cases x <;> rfl
@[simp] theorem Wave.setS_at_v (W : Wave) (d : SReg) (u : Word) (r i : Nat) : (W.setS d u).v r i = W.v r i := by simp [Wave.v]
@[simp] theorem Wave.setK_at_v (W : Wave) (d : KReg) (u : Mask) (r i : Nat) : (W.setK d u).v r i = W.v r i := by simp [Wave.v]
@[simp] theorem Wave.setSlot_at_depth (W : Wave) (x : SlotId) (t : Slot) (i : Nat) : (W.setSlot x t).depth i = W.depth i := by cases x <;> rfl
@[simp] theorem Wave.setS_at_depth (W : Wave) (d : SReg) (u : Word) (i : Nat) : (W.setS d u).depth i = W.depth i := by simp [Wave.depth]
@[simp] theorem Wave.setK_at_depth (W : Wave) (d : KReg) (u : Mask) (i : Nat) : (W.setK d u).depth i = W.depth i := by simp [Wave.depth]
@[simp] theorem Wave.setVs_at_depth (W : Wave) (d : Nat) (m : Mask) (g : Nat → W32) (i : Nat) : (W.setVs d m g).depth i = W.depth i := rfl
@[simp] theorem Wave.setV_at_depth (W : Wave) (d j : Nat) (u : W32) (i : Nat) : (W.setV d j u).depth i = W.depth i := rfl
@[simp] theorem Wave.setSlot_at_entry (W : Wave) (x : SlotId) (t : Slot) (i e : Nat) : (W.setSlot x t).entry i e = W.entry i e := by cases x <;> rfl
@[simp] theorem Wave.setS_at_entry (W : Wave) (d : SReg) (u : Word) (i e : Nat) : (W.setS d u).entry i e = W.entry i e := by simp [Wave.entry]
@[simp] theorem Wave.setK_at_entry (W : Wave) (d : KReg) (u : Mask) (i e : Nat) : (W.setK d u).entry i e = W.entry i e := by simp [Wave.entry]
@[simp] theorem Wave.setVs_at_entry (W : Wave) (d : Nat) (m : Mask) (g : Nat → W32) (i e : Nat) : (W.setVs d m g).entry i e = W.entry i e := rfl
@[simp] theorem Wave.setV_at_entry (W : Wave) (d j : Nat) (u : W32) (i e : Nat) : (W.setV d j u).entry i e = W.entry i e := rfl

theorem State.cs_def (s : State) : s.cs = s.cw.slot s.cur.2 := rfl
@[simp] theorem State.cw_setCs (s : State) (t : Slot) : (s.setCs t).cw = s.cw.setSlot s.cur.2 t := by simp [State.setCs]
@[simp] theorem State.cs_setCs (s : State) (t : Slot) : (s.setCs t).cs = t := by simp [State.cs]
@[simp] theorem State.cs_setCw (s : State) (W : Wave) : (s.setCw W).cs = W.slot s.cur.2 := by simp [State.cs]
@[simp] theorem State.cw_setS (s : State) (r : SReg) (v : Word) : (s.setS r v).cw = s.cw.setS r v := by simp [State.setS]
@[simp] theorem State.cs_setS (s : State) (r : SReg) (v : Word) : (s.setS r v).cs = s.cs := by simp [State.cs]
@[simp] theorem State.cw_setK (s : State) (k : KReg) (v : Mask) : (s.setK k v).cw = s.cw.setK k v := by simp [State.setK]
@[simp] theorem State.cs_setK (s : State) (k : KReg) (v : Mask) : (s.setK k v).cs = s.cs := by simp [State.cs]
@[simp] theorem State.cw_advance (s : State) (n : Nat) : (s.advance n).cw = s.cw.setSlot s.cur.2 (s.cs.advance n) := by
  simp [State.advance]
@[simp] theorem State.cs_advance (s : State) (n : Nat) : (s.advance n).cs = s.cs.advance n := by simp [State.advance]
@[simp] theorem State.cs_jump (s : State) (a : Word) :
    (s.jump a).cs = { s.cs with pc := a, chain := none, xvres := none } := by simp [State.jump]
@[simp] theorem State.cw_jump (s : State) (a : Word) :
    (s.jump a).cw = s.cw.setSlot s.cur.2 { s.cs with pc := a, chain := none, xvres := none } := by simp [State.jump]

@[simp] theorem State.setCs_at_wave (s : State) (t : Slot) (w : Nat) (h : w ≠ s.cur.1) : (s.setCs t).wave w = s.wave w := by simp [State.setCs, h]
@[simp] theorem State.setS_at_wave (s : State) (r : SReg) (v : Word) (w : Nat) (h : w ≠ s.cur.1) : (s.setS r v).wave w = s.wave w := by simp [State.setS, h]
@[simp] theorem State.setK_at_wave (s : State) (k : KReg) (v : Mask) (w : Nat) (h : w ≠ s.cur.1) : (s.setK k v).wave w = s.wave w := by simp [State.setK, h]
@[simp] theorem State.advance_at_wave (s : State) (n : Nat) (w : Nat) (h : w ≠ s.cur.1) : (s.advance n).wave w = s.wave w := by simp [State.advance, State.setCs, h]
@[simp] theorem State.jump_at_wave (s : State) (a : Word) (w : Nat) (h : w ≠ s.cur.1) : (s.jump a).wave w = s.wave w := by simp [State.jump, State.setCs, h]

/-- S[r] and K[k] of the issuing wave after a write. -/
theorem State.S_setS (s : State) (d : SReg) (v : Word) (r : SReg) :
    (s.setS d v).S r = if r = d ∧ r ≠ 0 then v else s.S r := by simp [State.S, Wave.s_setS]
theorem State.K_setK (s : State) (d : KReg) (v : Mask) (k : KReg) :
    (s.setK d v).K k = if k = d ∧ k ≠ 0 then v else s.K k := by simp [State.K, Wave.k_setK]

end Sys2Proof.Machine
end

