-- ==== Sys2Proof/Laws/Issue.lean ====
section
/-! SUPPORT. Laws/Issue.lean: what the checks before an instruction come to, and what the bookkeeping around its effect
changes. -/
namespace Sys2Proof.Machine

/-! ### Event counts -/

/-- Counting changes one core's counters, or nothing where no event is selected. -/
theorem State.countEvent_cases (s : State) (c ev : Nat) (sys : Option Bool) :
    s.countEvent c ev sys = s ∨
      ((s.core c).evsel ≠ [] ∧ ∃ m, s.countEvent c ev sys = s.setCore c { s.core c with evcnt := m }) := by
  by_cases h : (s.core c).evsel = []
  · exact .inl (by unfold State.countEvent; simp [h])
  · exact .inr ⟨h, _, by unfold State.countEvent; simp only [h, if_false]; rfl⟩

/-- A step that changes nothing but counters of the issuing core and the note of stages. -/
structure Counts (s t : State) : Prop where
  rest : t = { s with cores := t.cores, stages := t.stages }
  own : t.core (coreOf s.cur.1) = { s.core (coreOf s.cur.1) with evcnt := (t.core (coreOf s.cur.1)).evcnt }
  others : ∀ c, c ≠ coreOf s.cur.1 → t.core c = s.core c
  quiet : (s.core (coreOf s.cur.1)).evsel = [] → ∀ c, t.core c = s.core c

theorem Counts.refl (s : State) : Counts s s := ⟨rfl, rfl, fun _ _ => rfl, fun _ _ => rfl⟩

theorem Counts.cur {s t : State} (h : Counts s t) : t.cur = s.cur := by rw [h.rest]
theorem Counts.wave {s t : State} (h : Counts s t) (w : Nat) : t.wave w = s.wave w := by rw [h.rest]; rfl
theorem Counts.cw {s t : State} (h : Counts s t) : t.cw = s.cw := by rw [h.rest]; rfl
theorem Counts.cs {s t : State} (h : Counts s t) : t.cs = s.cs := by rw [h.rest]; rfl
theorem Counts.S {s t : State} (h : Counts s t) (r : SReg) : t.S r = s.S r := by rw [h.rest]; rfl
theorem Counts.K {s t : State} (h : Counts s t) (k : KReg) : t.K k = s.K k := by rw [h.rest]; rfl
theorem Counts.bank {s t : State} (h : Counts s t) (b : Nat) : t.bank b = s.bank b := by rw [h.rest]; rfl

theorem Counts.evsel {s t : State} (h : Counts s t) : (t.core (coreOf s.cur.1)).evsel = (s.core (coreOf s.cur.1)).evsel := by
  rw [h.own]

theorem Counts.trans {s t u : State} (h : Counts s t) (k : Counts t u) : Counts s u := by
  have hc := h.cur
  refine ⟨?_, ?_, ?_, ?_⟩
  · rw [k.rest, h.rest]
  · have := k.own; rw [hc] at this; rw [this, h.own]
  · intro c hn; rw [k.others c (by rw [hc]; exact hn), h.others c hn]
  · intro hq c
    rw [k.quiet (by rw [hc, h.evsel]; exact hq) c, h.quiet hq c]

theorem Counts.countEvent (s : State) (ev : Nat) (sys : Option Bool) : Counts s (s.countEvent (coreOf s.cur.1) ev sys) := by
  rcases s.countEvent_cases (coreOf s.cur.1) ev sys with h | ⟨hq, m, h⟩
  · rw [h]; exact Counts.refl s
  · rw [h]
    refine ⟨rfl, by simp, fun c hc => by simp [hc], fun h => absurd h hq⟩

theorem Counts.stages (s : State) (l : List StageEntry) : Counts s { s with stages := l } :=
  ⟨rfl, rfl, fun _ _ => rfl, fun _ _ => rfl⟩

theorem Counts.count {s t : State} (h : Counts s t) (ev : Nat) (sys : Option Bool) :
    Counts s (t.countEvent (coreOf s.cur.1) ev sys) := by
  have := h.trans (Counts.countEvent t ev sys)
  rwa [h.cur] at this

/-- Entering changes counters and the note of stages alone. -/
theorem State.enter_counts (s : State) (f : Info) (p : Pipe) : Counts s (s.enter f p) := by
  unfold State.enter
  dsimp only
  have h2 := (Counts.stages s (f.stages.map fun n => { core := coreOf s.cur.1, stage := if n = 2 then p.stage else n, pc := s.cs.pc })).count 2
    (some s.cw.system)
  generalize State.countEvent _ (coreOf s.cur.1) 2 (some s.cw.system) = u at h2
  cases f.vector <;> cases f.memory
  · exact h2
  · exact h2.count 6 (some s.cw.system)
  · exact h2.count 3 (some s.cw.system)
  · exact (h2.count 3 (some s.cw.system)).count 6 (some s.cw.system)

theorem State.gated_counts (s : State) : Counts s s.gated := Counts.countEvent s 9 _

@[simp] theorem State.enter_cur (s : State) (f : Info) (p : Pipe) : (s.enter f p).cur = s.cur := (s.enter_counts f p).cur
@[simp] theorem State.enter_cw (s : State) (f : Info) (p : Pipe) : (s.enter f p).cw = s.cw := (s.enter_counts f p).cw
@[simp] theorem State.enter_cs (s : State) (f : Info) (p : Pipe) : (s.enter f p).cs = s.cs := (s.enter_counts f p).cs
@[simp] theorem State.enter_S (s : State) (f : Info) (p : Pipe) (r : SReg) : (s.enter f p).S r = s.S r := (s.enter_counts f p).S r
@[simp] theorem State.enter_K (s : State) (f : Info) (p : Pipe) (k : KReg) : (s.enter f p).K k = s.K k := (s.enter_counts f p).K k
@[simp] theorem State.enter_pmem (s : State) (f : Info) (p : Pipe) : (s.enter f p).pmem = s.pmem := by rw [(s.enter_counts f p).rest]
@[simp] theorem State.enter_wave (s : State) (f : Info) (p : Pipe) (w : Nat) : (s.enter f p).wave w = s.wave w := (s.enter_counts f p).wave w
@[simp] theorem State.enter_bank (s : State) (f : Info) (p : Pipe) (b : Nat) : (s.enter f p).bank b = s.bank b := (s.enter_counts f p).bank b
@[simp] theorem State.gated_cur (s : State) : s.gated.cur = s.cur := s.gated_counts.cur
@[simp] theorem State.gated_cw (s : State) : s.gated.cw = s.cw := s.gated_counts.cw
@[simp] theorem State.gated_cs (s : State) : s.gated.cs = s.cs := s.gated_counts.cs
@[simp] theorem State.gated_bank (s : State) (b : Nat) : s.gated.bank b = s.bank b := s.gated_counts.bank b

/-- After counting, an update of the issuing wave leaves everything else alone. -/
theorem Counts.onlyWave {s u t : State} (h : Counts s u) (hr : t = { u with waves := t.waves })
    (hw : ∀ w, w ≠ s.cur.1 → t.wave w = u.wave w) : OnlyWave s t := by
  refine ⟨?_, ?_, ?_, ?_, ?_, ?_⟩
  · rw [hr, h.rest]
  · intro w hn; rw [hw w hn, h.wave]
  · rw [hr]; exact h.own
  · intro c hc; rw [hr]; exact h.others c hc
  · intro hq c; rw [hr]; exact h.quiet hq c
  · intro a; rw [hr, h.rest]; rfl

/-! ### The checks -/

theorem State.unlimited_limited {s : State} (h : s.unlimited) : s.cw.limited = false := by
  unfold Wave.limited
  rcases h with h | h <;> simp [h]

/-- What the checks of an instruction answer: PRIV, FMASK, a capsule limit, or its own effect on a state that differs by
counts alone. -/
theorem issueS_unlimited (s : State) (f : Info) (k : State → State) (hl : f.sLevel = true → s.cw.system = true)
    (hf : s.masked f.feat = false) (hu : s.unlimited) : issueS s f k = k (s.enter f (s.pipe false)) := by
  unfold issueS
  have h1 : (f.sLevel && !s.cw.system) = false := by
    cases h : f.sLevel <;> simp_all
  simp [h1, hf, underCapsule, State.unlimited_limited hu]

theorem State.masked_none (s : State) : s.masked none = false := rfl

theorem capRegs_of {l : List SReg} (h : ∀ r ∈ l, r = 0 ∨ (48 ≤ r.toNat ∧ r.toNat ≤ 55)) : capRegs l = true := by
  unfold capRegs
  rw [List.all_eq_true]
  intro r hr
  rcases h r hr with h | ⟨h1, h2⟩
  · simp [h]
  · simp [h1, h2]

/-- An instruction that a capsule body may hold, where the limits allow it. -/
theorem issueS_allowed (s : State) (f : Info) (k : State → State) (l : List SReg) (hs : f.sLevel = false)
    (hf : s.masked f.feat = false) (hc : f.cap = some l) (hn : f.selfCount = false) (ha : s.allows l) :
    (s.unlimited ∧ issueS s f k = k (s.enter f (s.pipe false))) ∨
      (s.cw.limited = true ∧ issueS s f k = k (s.enter f (s.pipe false)).countStep) := by
  rcases ha with hu | ⟨c, hcap, hlt, hr⟩
  · exact .inl ⟨hu, issueS_unlimited s f k (by simp [hs]) hf hu⟩
  · by_cases hh : s.cw.handler
    · exact .inl ⟨.inr hh, issueS_unlimited s f k (by simp [hs]) hf (.inr hh)⟩
    · refine .inr ⟨by simp [Wave.limited, hcap, hh], ?_⟩
      have hlim : (s.enter f (s.pipe false)).cw.limited = true := by simp [Wave.limited, hcap, hh]
      unfold issueS underCapsule
      have h64 : ¬ 64 ≤ c.instrs := by omega
      simp only [hs, hf, hlim, hc, capRegs_of hr, hn, if_true, Bool.false_and, if_false, Bool.not_true,
        Bool.false_eq_true]
      simp [hcap, h64]

/-! ### Where the effect begins -/

theorem Started.cs {s u : State} (h : Started s u) : u.cs = s.cs := by
  unfold State.cs; rw [h.cw, h.cur]; cases s.cur.2 <;> rfl
theorem Started.S {s u : State} (h : Started s u) (r : SReg) : u.S r = s.S r := by unfold State.S; rw [h.cw]; rfl
theorem Started.K {s u : State} (h : Started s u) (k : KReg) : u.K k = s.K k := by unfold State.K; rw [h.cw]; rfl
theorem Started.v {s u : State} (h : Started s u) (r i : Nat) : u.cw.v r i = s.cw.v r i := by rw [h.cw]; rfl
theorem Started.active {s u : State} (h : Started s u) (k : KReg) : u.active k = s.active k := by
  unfold State.active; rw [h.cs, h.K]
theorem Started.bank {s u : State} (h : Started s u) (b : Nat) : u.bank b = s.bank b := by rw [h.only.rest]; rfl

theorem stepCounted_unlimited {s : State} (h : s.unlimited) : stepCounted s.cw = s.cw.capsule := by
  unfold stepCounted
  rcases h with h | h
  · rw [h]
  · cases s.cw.capsule <;> simp [h]

theorem Counts.started {s u : State} (h : Counts s u) (hu : s.unlimited) : Started s u := by
  refine ⟨h.onlyWave rfl (fun _ _ => rfl), h.cur, ?_⟩
  rw [h.cw, stepCounted_unlimited hu]

theorem Counts.startedStep {s u : State} (h : Counts s u) (hl : s.cw.limited = true) : Started s u.countStep := by
  unfold Wave.limited at hl
  cases hc : s.cw.capsule with
  | none => simp [hc] at hl
  | some c =>
    have hh : s.cw.handler = false := by simpa [hc] using hl
    have he : u.countStep = u.setCw { s.cw with capsule := some { c with instrs := c.instrs + 1 } } := by
      unfold State.countStep; rw [h.cw, hc]
    refine ⟨?_, by rw [he]; exact h.cur, ?_⟩
    · rw [he]; exact h.onlyWave rfl (fun w hw => by simp [h.cur, hw])
    · rw [he]; simp [stepCounted, hc, hh]

/-- An instruction without a level or feature of its own, outside the capsule limits: its effect runs. -/
theorem issue_unlimited (s : State) (f : Info) (k : State → State) (hl : f.sLevel = true → s.cw.system = true)
    (hf : s.masked f.feat = false) (hu : s.unlimited) :
    ∃ u, Counts s u ∧ Started s u ∧ issue s f k = .next (k u) :=
  ⟨s.enter f (s.pipe false), s.enter_counts f _, (s.enter_counts f _).started hu, by
    unfold issue; rw [issueS_unlimited s f k hl hf hu]⟩

/-- An instruction that a capsule body may hold, where the limits allow it: its effect runs. -/
theorem issue_allowed (s : State) (f : Info) (k : State → State) (l : List SReg) (hs : f.sLevel = false)
    (hf : s.masked f.feat = false) (hc : f.cap = some l) (hn : f.selfCount = false) (ha : s.allows l) :
    ∃ u, Started s u ∧ issue s f k = .next (k u) := by
  rcases issueS_allowed s f k l hs hf hc hn ha with ⟨hu, h⟩ | ⟨hl, h⟩
  · exact ⟨_, (s.enter_counts f _).started hu, by unfold issue; rw [h]⟩
  · exact ⟨_, (s.enter_counts f _).startedStep hl, by unfold issue; rw [h]⟩

theorem Started.onlyWave {s u t : State} (h : Started s u) (hr : t = { u with waves := t.waves })
    (hw : ∀ w, w ≠ s.cur.1 → t.wave w = u.wave w) : OnlyWave s t := by
  refine ⟨?_, ?_, ?_, ?_, ?_, ?_⟩
  · rw [hr, h.only.rest]
  · intro w hn; rw [hw w hn, h.only.waves w hn]
  · rw [hr]; exact h.only.ownCore
  · intro c hc; rw [hr]; exact h.only.otherCores c hc
  · intro hq c; rw [hr]; exact h.only.uncounted hq c
  · intro a; rw [hr]; exact h.only.byte a

/-- What an update of the issuing wave comes to. -/
theorem Started.goesOn {s u t : State} (h : Started s u) (W : Wave) (ht : t = { u with waves := t.waves }) (hcw : t.cw = W)
    (hw : ∀ w, w ≠ u.cur.1 → t.wave w = u.wave w) {S : SReg → Word} {K : KReg → Mask}
    {V : Nat → Nat → W32} {slot : Slot} (hS : ∀ r, W.s r = S r) (hK : ∀ k, W.k k = K k)
    (hV : ∀ r i, i < 128 → W.v r i = V r i) (hs : W.slot s.cur.2 = slot)
    (ho : W.slot (otherSlot s.cur.2) = s.cw.slot (otherSlot s.cur.2))
    (hr : W = { s.cw with sregs := W.sregs, kregs := W.kregs, vregs := W.vregs, slotA := W.slotA, slotB := W.slotB
                          capsule := stepCounted s.cw }) :
    GoesOn s t S K V slot := by
  have hcur : t.cur = s.cur := by rw [ht]; exact h.cur
  refine ⟨h.onlyWave ht (fun w hn => hw w (by rw [h.cur]; exact hn)), ?_, ?_, ?_, ?_, ?_, ?_⟩
  · intro r; unfold State.S; rw [hcw]; exact hS r
  · intro k; unfold State.K; rw [hcw]; exact hK k
  · rw [hcw]; exact hV
  · unfold State.cs; rw [hcw, hcur]; exact hs
  · rw [hcw]; exact ho
  · rw [hcw]; exact hr

/-- A new issuing wave that differs from the old one in registers and in its slot. -/
theorem Started.goesOnSlot {s u t : State} (h : Started s u) (W : Wave) (slot : Slot)
    (ht : t = { u with waves := t.waves }) (hcw : t.cw = W.setSlot u.cur.2 slot)
    (hw : ∀ w, w ≠ u.cur.1 → t.wave w = u.wave w) {S : SReg → Word} {K : KReg → Mask}
    {V : Nat → Nat → W32} (hS : ∀ r, W.s r = S r) (hK : ∀ k, W.k k = K k)
    (hV : ∀ r i, i < 128 → W.v r i = V r i)
    (hr : W = { s.cw with sregs := W.sregs, kregs := W.kregs, vregs := W.vregs, capsule := stepCounted s.cw }) :
    GoesOn s t S K V slot := by
  refine h.goesOn (W.setSlot u.cur.2 slot) ht hcw hw (by simpa using hS) (by simpa using hK) (by simpa using hV) ?_ ?_ ?_
  · rw [h.cur]; simp
  · rw [h.cur]; simp only [Wave.slot_setSlot_other]; rw [hr]; cases s.cur.2 <;> rfl
  · rw [hr]; cases u.cur.2 <;> rfl

/-- S[d] := v, and on to the next instruction. -/
theorem Started.setS_advance {s u : State} (h : Started s u) (d : SReg) (v : Word) (n : Nat) :
    GoesOn s ((u.setS d v).advance n) (s.withS d v) s.K s.cw.v (s.slotAt (s.after n)) := by
  apply h.goesOnSlot (u.cw.setS d v) _ rfl
  · simp [h.cs, Slot.advance, State.slotAt, State.after]
  · exact fun w hw => (State.advance_at_wave (u.setS d v) n w hw).trans (State.setS_at_wave u d v w hw)
  · intro r; rw [Wave.s_setS, h.cw]; rfl
  · intro k; simp only [Wave.setS_at_k, h.cw]; rfl
  · intro r i _; simp only [Wave.setS_at_v, h.cw]; rfl
  · rw [h.cw]; unfold Wave.setS; split <;> rfl

/-- K[d] := v, and on to the next instruction. -/
theorem Started.setK_advance {s u : State} (h : Started s u) (d : KReg) (v : Mask) (n : Nat) :
    GoesOn s ((u.setK d v).advance n) s.S (s.withK d v) s.cw.v (s.slotAt (s.after n)) := by
  apply h.goesOnSlot (u.cw.setK d v) _ rfl
  · simp [h.cs, Slot.advance, State.slotAt, State.after]
  · exact fun w hw => (State.advance_at_wave (u.setK d v) n w hw).trans (State.setK_at_wave u d v w hw)
  · intro r; simp only [Wave.setK_at_s, h.cw]; rfl
  · intro k; rw [Wave.k_setK, h.cw]; rfl
  · intro r i _; simp only [Wave.setK_at_v, h.cw]; rfl
  · rw [h.cw]; unfold Wave.setK; split <;> rfl

/-- The slot goes on at an address. -/
theorem Started.jump {s u : State} (h : Started s u) (a : Word) :
    GoesOn s (u.jump a) s.S s.K s.cw.v (s.slotAt a) := by
  apply h.goesOnSlot u.cw _ rfl
  · simp [h.cs, State.slotAt]
  · intro w hw; simp [hw]
  · intro r; rw [h.cw]; rfl
  · intro k; rw [h.cw]; rfl
  · intro r i _; rw [h.cw]; rfl
  · rw [h.cw]

theorem Started.advance {s u : State} (h : Started s u) (n : Nat) :
    GoesOn s (u.advance n) s.S s.K s.cw.v (s.slotAt (s.after n)) := by
  have e : u.advance n = u.jump (u.cs.pc + BitVec.ofNat 64 n) := rfl
  rw [e, h.cs]; exact h.jump _

/-- S[d] := v, and on at an address. -/
theorem Started.setS_jump {s u : State} (h : Started s u) (d : SReg) (v : Word) (a : Word) :
    GoesOn s ((u.setS d v).jump a) (s.withS d v) s.K s.cw.v (s.slotAt a) := by
  apply h.goesOnSlot (u.cw.setS d v) _ rfl
  · simp [h.cs, State.slotAt]
  · exact fun w hw => (State.jump_at_wave (u.setS d v) a w hw).trans (State.setS_at_wave u d v w hw)
  · intro r; rw [Wave.s_setS, h.cw]; rfl
  · intro k; simp only [Wave.setS_at_k, h.cw]; rfl
  · intro r i _; simp only [Wave.setS_at_v, h.cw]; rfl
  · rw [h.cw]; unfold Wave.setS; split <;> rfl

theorem State.countStep_of_none {s : State} (h : s.cw.capsule = none) : s.countStep = s := by
  unfold State.countStep; rw [h]

end Sys2Proof.Machine
end

