-- ==== Sys2Proof/Laws/Memory.lean ====
section
/-! SUPPORT. Laws/Memory.lean: what a write to memory changes, byte by byte; that every write keeps the canonical form; and
what the resolution of an address can answer. -/
namespace Sys2Proof.Machine

/-! ### Bytes and values -/

@[simp] theorem leBytes_length (n v : Nat) : (leBytes n v).length = n := by
  induction n generalizing v with
  | zero => rfl
  | succ n ih => simp [leBytes, ih]

/-- The bytes of a value read back as the value, cut to their number. -/
theorem leValue_leBytes (n v : Nat) : leValue (leBytes n v) = v % 256 ^ n := by
  induction n generalizing v with
  | zero => simp [leBytes, leValue, Nat.mod_one]
  | succ n ih =>
    simp only [leBytes, leValue, ih, BitVec.toNat_ofNat]
    rw [show 256 ^ (n + 1) = 256 * 256 ^ n from Nat.pow_succ', Nat.mod_mul]

/-- Reading a key after a list of values has been written from `a` on. -/
theorem SMap.get_foldl_zipIdx {α : Type} [DecidableEq α] (d : Nat → α) (a : Nat) (bs : List α) :
    ∀ (i : Nat) (m : SMap α) (j : Nat), SMap.get d ((bs.zipIdx i).foldl (fun m e => SMap.set d m (a + e.2) e.1) m) j =
      if a + i ≤ j ∧ j < a + i + bs.length then bs.getD (j - (a + i)) (d j) else SMap.get d m j := by
  induction bs with
  | nil => intro i m j; rw [if_neg (by rintro ⟨h1, h2⟩; rw [List.length_nil] at h2; omega)]; rfl
  | cons b bs ih =>
    intro i m j
    rw [List.zipIdx_cons, List.foldl_cons, ih, SMap.get_set]
    by_cases h1 : j = a + i
    · subst h1
      rw [if_neg (by omega), if_pos rfl, if_pos (by simp), Nat.sub_self]
      rfl
    · by_cases h2 : a + i ≤ j ∧ j < a + i + (bs.length + 1)
      · have h3 : j - (a + i) = (j - (a + (i + 1))) + 1 := by omega
        simp only [h1, if_false, List.length_cons, h2, h3]
        rw [if_pos (by omega), if_pos (by simp), List.getD_cons_succ]
      · simp only [h1, if_false, List.length_cons, if_neg h2]
        rw [if_neg (by omega)]

/-- The bytes written read back, and every other byte stays. -/
theorem State.byte_pokeBytes (s : State) (a : Nat) (bs : List Byte) (j : Nat) :
    (s.pokeBytes a bs).byte j = if a ≤ j ∧ j < a + bs.length then bs.getD (j - a) 0 else s.byte j := by
  have h := SMap.get_foldl_zipIdx (α := Byte) zeros a bs 0 s.pmem j
  rw [Nat.add_zero] at h
  exact h
theorem State.byte_storeBytes (s : State) (a : Nat) (bs : List Byte) (j : Nat) :
    (s.storeBytes a bs).byte j = if a ≤ j ∧ j < a + bs.length then bs.getD (j - a) 0 else s.byte j := by
  have h := SMap.get_foldl_zipIdx (α := Byte) zeros a bs 0 s.pmem j
  rw [Nat.add_zero] at h
  exact h

/-- A value written reads back. -/
theorem State.readPhys_poke (s : State) (a n v : Nat) : (s.poke a n v).readPhys a n = v % 256 ^ n := by
  unfold State.readPhys State.poke
  rw [← leValue_leBytes]
  congr 1
  apply List.ext_getElem (by simp)
  intro i h1 h2
  simp only [List.length_map, List.length_range] at h1
  simp [State.byte_pokeBytes, h1]

/-- The other fields of the state that a write leaves alone. -/
theorem State.pokeBytes_rest (s : State) (a : Nat) (bs : List Byte) :
    s.pokeBytes a bs =
      { s with
        plain := (s.pokeBytes a bs).plain, waiters := (s.pokeBytes a bs).waiters, pmem := (s.pokeBytes a bs).pmem
        poison := (s.pokeBytes a bs).poison } := rfl

/-! ### The canonical form -/

theorem State.memoryOk_of_pmem {s t : State} (h : t.pmem = s.pmem) (hs : s.memoryOk) : t.memoryOk := by
  unfold State.memoryOk; rw [h]; exact hs
theorem State.memoryOk_pokeBytes {s : State} (a : Nat) (bs : List Byte) (h : s.memoryOk) : (s.pokeBytes a bs).memoryOk :=
  SMap.wf_foldl_set zeros (fun e : Byte × Nat => a + e.2) (fun e => e.1) _ h
theorem State.memoryOk_poke {s : State} (a n v : Nat) (h : s.memoryOk) : (s.poke a n v).memoryOk :=
  State.memoryOk_pokeBytes a _ h
theorem State.memoryOk_storeBytes {s : State} (a : Nat) (bs : List Byte) (h : s.memoryOk) : (s.storeBytes a bs).memoryOk :=
  SMap.wf_foldl_set zeros (fun e : Byte × Nat => a + e.2) (fun e => e.1) _ h

theorem State.setRegBits_pmem (s : State) (off lo n v : Nat) : (s.setRegBits off lo n v).pmem = s.pmem := rfl

theorem State.snapshot_pmem (s : State) (key a : Nat) : (s.snapshot key a).pmem = s.pmem := by
  unfold State.snapshot
  cases s.launchOf key with
  | none => rfl
  | some l =>
    dsimp only
    repeat' split
    all_goals first | rw [State.setLaunch_pmem, State.setRegBits_pmem] | rfl

theorem State.foldl_markPoison_pmem (l : List Nat) (a : Nat) :
    ∀ s : State, (l.foldl (fun (t : State) o => t.markPoison (a + o) 1) s).pmem = s.pmem := by
  induction l with
  | nil => intro s; rfl
  | cons x l ih => intro s; exact ih _

theorem State.memoryOk_restorePage {s : State} (e : Snap) (h : s.memoryOk) : (s.restorePage e).memoryOk := by
  unfold State.memoryOk State.restorePage
  dsimp only
  split
  · exact h
  · rw [State.foldl_markPoison_pmem]
    exact Memory.wf_unslice e.page 4096 e.bytes h

/-- A die that observes writes changes the clocks and the writes on their way alone (R225). -/
theorem State.observeIf_rest (s : State) (d : Nat) (p : Crossing → Bool) :
    s.observeIf d p = { s with clocks := (s.observeIf d p).clocks, crossing := (s.observeIf d p).crossing } := by
  rfl

/-- A fold of steps that change the window's registers alone changes them alone. -/
theorem State.foldl_win {α : Type} (f : State → α → State) (hf : ∀ s e, f s e = { s with win := (f s e).win }) (l : List α) :
    ∀ s : State, l.foldl f s = { s with win := (l.foldl f s).win } := by
  induction l with
  | nil => intro s; rfl
  | cons e l ih => intro s; rw [List.foldl_cons, ih, hf]
/-- A die's event counters are registers of the window. -/
theorem State.countDie_rest (s : State) (d ev : Nat) (sys : Option Bool) :
    s.countDie d ev sys = { s with win := (s.countDie d ev sys).win } :=
  State.foldl_win _ (fun _ _ => by split <;> rfl) _ s

/-- A write that leaves a die changes the clocks, the writes on their way and the event counters alone (R225, R269). -/
theorem State.crossFrom_rest (s : State) (src a : Nat) (sys : Option Bool) :
    s.crossFrom src a sys = { s with
      clocks := (s.crossFrom src a sys).clocks, crossing := (s.crossFrom src a sys).crossing, win := (s.crossFrom src a sys).win } := by
  unfold State.crossFrom
  dsimp only
  rw [State.observe, State.observeIf_rest]
theorem State.cross_rest (s : State) (t : Team) (a : Nat) :
    s.cross t a = { s with
      clocks := (s.cross t a).clocks, crossing := (s.cross t a).crossing, win := (s.cross t a).win } := State.crossFrom_rest ..
@[simp] theorem State.cross_pmem (s : State) (t : Team) (a : Nat) : (s.cross t a).pmem = s.pmem := by rw [State.cross_rest]
@[simp] theorem State.cross_byte (s : State) (t : Team) (a j : Nat) : (s.cross t a).byte j = s.byte j := by
  unfold State.byte; rw [State.cross_pmem]
@[simp] theorem State.wakeOwn_pmem (s : State) (t : Team) (a : Nat) : (s.wakeOwn t a).pmem = s.pmem := rfl

theorem State.memoryOk_putBytes {s : State} (key : Option Nat) (a : Nat) (bs : List Byte) (h : s.memoryOk) :
    (s.putBytes key a bs).memoryOk := by
  cases key with
  | none => exact State.memoryOk_pokeBytes a bs h
  | some k =>
    unfold State.putBytes State.seal State.memoryOk
    dsimp only
    rw [State.foldl_markPoison_pmem]
    exact State.memoryOk_pokeBytes (128 * (a / 128)) _ h

/-- The snapshot that a write may keep first, and the clock it leaves with, leave memory alone. -/
theorem State.before_pmem (s : State) (t : Team) (key a : Nat) (norep : Bool) :
    ((if norep = true then s else s.snapshot key a).cross t a).pmem = s.pmem := by
  rw [State.cross_pmem]
  cases norep
  · exact s.snapshot_pmem key a
  · rfl

theorem State.memoryOk_writeTeam {s : State} (t : Option Team) (key : Option Nat) (a : Nat) (bs : List Byte) (norep : Bool)
    (h : s.memoryOk) : (s.writeTeam t key a bs norep).memoryOk := by
  have put (T : Team) (k : Nat) := State.memoryOk_putBytes key a bs (State.memoryOk_of_pmem (s.before_pmem T k a norep) h)
  unfold State.writeTeam
  cases s.auditOf t with
  | some p =>
    obtain ⟨T, au⟩ := p
    cases hr : T.rerun <;> simp only [hr, if_true, Bool.false_eq_true, if_false]
    · exact State.memoryOk_of_pmem (State.setAudit_pmem _ _) (put T T.launch)
    · exact State.memoryOk_of_pmem rfl h
  | none =>
    cases t with
    | some T => exact put T T.launch
    | none => exact State.memoryOk_putBytes key a bs h

theorem State.memoryOk_writeFor {s : State} (w a : Nat) (bs : List Byte) (norep : Bool) (h : s.memoryOk) :
    (s.writeFor w a bs norep).memoryOk := State.memoryOk_writeTeam _ none a bs norep h

theorem State.reset_memoryOk : State.reset.memoryOk := Memory.wf_nil

/-- The team whose audit a write goes to is the writing team. -/
theorem State.auditOf_team {s : State} {t : Option Team} {p : Team × Audit} (h : s.auditOf t = some p) : t = some p.1 := by
  unfold State.auditOf at h
  match t with
  | none => simp at h
  | some T =>
    dsimp only at h
    by_cases hT : (T.sampled || T.rerun) = true
    · rw [if_pos hT] at h
      cases hf : s.audits.find? (Audit.of T.launch T.teamId) <;> rw [hf] at h <;> simp at h
      rw [← h]
    · rw [if_neg hT] at h; simp at h

/-- A team that no audit re-runs writes its bytes to memory, and no others (R163). -/
theorem State.byte_writeTeam {s : State} (t : Option Team) (a : Nat) (bs : List Byte) (norep : Bool) (j : Nat)
    (h : ∀ T, t = some T → T.rerun = false) :
    (s.writeTeam t none a bs norep).byte j = if a ≤ j ∧ j < a + bs.length then bs.getD (j - a) 0 else s.byte j := by
  have put (T : Team) (k : Nat) :
      (((if norep = true then s else s.snapshot k a).cross T a).pokeBytes a bs).byte j =
        if a ≤ j ∧ j < a + bs.length then bs.getD (j - a) 0 else s.byte j := by
    rw [State.byte_pokeBytes]
    unfold State.byte; rw [s.before_pmem T k a norep]
  unfold State.writeTeam
  cases hp : s.auditOf t with
  | some p =>
    simp only [h p.1 (State.auditOf_team hp), Bool.false_eq_true, if_false]
    exact put p.1 p.1.launch
  | none =>
    cases t with
    | some T => exact put T T.launch
    | none => exact State.byte_pokeBytes ..

/-! ### The resolution of an address (R296) -/

/-- An address that resolves is aligned to its size. -/
theorem resolve_ok_aligned {s : State} {w : Nat} {acc : Acc} {addr : Word} {n : Nat} {loc : Loc} {leaf : Option Leaf}
    (h : resolve s w acc addr n = .ok loc leaf) : addr.toNat % n = 0 := by
  unfold resolve at h
  by_cases ha : addr.toNat % n = 0
  · exact ha
  · simp only [ne_eq, ha, not_false_eq_true, if_true] at h; cases h

/-- A misaligned element has MALIGN before every other fault. -/
theorem resolve_malign {s : State} {w : Nat} {acc : Acc} {addr : Word} {n : Nat} (h : addr.toNat % n ≠ 0) :
    resolve s w acc addr n = .fault .malign := by
  unfold resolve; simp only [ne_eq, h, not_false_eq_true, if_true]

/-- An element of tenant memory that resolves lies on a page that the table, or a held translation, gives, and that admits
the access. -/
theorem resolve_tenant {s : State} {w : Nat} {acc : Acc} {addr : Word} {n : Nat} {loc : Loc} {leaf : Option Leaf}
    (ht : addr.toNat < 2 ^ 56) (h : resolve s w acc addr n = .ok loc leaf) :
    ∃ l, translate s (clusterOf (coreOf w)) (s.vfOf w) addr.toNat = .leaf l ∧ leaf = some l ∧ loc = .phys (l.pa addr.toNat) ∧
      l.conf = false ∧ (acc.writes = true → l.w = true ∧ s.guarded (l.pa addr.toNat) = false) ∧
      s.portRefuses (dieOf (coreOf w)) (s.partWorld (s.partOf w)) (l.pa addr.toNat) = false := by
  have hr : resolve s w acc addr n = resolveTenant s w acc addr.toNat := by
    unfold resolve
    rw [if_neg (not_not_intro (resolve_ok_aligned h)), if_pos ht]
  rw [hr] at h
  unfold resolveTenant at h
  cases hl : translate s (clusterOf (coreOf w)) (s.vfOf w) addr.toNat with
  | malformed => simp [hl] at h
  | absent base _ gsz => simp only [hl] at h; by_cases hv : s.vfReplay (s.vfOf w) = true <;> simp [hv] at h
  | leaf l =>
    refine ⟨l, rfl, ?_⟩
    simp only [hl] at h
    -- each check that fails would have answered PROT
    by_cases h1 : l.conf = true
    · simp [h1] at h
    by_cases h2 : acc.writes = true ∧ (l.w = false ∨ s.guarded (l.pa addr.toNat) = true)
    · rcases h2 with ⟨hw, h3 | h3⟩ <;> simp [h1, hw, h3] at h
    by_cases h4 : s.portRefuses (dieOf (coreOf w)) (s.partWorld (s.partOf w)) (l.pa addr.toNat) = true
    · simp [h1, h4] at h
    have ok : Res.ok (.phys (l.pa addr.toNat)) (some l) = Res.ok loc leaf := by
      rw [← h]
      cases hw : acc.writes <;> simp_all
    cases ok
    refine ⟨rfl, rfl, by simpa using h1, fun hw => ?_, by simpa using h4⟩
    simpa [hw] using h2

end Sys2Proof.Machine
end

