-- ==== Sys2Proof/Laws/Access.lean ====
section
/-! SUPPORT. Laws/Access.lean: the fate of an access, case by case: its elements fault, or park, or all of them go on. -/
namespace Sys2Proof.Machine

/-- A stage entry changes nothing but the note of the stages. -/
theorem State.stage7_rest (s : State) (l : List Word) : s.stage7 l = { s with stages := (s.stage7 l).stages } := by
  unfold State.stage7; split <;> rfl
@[simp] theorem State.stage7_cur (s : State) (l : List Word) : (s.stage7 l).cur = s.cur := by rw [State.stage7_rest]
/-- What an address resolves to does not depend on the stages entered. -/
@[simp] theorem State.stage7_resolve (s : State) (l : List Word) (w : Nat) (acc : Acc) (a : Word) (n : Nat) :
    resolve (s.stage7 l) w acc a n = resolve s w acc a n := by rw [State.stage7_rest]; rfl

theorem accessS_fault (s : State) (acc : Acc) (n : Nat) (addr : Word) (rd wr at_ : Bool) (k : State → Res → State) (c : Cause)
    (h : resolve s s.cur.1 acc addr n = .fault c) (hc : c ≠ .prot) :
    accessS s acc n addr rd wr at_ k = (s.stage7 [addr]).trapCur c addr := by
  simp [accessS, h, State.logFault, hc]

/-- A PROT that a die-to-die port, or the root of trust, gives is logged. -/
theorem accessS_prot (s : State) (acc : Acc) (n : Nat) (addr : Word) (rd wr at_ : Bool) (k : State → Res → State)
    (h : resolve s s.cur.1 acc addr n = .fault .prot) :
    accessS s acc n addr rd wr at_ k = ((s.stage7 [addr]).logPort s.cur.1 acc addr).trapCur .prot addr := by
  simp [accessS, h, State.logFault]

theorem accessS_park (s : State) (acc : Acc) (n : Nat) (addr : Word) (rd wr at_ : Bool) (k : State → Res → State) (b g : Nat)
    (h : resolve s s.cur.1 acc addr n = .park b g) :
    accessS s acc n addr rd wr at_ k = (s.stage7 [addr]).parkCur b g rd wr at_ := by
  simp [accessS, h]

theorem accessS_ok (s : State) (acc : Acc) (n : Nat) (addr : Word) (rd wr at_ : Bool) (k : State → Res → State) (l : Loc)
    (leaf : Option Leaf) (h : resolve s s.cur.1 acc addr n = .ok l leaf) :
    accessS s acc n addr rd wr at_ k = k ((s.stage7 [addr]).holdRes s.cur.1 addr (.ok l leaf)) (.ok l leaf) := by
  simp [accessS, h]

/-- Where no element faults, every granule that is not resident is waited for. -/
theorem accessV_park (s : State) (acc : Acc) (n : Nat) (mask : Mask) (addr : Nat → Word) (rd wr at_ : Bool)
    (k : State → List Elem → State) (h : (s.elemsOf acc n mask addr).filter (fun e => e.res.isFault) = [])
    (hp : (s.elemsOf acc n mask addr).filterMap (fun e => e.res.granule) ≠ []) :
    accessV s acc n mask addr rd wr at_ k =
      (s.stage7 ((s.elemsOf acc n mask addr).map Elem.addr)).parkAll
        ((s.elemsOf acc n mask addr).filterMap fun e => e.res.granule) rd wr at_ := by
  unfold accessV; dsimp only; rw [if_neg (by simp [h]), if_pos hp]

/-- Where every element resolves, the access is performed. -/
theorem accessV_ok (s : State) (acc : Acc) (n : Nat) (mask : Mask) (addr : Nat → Word) (rd wr at_ : Bool)
    (k : State → List Elem → State) (h : (s.elemsOf acc n mask addr).filter (fun e => e.res.isFault) = [])
    (hp : (s.elemsOf acc n mask addr).filterMap (fun e => e.res.granule) = []) :
    accessV s acc n mask addr rd wr at_ k =
      k ((s.elemsOf acc n mask addr).foldl (fun t e => t.holdRes t.cur.1 e.addr e.res)
        (s.stage7 ((s.elemsOf acc n mask addr).map Elem.addr))) (s.elemsOf acc n mask addr) := by
  unfold accessV; dsimp only; rw [if_neg (by simp [h]), if_neg (by simp [hp])]

/-- Holding a translation changes what the cluster holds, and lets the die observe what was written (R225): no more. -/
theorem State.holdRes_rest (s : State) (w : Nat) (addr : Word) (r : Res) :
    s.holdRes w addr r = { s with
      tlb := (s.holdRes w addr r).tlb, clocks := (s.holdRes w addr r).clocks, crossing := (s.holdRes w addr r).crossing } := by
  unfold State.holdRes
  split
  · rw [State.observe, State.observeIf_rest]
    unfold State.hold; dsimp only
    split <;> rfl
  · rfl

end Sys2Proof.Machine
end

