-- ==== Sys2Proof/Laws/Alu.lean ====
section
/-! SUPPORT. Laws/Alu.lean: the three answers of a vector ALU instruction, and what its results change. -/
namespace Sys2Proof.Machine

/-- A broken latch rule traps LATCH before anything else (R295). -/
theorem aluS_latch (s : State) (f : Info) (a : Alu) (mask : Mask) (val : Nat → W32) (ovf : Nat → Bool) (post : State → State)
    (member : Bool) (h : chainFault s.cs a = some member) :
    ∃ head, (member = false → head = s.cs.pc) ∧
      aluS s f a mask val ovf post =
        takeTrap s s.cur.1 s.cur.2 { instrTrap .latch 0 s.cs.pc with chain := head, next := head } := by
  unfold aluS
  rw [h]
  exact ⟨_, fun hm => by simp [hm], rfl⟩

/-- With no latch rule broken, no capsule limit and no lane in overflow, the results are written. -/
theorem aluS_writes (s : State) (f : Info) (a : Alu) (mask : Mask) (val : Nat → W32) (ovf : Nat → Bool) (post : State → State)
    (hc : chainFault s.cs a = none) (hu : s.unlimited)
    (ho : (laneMask fun i => mask.getLsbD i && ovf i) = 0) :
    ∃ u, Counts s u ∧ aluS s f a mask val ovf post = post (u.writeAlu a mask val f.len (s.pipe (chainMember a))) := by
  refine ⟨s.enter f (s.pipe (chainMember a)), s.enter_counts f _, ?_⟩
  unfold aluS
  rw [hc]
  have hl : (s.enter f (s.pipe (chainMember a))).cw.limited = false := by rw [State.enter_cw]; exact State.unlimited_limited hu
  simp only [underCapsule, hl, Bool.false_eq_true, if_false, ho, if_true]

/-- Lanes in overflow under TRAP trap OVFTRAP, and nothing is written (R299). -/
theorem aluS_overflows (s : State) (f : Info) (a : Alu) (mask : Mask) (val : Nat → W32) (ovf : Nat → Bool) (post : State → State)
    (hc : chainFault s.cs a = none) (hu : s.unlimited)
    (ho : (laneMask fun i => mask.getLsbD i && ovf i) ≠ 0) :
    ∃ u, Counts s u ∧ aluS s f a mask val ovf post =
      u.trapLanes s.cur.1 s.cur.2 (fun _ => .ovftrap) (laneMask fun i => mask.getLsbD i && ovf i) (fun _ => 0) (fun _ => 0)
        s.cs.pc (chainHead s.cs a) false := by
  refine ⟨s.enter f (s.pipe (chainMember a)), s.enter_counts f _, ?_⟩
  unfold aluS
  rw [hc]
  have hl : (s.enter f (s.pipe (chainMember a))).cw.limited = false := by rw [State.enter_cw]; exact State.unlimited_limited hu
  simp only [underCapsule, hl, Bool.false_eq_true, if_false, ho, State.enter_cur, State.enter_cs]

/-! ### The results -/

/-- Only the issuing wave changes. -/
theorem State.writeAlu_rest (s : State) (a : Alu) (mask : Mask) (f : Nat → W32) (len : Nat) (p : Pipe) :
    s.writeAlu a mask f len p = s.setCw (s.writeAlu a mask f len p).cw := by
  unfold State.writeAlu State.setCw State.cw
  simp

/-- The instruction's slot afterwards, but its latches. -/
theorem State.writeAlu_cs (s : State) (a : Alu) (mask : Mask) (f : Nat → W32) (len : Nat) (p : Pipe) :
    (s.writeAlu a mask f len p).cs =
      { s.cs with pc := s.cs.pc + BitVec.ofNat 64 len, chain := chainNext s.cs a p, xvres := none
                  latches := (s.writeAlu a mask f len p).cs.latches } := by
  unfold State.writeAlu
  cases hx : s.cur.2 <;> simp [State.cs, hx, Wave.slot, Wave.setSlot]

theorem Wave.setVs_v (W : Wave) (r : Nat) (mask : Mask) (f : Nat → W32) (q i : Nat) (hi : i < 128) :
    (W.setVs r mask f).v q i = if q = r ∧ mask.getLsbD i = true then f i else W.v q i := by
  unfold Wave.setVs Wave.v
  rw [SMap.get_setLanes]
  by_cases hq : q = r
  · subst hq
    have h : 128 * q + i - 128 * q = i := by omega
    simp only [h, true_and]
    congr 1
    simp only [eq_iff_iff]
    constructor
    · rintro ⟨-, -, h3⟩; exact h3
    · intro h3; exact ⟨by omega, by omega, h3⟩
  · rw [if_neg (by omega), if_neg (by simp [hq])]

@[simp] theorem Wave.setSlot_v (W : Wave) (x : SlotId) (t : Slot) (q i : Nat) : (W.setSlot x t).v q i = W.v q i := by
  cases x <;> rfl

/-- The active lanes of the destination, unless its code is 60, take the results; every other lane stays (R120, R121). -/
theorem State.writeAlu_v (s : State) (a : Alu) (mask : Mask) (f : Nat → W32) (len : Nat) (p : Pipe) (q i : Nat) (hi : i < 128) :
    (s.writeAlu a mask f len p).cw.v q i =
      if q = a.d.toNat ∧ a.d.toNat < 60 ∧ mask.getLsbD i = true then f i else s.cw.v q i := by
  unfold State.writeAlu
  dsimp only
  rw [State.cw_setCw, Wave.setSlot_v]
  split
  · next h => rw [Wave.setVs_v _ _ _ _ _ _ hi]; simp only [h, true_and]
  · next h => simp [h]

end Sys2Proof.Machine
end

