-- ==== Sys2Proof/Laws/Image.lean ====
section
/-! SUPPORT. Laws/Image.lean: the numbers of an image's header are read back from their bytes. -/
namespace Sys2Proof.Machine

/-- Numbers that fit their length bytes, written and read. -/
theorem bytesNums_numBytes (l : List Nat) (rest : List Byte) (m : Nat) (h : ∀ v ∈ l, Nat.log2 v < 2000) :
    bytesNums (l.length + m) (l.flatMap numBytes ++ rest) = l ++ bytesNums m rest := by
  induction l with
  | nil => simp
  | cons v l ih =>
    have hv : Nat.log2 v / 8 + 1 < 256 := by have := h v (by simp); omega
    have hlt : v < 256 ^ (Nat.log2 v / 8 + 1) := by
      refine Nat.lt_of_lt_of_le Nat.lt_log2_self ?_
      rw [show (256 : Nat) = 2 ^ 8 from rfl, ← Nat.pow_mul]
      exact Nat.pow_le_pow_right (by decide) (by omega)
    have hn : (BitVec.ofNat 8 (Nat.log2 v / 8 + 1)).toNat = Nat.log2 v / 8 + 1 := by
      rw [BitVec.toNat_ofNat]; exact Nat.mod_eq_of_lt hv
    rw [List.length_cons, show l.length + 1 + m = (l.length + m) + 1 by omega, List.flatMap_cons, List.append_assoc]
    unfold numBytes
    simp only [List.cons_append, bytesNums, hn]
    rw [List.take_append_of_le_length (Nat.le_of_eq (leBytes_length ..).symm), List.take_of_length_le (Nat.le_of_eq (leBytes_length ..)),
      List.drop_append_of_le_length (Nat.le_of_eq (leBytes_length ..).symm), List.drop_of_length_le (Nat.le_of_eq (leBytes_length ..)), leValue_leBytes,
      Nat.mod_eq_of_lt hlt, List.nil_append]
    congr 1
    exact ih fun x hx => h x (by simp [hx])

end Sys2Proof.Machine
end

