-- ==== Sys2Proof/Laws/Trap.lean ====
section
/-! SUPPORT. Laws/Trap.lean: what taking a trap and returning from one come to, case by case. -/
namespace Sys2Proof.Machine

theorem State.markAdoptable_none (s : State) (w : Nat) (h : (s.wave w).capsule = none) : s.markAdoptable w = s := by
  unfold State.markAdoptable; rw [h]
theorem State.resumeCapsule_none (s : State) (w : Nat) (h : (s.wave w).capsule = none) : s.resumeCapsule w = s := by
  unfold State.resumeCapsule; rw [h]

theorem State.resumeActive_none (s : State) (w : Nat) (h : (s.wave w).capsule = none) : s.resumeActive w = s := by
  unfold State.resumeActive; rw [s.resumeCapsule_none w h]; exact ite_self s

/-- The trapping slot as a trap keeps it: with what it waited for only under TIMING (R314). -/
def State.trappedSlot (s : State) (w : Nat) (x : SlotId) (a : TrapArgs) : Slot :=
  { (s.wave w).slot x with
    pc := a.pc, waiting := decide (a.cause = .timing) && ((s.wave w).slot x).waiting
    park := if decide (a.cause = .timing) = true then (s.stopped w x).park else .none, chain := none, latches := [] }

/-- The trap registers that a trap of slot x of wave w writes. -/
def State.trapRegs (s : State) (w : Nat) (x : SlotId) (a : TrapArgs) : TrapRegs :=
  (s.wave w).trap.take (s.wave w).handler x (s.trappedSlot w x a) (s.stopped w (otherSlot x))
    (s.inChain w (otherSlot x)) (s.wave w).entries a

/-- Both slots as a trap keeps them, slot A first. -/
def State.frozenPair (s : State) (w : Nat) (x : SlotId) (a : TrapArgs) : Slot × Slot :=
  match x with
  | .a => (s.trappedSlot w x a, s.stopped w (otherSlot x))
  | .b => (s.stopped w (otherSlot x), s.trappedSlot w x a)

theorem State.trapRegs_thndl (s : State) (w : Nat) (x : SlotId) (a : TrapArgs) :
    (s.trapRegs w x a).thndl = (s.wave w).trap.thndl := by
  unfold State.trapRegs TrapRegs.take; split <;> rfl

/-- Taking a trap, in the terms above: the service gets it, or the handler (R281, R284, R287). -/
theorem takeTrap_cases (s : State) (w : Nat) (x : SlotId) (a : TrapArgs) :
    takeTrap s w x a =
      let W : Wave := { s.wave w with
        trap := s.trapRegs w x a
        frozen := if (s.wave w).handler then (s.wave w).frozen else some (s.frozenPair w x a) }
      if a.cause.service || (s.wave w).handler || decide ((s.wave w).trap.thndl = 0) then
        ((s.setWave w { (W.setSlot x (s.trappedSlot w x a)).setSlot (otherSlot x) (s.stopped w (otherSlot x)) with
          service := some { nested := (s.wave w).handler, timing := decide (a.cause = .timing) } }).markAdoptable w).ringAdd w
            a.cause.code (s.wave w).handler a.eng
      else (s.setWave w { W.flow x (handlerSlot (s.trapRegs w x a)) with handler := true }).markAdoptable w := by
  rw [← s.trapRegs_thndl w x a]
  unfold takeTrap State.frozenPair State.trapRegs State.trappedSlot
  dsimp only
  cases x <;> split <;> simp_all

/-- A tenant cause outside handler mode with THNDL ≠ 0 enters the handler (R281). -/
theorem takeTrap_handler (s : State) (w : Nat) (x : SlotId) (a : TrapArgs) (hc : a.cause.service = false)
    (ht : (s.wave w).trap.thndl ≠ 0) (hh : (s.wave w).handler = false) :
    takeTrap s w x a =
      (s.setWave w { ({ s.wave w with trap := s.trapRegs w x a, frozen := some (s.frozenPair w x a) } : Wave).flow x
        (handlerSlot (s.trapRegs w x a)) with handler := true }).markAdoptable w := by
  rw [takeTrap_cases, hc, hh, decide_eq_false ht]; rfl

/-- Every other trap parks the wave for the service with a record (R284, R287). -/
theorem takeTrap_service (s : State) (w : Nat) (x : SlotId) (a : TrapArgs)
    (h : a.cause.service = true ∨ (s.wave w).trap.thndl = 0 ∨ (s.wave w).handler = true) :
    takeTrap s w x a =
      ((s.setWave w { ((({ s.wave w with
          trap := s.trapRegs w x a
          frozen := if (s.wave w).handler then (s.wave w).frozen else some (s.frozenPair w x a) } : Wave).setSlot x
            (s.trappedSlot w x a)).setSlot (otherSlot x) (s.stopped w (otherSlot x))) with
          service := some { nested := (s.wave w).handler, timing := decide (a.cause = .timing) } }).markAdoptable w).ringAdd w
        a.cause.code (s.wave w).handler a.eng := by
  rw [takeTrap_cases]
  rcases h with h | h | h <;> simp [h]

@[simp] theorem State.rearmSlot_waves (s : State) (w : Nat) (x : SlotId) : (s.rearmSlot w x).waves = s.waves := by
  unfold State.rearmSlot
  split
  · rfl
  · split <;> rfl
  · rfl
@[simp] theorem State.rearm_wave (s : State) (w v : Nat) : (s.rearm w).wave v = s.wave v := by
  unfold State.wave State.rearm; rw [State.rearmSlot_waves, State.rearmSlot_waves]

/-- What `returnFromTrap` makes of the wave (R282, R283): the trapping slot at TNEXT, the other where it stands, both otherwise
as the trap, or what the service has written since, has left them. -/
theorem returnFromTrap_eq (s : State) (w : Nat) (p : Slot × Slot) (hf : (s.wave w).frozen = some p)
    (hc : (s.wave w).capsule = none) :
    ∃ W, returnFromTrap s w = (s.setWave w W).rearm w ∧
      W = { s.wave w with
        slotA := W.slotA, slotB := W.slotB, syncs := W.syncs, frozen := none, handler := false, service := none } ∧
      ∀ y, let saved := match y with | .a => p.1 | .b => p.2
        (W.slot y) = if y = (s.wave w).trap.slot then
            { saved with pc := (s.wave w).trap.tnext, chain := none, xvres := (W.slot y).xvres }
          else { saved with chain := none } := by
  obtain ⟨a, b⟩ := p
  unfold returnFromTrap
  simp only [hf]
  generalize (if (s.wave w).trap.tnext ≠ (s.wave w).trap.tpc then none else _ : Option (Mask × Mask)) = res
  cases (s.wave w).trap.slot
  all_goals
    simp only [Wave.slot, Wave.setSlot, otherSlot, Wave.dropSyncs]
    exact ⟨_, State.resumeActive_none _ _ (by simp [hc]), rfl, fun y => by cases y <;> simp⟩

end Sys2Proof.Machine
end

