-- ==== Sys2Proof/Tests/Slice0.lean ====
section
/-! SUPPORT. Tests/Slice0.lean: words of the manual's encodings and what they decode to; ill-formed instructions that the
check refuses; single steps on small states; and states that meet the hypotheses of the obligations. -/
set_option maxRecDepth 100000

namespace Sys2Proof.Tests
set_option Elab.async false
open Sys2Proof Sys2Proof.Machine

/-! ### States -/

/-- The loaded kernel of log 9: one wave at level S in bank 0 of core 0, slot A at 64 KiB with all lanes. -/
def base : State := State.reset.loaded
/-- The same with its wave, its slot or its bank changed. -/
def onWave (f : Wave → Wave) (s : State := base) : State := s.setWave 0 (f (s.wave 0))
def onSlot (f : Slot → Slot) (s : State := base) : State := onWave (fun W => { W with slotA := f W.slotA }) s
def onBank (f : Bank → Bank) (s : State := base) : State := s.setBank 0 (f (s.bank 0))
/-- At level T. -/
def tenant : State := onWave fun W => { W with system := false }
/-- Scalar registers set, by number. -/
def regs (l : List (Nat × Word)) (s : State := base) : State := onWave (fun W => { W with sregs := l }) s
/-- Vector register r set in every lane. -/
def lanes (r : Nat) (f : Nat → W32) (s : State := base) : State := onWave (fun W => W.setVs r (BitVec.allOnes 128) f) s
/-- In a step of a capsule whose record is at 0x20000. -/
def inStep (n : Nat) : Capsule :=
  { adopter := false, x := .a, record := 0x20000, enterPc := 0x10000, sd := 7, displaced := 0x10100, holder := 1, seq := 3
    saved := [], instrs := n, ssts := 0, buffer := [], committed := false }
def capsuled (n : Nat) (s : State := base) : State := onWave (fun W => { W with capsule := some (inStep n) }) s
/-- In handler mode, with the slots kept as the trap left them. -/
def handled (s : State := base) : State :=
  onWave (fun W => { W with handler := true, frozen := some ({ W.slotA with pc := 0x10040 }, Slot.free) }) s

/-- No capsule bears on a wave that is in none. -/
theorem unl {s : State} (h : s.cw.capsule = none) : s.unlimited := .inl h

/-! ### Words and their instructions

Each word is written from the match value and the fields that the opcode table gives the row, or from the formats of R92 and
the codes of R93 to R98; a literal form has LEN one higher, the replaced field zero, and the literal behind it (R88). -/

noncomputable def words1 : List (Nat × Nat × Instr) := [
  (32, 0x2548804, .add 8 18 37),
  (64, 0x89ABCDE400048805, .addLit 8 18 0x89ABCDE4),
  (32, 0x6548804, .sub 8 18 37),
  (64, 0x89ABCDE404048805, .subLit 8 18 0x89ABCDE4),
  (32, 0xA548804, .mul 8 18 37),
  (64, 0x89ABCDE408048805, .mulLit 8 18 0x89ABCDE4),
  (32, 0xE548804, .mulh 8 18 37),
  (64, 0x89ABCDE40C048805, .mulhLit 8 18 0x89ABCDE4),
  (32, 0x12548804, .mulhn 8 18 37),
  (64, 0x89ABCDE410048805, .mulhnLit 8 18 0x89ABCDE4),
  (32, 0x16548804, .div 8 18 37),
  (64, 0x89ABCDE414048805, .divLit 8 18 0x89ABCDE4),
  (32, 0x1A548804, .divn 8 18 37),
  (64, 0x89ABCDE418048805, .divnLit 8 18 0x89ABCDE4),
  (32, 0x1E548804, .rem 8 18 37),
  (64, 0x89ABCDE41C048805, .remLit 8 18 0x89ABCDE4)]
noncomputable def words2 : List (Nat × Nat × Instr) := [
  (32, 0x22548804, .remn 8 18 37),
  (64, 0x89ABCDE420048805, .remnLit 8 18 0x89ABCDE4),
  (32, 0x26548804, .and_ 8 18 37),
  (64, 0x89ABCDE424048805, .andLit 8 18 0x89ABCDE4),
  (32, 0x2A548804, .or_ 8 18 37),
  (64, 0x89ABCDE428048805, .orLit 8 18 0x89ABCDE4),
  (32, 0x2E548804, .xor 8 18 37),
  (64, 0x89ABCDE42C048805, .xorLit 8 18 0x89ABCDE4),
  (32, 0x32548804, .andn 8 18 37),
  (64, 0x89ABCDE430048805, .andnLit 8 18 0x89ABCDE4),
  (32, 0x36548804, .shl 8 18 37),
  (64, 0x89ABCDE434048805, .shlLit 8 18 0x89ABCDE4),
  (32, 0x3A548804, .shr 8 18 37),
  (64, 0x89ABCDE438048805, .shrLit 8 18 0x89ABCDE4),
  (32, 0x3E548804, .sha 8 18 37),
  (64, 0x89ABCDE43C048805, .shaLit 8 18 0x89ABCDE4)]
noncomputable def words3 : List (Nat × Nat × Instr) := [
  (32, 0x42548804, .rol 8 18 37),
  (64, 0x89ABCDE440048805, .rolLit 8 18 0x89ABCDE4),
  (32, 0x46548804, .min_ 8 18 37),
  (64, 0x89ABCDE444048805, .minLit 8 18 0x89ABCDE4),
  (32, 0x4A548804, .minn 8 18 37),
  (64, 0x89ABCDE448048805, .minnLit 8 18 0x89ABCDE4),
  (32, 0x4E548804, .max_ 8 18 37),
  (64, 0x89ABCDE44C048805, .maxLit 8 18 0x89ABCDE4),
  (32, 0x52548804, .maxn 8 18 37),
  (64, 0x89ABCDE450048805, .maxnLit 8 18 0x89ABCDE4),
  (32, 0x56548804, .slt 8 18 37),
  (64, 0x89ABCDE454048805, .sltLit 8 18 0x89ABCDE4),
  (32, 0x5A548804, .sltn 8 18 37),
  (64, 0x89ABCDE458048805, .sltnLit 8 18 0x89ABCDE4),
  (32, 0x5E548804, .seq 8 18 37),
  (64, 0x89ABCDE45C048805, .seqLit 8 18 0x89ABCDE4)]
noncomputable def words4 : List (Nat × Nat × Instr) := [
  (32, 0x60048804, .clz 8 18),
  (32, 0x64048804, .ctz 8 18),
  (32, 0x68048804, .popc 8 18),
  (32, 0xA5348808, .addi 8 18 0xA53),
  (64, 0x89ABCDE400048809, .addiLit 8 18 0x89ABCDE4),
  (32, 0xA534880C, .andi 8 18 0xA53),
  (64, 0x89ABCDE40004880D, .andiLit 8 18 0x89ABCDE4),
  (32, 0xA5348810, .ori 8 18 0xA53),
  (64, 0x89ABCDE400048811, .oriLit 8 18 0x89ABCDE4),
  (32, 0xA5348814, .xori 8 18 0xA53),
  (64, 0x89ABCDE400048815, .xoriLit 8 18 0x89ABCDE4),
  (32, 0xA534881C, .slti 8 18 0xA53),
  (64, 0x89ABCDE40004881D, .sltiLit 8 18 0x89ABCDE4),
  (32, 0xA5348820, .sltni 8 18 0xA53),
  (64, 0x89ABCDE400048821, .sltniLit 8 18 0x89ABCDE4),
  (32, 0x1148818, .shli 8 18 17)]
noncomputable def words5 : List (Nat × Nat × Instr) := [
  (32, 0x5148818, .shri 8 18 17),
  (32, 0x9148818, .shai 8 18 17),
  (32, 0xD148818, .roli 8 18 17),
  (32, 0xA5300824, .srd 8 0xA53),
  (32, 0xA5301228, .swr 18 0xA53),
  (32, 0x8A5A352C, .bra 0x8A5A35),
  (64, 0x89ABCDE40000002D, .braLit 0x89ABCDE4),
  (32, 0x8A5A3530, .call 0x8A5A35),
  (64, 0x89ABCDE400000031, .callLit 0x89ABCDE4),
  (32, 0xA8D52034, .beqz 18 0x2A35),
  (64, 0x89ABCDE400012035, .beqzLit 18 0x89ABCDE4),
  (32, 0xA8D52134, .bnez 18 0x2A35),
  (64, 0x89ABCDE400012135, .bnezLit 18 0x89ABCDE4),
  (32, 0xA8D52234, .bltz 18 0x2A35),
  (64, 0x89ABCDE400012235, .bltzLit 18 0x89ABCDE4),
  (32, 0xA8D52334, .bgez 18 0x2A35)]
noncomputable def words6 : List (Nat × Nat × Instr) := [
  (64, 0x89ABCDE400012335, .bgezLit 18 0x89ABCDE4),
  (32, 0xA8D52434, .blez 18 0x2A35),
  (64, 0x89ABCDE400012435, .blezLit 18 0x89ABCDE4),
  (32, 0xA8D52534, .bgtz 18 0x2A35),
  (64, 0x89ABCDE400012535, .bgtzLit 18 0x89ABCDE4),
  (32, 0xA8D40638, .vbr 6 0x2A35),
  (64, 0x89ABCDE400000639, .vbrLit 6 0x89ABCDE4),
  (32, 0xA8D4063C, .bany 6 0x2A35),
  (64, 0x89ABCDE40000063D, .banyLit 6 0x89ABCDE4),
  (32, 0xA8D4163C, .ball 6 0x2A35),
  (64, 0x89ABCDE40000163D, .ballLit 6 0x89ABCDE4),
  (32, 0xA8D4263C, .bnone 6 0x2A35),
  (64, 0x89ABCDE40000263D, .bnoneLit 6 0x89ABCDE4),
  (32, 0x201240, .jmpi 18),
  (32, 0x301240, .calli 18),
  (32, 0x1001140, .trap 17)]
noncomputable def words7 : List (Nat × Nat × Instr) := [
  (32, 0xBA944, .kand 9 10 11),
  (32, 0x40BA944, .kor 9 10 11),
  (32, 0x80BA944, .kxor 9 10 11),
  (32, 0xC0BA944, .kandn 9 10 11),
  (32, 0x1000A944, .knot 9 10),
  (32, 0x1400A944, .kmov 9 10),
  (32, 0x18E0A044, .kpopc 14 10),
  (32, 0x1CE0A044, .kfirst 14 10),
  (32, 0x20E00944, .klds 9 14),
  (32, 0x24E0A044, .ksts 14 10),
  (32, 0x28000944, .kexec 9),
  (32, 0x2CE00944, .klane 9 14),
  (32, 0x264E8648, .vadd 40 19 38 6),
  (64, 0x89ABCDE4004E8649, .vaddLit 40 19 6 0x89ABCDE4),
  (32, 0x664E8648, .vsub 40 19 38 6),
  (64, 0x89ABCDE4404E8649, .vsubLit 40 19 6 0x89ABCDE4)]
noncomputable def words8 : List (Nat × Nat × Instr) := [
  (32, 0xA64E8648, .vmul 40 19 38 6),
  (64, 0x89ABCDE4804E8649, .vmulLit 40 19 6 0x89ABCDE4),
  (32, 0xE64E8648, .vmulh 40 19 38 6),
  (64, 0x89ABCDE4C04E8649, .vmulhLit 40 19 6 0x89ABCDE4),
  (32, 0x264E864C, .vand 40 19 38 6),
  (64, 0x89ABCDE4004E864D, .vandLit 40 19 6 0x89ABCDE4),
  (32, 0x664E864C, .vor 40 19 38 6),
  (64, 0x89ABCDE4404E864D, .vorLit 40 19 6 0x89ABCDE4),
  (32, 0xA64E864C, .vxor 40 19 38 6),
  (64, 0x89ABCDE4804E864D, .vxorLit 40 19 6 0x89ABCDE4),
  (32, 0xE64E864C, .vandn 40 19 38 6),
  (64, 0x89ABCDE4C04E864D, .vandnLit 40 19 6 0x89ABCDE4),
  (32, 0x264E8650, .vshl 40 19 38 6),
  (64, 0x89ABCDE4004E8651, .vshlLit 40 19 6 0x89ABCDE4),
  (32, 0x664E8650, .vshr 40 19 38 6),
  (64, 0x89ABCDE4404E8651, .vshrLit 40 19 6 0x89ABCDE4)]
noncomputable def words9 : List (Nat × Nat × Instr) := [
  (32, 0xA64E8650, .vsha 40 19 38 6),
  (64, 0x89ABCDE4804E8651, .vshaLit 40 19 6 0x89ABCDE4),
  (32, 0xE64E8650, .vrol 40 19 38 6),
  (64, 0x89ABCDE4C04E8651, .vrolLit 40 19 6 0x89ABCDE4),
  (32, 0x264E8654, .vmin 40 19 38 6),
  (64, 0x89ABCDE4004E8655, .vminLit 40 19 6 0x89ABCDE4),
  (32, 0x664E8654, .vminn 40 19 38 6),
  (64, 0x89ABCDE4404E8655, .vminnLit 40 19 6 0x89ABCDE4),
  (32, 0xA64E8654, .vmax 40 19 38 6),
  (64, 0x89ABCDE4804E8655, .vmaxLit 40 19 6 0x89ABCDE4),
  (32, 0xE64E8654, .vmaxn 40 19 38 6),
  (64, 0x89ABCDE4C04E8655, .vmaxnLit 40 19 6 0x89ABCDE4),
  (32, 0x264E8658, .vsel 40 19 38 6),
  (64, 0x89ABCDE4004E8659, .vselLit 40 19 6 0x89ABCDE4),
  (32, 0x403A8658, .vbcst 40 14 6),
  (32, 0x80028658, .vlid 40 6)]
noncomputable def words10 : List (Nat × Nat × Instr) := [
  (32, 0xE6028658, .vmov 40 38 6),
  (64, 0x89ABCDE4C0028659, .vmovLit 40 6 0x89ABCDE4),
  (64, 0x5002284255D, .vcmp .fgt 2 33 34 5),
  (96, 0x3FC00000000001C00084255E, .vcmpLit .len 2 33 5 0x3FC00000),
  (64, 0x3D22868561, .vmad 40 33 34 61 5),
  (96, 0x3FC000000000003D00868562, .vmadLit 40 33 61 5 0x3FC00000),
  (64, 0x4000FBC761, .vclz 60 62 7),
  (64, 0x8000FBC761, .vpopc 60 62 7),
  (64, 0xC000FBC761, .vabs 60 62 7),
  (64, 0x10000FBC761, .vneg 60 62 7),
  (64, 0x9C0003F081F65, .vfadd 1 2 63 15 { rm := .rtz, ovf := .trap, fmt := .bf16x2 }),
  (96, 0x3FC000000002000000081F66, .vfaddLit 1 2 15 { rm := .rdn, ovf := .sat, fmt := .f32 } 0x3FC00000),
  (64, 0xAC0403F081F65, .vfsub 1 2 63 15 { rm := .rdn, ovf := .trap, fmt := .bf16x2 }),
  (96, 0x3FC000000002404000081F66, .vfsubLit 1 2 15 { rm := .rdn, ovf := .inf, fmt := .f32 } 0x3FC00000),
  (64, 0xBC0803F081F65, .vfmul 1 2 63 15 { rm := .rup, ovf := .trap, fmt := .bf16x2 }),
  (96, 0x3FC000000002808000081F66, .vfmulLit 1 2 15 { rm := .rdn, ovf := .nan, fmt := .f32 } 0x3FC00000)]
noncomputable def words11 : List (Nat × Nat × Instr) := [
  (64, 0x580C403081065, .vfma 1 2 3 4 0 { rm := .rtz, ovf := .nan, fmt := .f16x2 }),
  (96, 0x3FC00000000740C400081166, .vfmaLit 1 2 4 1 { rm := .rup, ovf := .inf, fmt := .f16x2 } 0x3FC00000),
  (64, 0x4010003081965, .vfmin 1 2 3 9 .f16x2),
  (96, 0x3FC000000008010000081966, .vfminLit 1 2 9 .bf16x2 0x3FC00000),
  (64, 0x4014003081965, .vfmax 1 2 3 9 .f16x2),
  (96, 0x3FC000000008014000081966, .vfmaxLit 1 2 9 .bf16x2 0x3FC00000),
  (64, 0x4018000081965, .vfabs 1 2 9 .f16x2),
  (64, 0x401C000081965, .vfneg 1 2 9 .f16x2),
  (64, 0x9020000081965, .vfrnd 1 2 9 .bf16x2 .rtz),
  (64, 0x30B269, .vrcp 11 12 2 .f32 .sat),
  (64, 0x440400030B269, .vrsq 11 12 2 .f16x2 .inf),
  (64, 0x880800030B269, .vsqrt 11 12 2 .bf16x2 .nan),
  (64, 0xC0C00030B269, .vexp2 11 12 2 .f32 .trap),
  (64, 0x401000030B269, .vlog2 11 12 2 .f16x2 .sat),
  (64, 0x841400030B269, .vsin 11 12 2 .bf16x2 .inf),
  (64, 0x81800030B269, .vcos 11 12 2 .f32 .nan)]
noncomputable def words12 : List (Nat × Nat × Instr) := [
  (64, 0x4C1C00030B269, .vtanh 11 12 2 .f16x2 .trap),
  (64, 0x802000030B269, .vsigm 11 12 2 .bf16x2 .sat),
  (64, 0x42400030B269, .verf 11 12 2 .f32 .inf),
  (64, 0x12D6800030B26D, .vcvt .i32 .n8 11 12 2 .rdn .trap true),
  (64, 0x3000000030B271, .vqpack .hyb 11 12 2),
  (64, 0x400030B271, .vqunpk 11 12 2),
  (64, 0xD30B275, .vperm 11 12 13 2),
  (96, 0x7000000000030B276, .vpermLit 11 12 2 7),
  (64, 0x61C0400033D275, .vred .fadd 61 12 2 .rtz .trap),
  (64, 0x9000800030B275, .vscan .xor 11 12 2 .rne .sat),
  (64, 0xC00030B275, .vcmprs 11 12 2),
  (64, 0x10000338275, .vmatch 56 12 2),
  (64, 0x1400000B275, .xvdepth 11 2),
  (64, 0x3400E0D30B2F1, .vdp4 11 12 13 14 2 .rup .inf),
  (96, 0x3FC000000003400E0030B2F2, .vdp4Lit 11 12 14 2 .rup .inf 0x3FC00000),
  (32, 0x2A445678, .xv 5 17 42 6)]
noncomputable def words13 : List (Nat × Nat × Instr) := [
  (32, 0x6A445678, .xvS0 5 17 42 6),
  (32, 0xAA445678, .xvS1 5 17 42 6),
  (32, 0x4C067C, .xvpush 19 6),
  (32, 0x4002867C, .xvpop 40 6),
  (32, 0x8002867C, .xvpeek 40 6),
  (32, 0xC000067C, .xvclr 6),
  (32, 0x8048080, .tblld 2 18),
  (32, 0x18000080, .tblsw 2),
  (32, 0x28000880, .tblgen 8 2),
  (64, 0xEDF8ABCD7B87B485, .vld 59 33 59 4 0x8ABCD { size := .b16, strm := 15, scope := .system, order := .acq, cache := .bypassCluster, sx := true }),
  (96, 0xFFF12345EDF000007B87B486, .vldLit 59 33 59 4 { size := .b16, strm := 15, scope := .system, order := .acq, cache := .bypassCluster, sx := true } 0xFFF12345),
  (64, 0x3498ABCDFB87A489, .vst 58 33 59 4 0x8ABCD { size := .b64, strm := 9, scope := .package, order := .rel, cache := .noAllocate, sx := false }),
  (96, 0xFFF1234534900000FB87A48A, .vstLit 58 33 59 4 { size := .b64, strm := 9, scope := .package, order := .rel, cache := .noAllocate, sx := false } 0xFFF12345),
  (64, 0xCA38ABCDBC87F08D, .sld 63 33 0x8ABCD { size := .b32, strm := 3, scope := .cluster, order := .acq, cache := .keep, sx := true }),
  (96, 0xFFF12345CA300000BC87F08E, .sldLit 63 33 { size := .b32, strm := 3, scope := .cluster, order := .acq, cache := .keep, sx := true } 0xFFF12345),
  (64, 0x4038ABCD3C87F091, .sst 63 33 0x8ABCD { size := .b8, strm := 3, scope := .wave, order := .plain, cache := .keep, sx := false })]
noncomputable def words14 : List (Nat × Nat × Instr) := [
  (96, 0xFFF12345403000003C87F092, .sstLit 63 33 { size := .b8, strm := 3, scope := .wave, order := .plain, cache := .keep, sx := false } 0xFFF12345),
  (64, 0x1C498010FC1F8395, .vatom .cas 56 7 60 3 0x8010 { wide := true, strm := 4, scope := .package, order := .acqRel }),
  (64, 0x94A0010BC1FF099, .satom .fadd 63 7 0x10 { wide := false, strm := 4, scope := .team, order := .acq }),
  (64, 0x10470010821FB39D, .mred .xor 59 7 2 3 0x10 { wide := false, strm := 4, scope := .wave, order := .rel }),
  (32, 0x58123A0, .fence 0x8123 .system),
  (32, 0xD8123A0, .fenceAcq 0x8123 .system),
  (32, 0x158123A0, .fenceRel 0x8123 .system),
  (64, 0xA700040BC1060A5, .mwait 6 4 0x40 { wide := false, strm := 7, scope := .cluster, acquire := true }),
  (96, 0x10000000000000FC1060A6, .mwaitLit 6 4 { wide := true, strm := 0, scope := .wave, acquire := false } 0x100000),
  (32, 0x25485A8, .icinv .system 18 37),
  (32, 0x65480A8, .dwb 18 37),
  (32, 0xA5480A8, .dinv 18 37),
  (64, 0x32948247185AD, .cpy 5 6 7 8 9 .die 0xA5),
  (64, 0x4000240185AD, .cpyCvt 5 6 0 0 9 .wave 0),
  (64, 0x56554B1, .nsend 20 21 22 1),
  (64, 0x4000056554B1, .npost 20 21 22 1)]
noncomputable def words15 : List (Nat × Nat × Instr) := [
  (32, 0x25440B4, .barinit 17 37),
  (32, 0x40448B4, .bararr 8 17),
  (32, 0xA5440B4, .barwait 17 37),
  (32, 0xC0440B4, .barsync 17),
  (32, 0x125480B4, .awset 18 37),
  (32, 0x165488B4, .awwait 8 18 37),
  (32, 0x1A5480B4, .awadd 18 37),
  (32, 0x480B8, .dqpush 18),
  (32, 0x40008B8, .dqpop 8),
  (32, 0x80488B8, .dqsteal 8 18),
  (32, 0xC0008B8, .dqcnt 8),
  (64, 0x10006147BD, .capenter 7 5 6 0x10),
  (32, 0x40C80C0, .capexit 50),
  (32, 0xC0488C0, .capqry 8 18),
  (32, 0x14048C4, .wload .q4 18),
  (32, 0x15654BC4, .mma .q4 true 3 18 37)]
noncomputable def words16 : List (Nat × Nat × Instr) := [
  (32, 0x296848C4, .mmad .q4 2 40 18),
  (32, 0x38284BC4, .mdrain 2 40 3 18),
  (32, 0x48214BC4, .mfill 2 3 33 18),
  (32, 0x500003C4, .czero 3),
  (32, 0x600003C4, .cwait 3),
  (32, 0x25848C8, .lget 8 33 37),
  (32, 0x654A1C8, .lput 33 18 37),
  (32, 0x80488C8, .tlcause 8 18),
  (32, 0xC0488C8, .tladdr 8 18),
  (32, 0x100488C8, .tlstep 8 18),
  (32, 0x25480CC, .tlbinv 18 37),
  (32, 0x40488CC, .fbpop 8 18),
  (32, 0x80480CC, .xlreplay 18),
  (32, 0xC0488CC, .fbstat 8 18),
  (32, 0x480D0, .banksw 18),
  (32, 0x65480D0, .spill 18 37)]
noncomputable def words17 : List (Nat × Nat × Instr) := [
  (32, 0xA5480D0, .fill 18 37),
  (32, 0xC0480D0, .gate 18),
  (32, 0x125480D0, .migr 18 37),
  (32, 0x40, .nop),
  (32, 0x100040, .ret),
  (32, 0x400040, .join),
  (32, 0x500040, .yield),
  (32, 0x600040, .end_),
  (32, 0x2000040, .tret),
  (32, 0xC0, .capstep),
  (32, 0x80000C0, .capdrop)]

/-- Whether every word of a list decodes to its instruction, which is well-formed and is encoded as that word. -/
noncomputable def decodes (l : List (Nat × Nat × Instr)) : Bool :=
  l.all fun e => decide (decodeTableWord e.1 e.2.1 = some e.2.2) && e.2.2.wf &&
    decide (Machine.leValue (encodeBytes e.2.2) = e.2.1)

theorem test_decode_add_to_remLit : decodes words1 = true := by decide +kernel
theorem test_decode_remn_to_shaLit : decodes words2 = true := by decide +kernel
theorem test_decode_rol_to_seqLit : decodes words3 = true := by decide +kernel
theorem test_decode_clz_to_shli : decodes words4 = true := by decide +kernel
theorem test_decode_shri_to_bgez : decodes words5 = true := by decide +kernel
theorem test_decode_bgezLit_to_trap : decodes words6 = true := by decide +kernel
theorem test_decode_kand_to_vsubLit : decodes words7 = true := by decide +kernel
theorem test_decode_vmul_to_vshrLit : decodes words8 = true := by decide +kernel
theorem test_decode_vsha_to_vlid : decodes words9 = true := by decide +kernel
theorem test_decode_vmov_to_vfmulLit : decodes words10 = true := by decide +kernel
theorem test_decode_vfma_to_vcos : decodes words11 = true := by decide +kernel
theorem test_decode_vtanh_to_xv : decodes words12 = true := by decide +kernel
theorem test_decode_xvS0_to_sst : decodes words13 = true := by decide +kernel
theorem test_decode_sstLit_to_npost : decodes words14 = true := by decide +kernel
theorem test_decode_barinit_to_mma : decodes words15 = true := by decide +kernel
theorem test_decode_mmad_to_spill : decodes words16 = true := by decide +kernel
theorem test_decode_fill_to_capdrop : decodes words17 = true := by decide +kernel

/-! ### An ill-formed term for each check, which the check refuses -/

/-- Every term of a list is refused. -/
def refuses (l : List Instr) : Bool := l.all fun i => !i.wf
def mq (size : Size) (sx : Bool := false) : MemQ := { size := size, strm := 0, scope := .wave, order := .plain, cache := .default, sx := sx }
def aq (wide : Bool := false) : AtomQ := { wide := wide, strm := 0, scope := .wave, order := .plain }

/-- R88: a literal byte offset is a multiple of 4. -/
theorem test_wf_literal_offsets : refuses
  [.braLit 2, .callLit 1, .beqzLit 1 2, .bnezLit 1 2, .bltzLit 1 2, .bgezLit 1 2, .blezLit 1 2, .bgtzLit 1 2, .vbrLit 1 2, .banyLit 1 2,
   .ballLit 1 2, .bnoneLit 1 2, .capenter 1 2 3 2] = true := by decide
/-- R93, R95: k0 where a mask register is read or written as an operand. -/
theorem test_wf_mask_registers : refuses
  [.kand 0 1 1, .kor 1 0 1, .kxor 1 1 0, .kandn 0 1 1, .knot 1 0, .kmov 0 1, .kpopc 1 0, .kfirst 1 0, .klds 0 2, .klds 1 3, .ksts 2 0,
   .ksts 3 1, .kexec 0, .klane 0 1, .vcmp .eq 0 1 1 0, .vcmpLit .eq 0 1 0 0] = true := by decide
/-- R89: numbers above v59, above v60 for a destination, odd pairs, quads, register runs. -/
theorem test_wf_vector_registers : refuses
  [.vadd 61 0 0 0, .vfma 63 0 0 0 0 default, .vmov 61 0 0, .vcmp .eq 1 60 0 0, .vqpack .int 60 0 0, .vqunpk 0 60 0, .vperm 0 60 0 0,
   .vred .add 1 60 0 .rne .sat, .vcmprs 60 0 0, .vmatch 2 0 0, .vmatch 60 0 0, .xvdepth 60 0, .vdp4 60 0 0 0 0 .rne .sat, .xv 60 0 0 0,
   .xvS0 0 60 0 0, .xvS1 0 0 60 0, .xvpush 60 0, .xvpop 60 0, .xvpeek 60 0, .mmad .i8 1 59 0, .mdrain 3 57 0 0, .mfill 2 0 58 0, .lget 1 60 1,
   .lput 60 1 1, .vld 59 1 60 0 0 (mq .b64), .vld 1 1 60 0 0 (mq .b64), .vst 60 1 60 0 0 (mq .b32), .vld 0 1 61 0 0 (mq .b32)] = true := by
  decide
/-- R96, R97: VCVT between a format and itself; RM or OVF of a reduction that is not FADD. -/
theorem test_wf_conversions_and_reductions : refuses
  [.vcvt .f32 .f32 0 0 0 .rne .sat false, .vred .add 1 0 0 .rtz .sat, .vscan .add 0 0 0 .rne .inf] = true := by decide
/-- R98: ORD, SCOPE and SX of accesses; widths and operands of atomics. -/
theorem test_wf_memory_qualifiers : refuses
  [.sld 1 2 0 { mq .b32 with order := .rel, scope := .cluster }, .sst 1 2 0 { mq .b32 with order := .acq, scope := .cluster },
   .sld 1 2 0 { mq .b32 with scope := .cluster }, .sst 1 2 0 (mq .b32 true), .sld 1 2 0 (mq .b64 true), .vld 0 1 60 0 0 (mq .b32 true),
   .satom .fadd 1 2 0 (aq true), .satom .cas 63 2 0 (aq), .vatom .cas 59 1 60 0 0 (aq), .vatom .cas 2 1 60 0 0 (aq true),
   .vatom .add 1 1 60 0 0 (aq true), .mred .swap 0 1 60 0 0 (aq), .mred .cas 0 1 60 0 0 (aq), .fence 0 .cluster, .fenceAcq 0 .cluster,
   .fenceRel 0 .cluster, .mwait 1 2 3 { wide := false, strm := 0, scope := .cluster, acquire := false },
   .mwaitLit 1 2 { wide := false, strm := 0, scope := .cluster, acquire := false } 0] = true := by decide
/-- R98, R208, R209, R303: rendezvous numbers, registers of capsule instructions, the pair of FBPOP. -/
theorem test_wf_other_fields : refuses
  [.barinit 24 1, .bararr 1 24, .barwait 24 1, .barsync 63, .capenter 0 1 2 4, .capenter 1 48 2 4, .capenter 1 2 55 4, .capexit 47,
   .capexit 56, .fbpop 3 1] = true := by decide
/-- R7, R8, R20, R259: steps that name no wave, bank, core, partition, queue or die of the device. -/
theorem test_wf_steps : refuses
  [.kill 8192 1, .xvRetire 8192, .tblldComplete 1024, .quarantine 512, .partitionHalt 48, .packetFetch 192 0, .queueEnable 0 8,
   .hxtLaunchMessage 0 12 0 (List.replicate 8 0), .hxtLaunchMessage 0 0 0 [], .worldWrite 8 0, .bounceResync 0 4 0, .flowValidClear 0 4096,
   .networkMessagePlacement 196608 [], .pcieCxlRequest 4 false 0 8 0, .lerridHartMemoryAccess 64 .load 0 8 0, .crossDieWriteApply 8 0 [],
   .cfeChoice 48 0 0] = true := by decide

/-! ### States that meet the hypotheses of the obligations -/

theorem witness_ScalarInstructionsWriteTheirResult :
    (∃ F, saluForm base (.add 1 2 3) = some F ∧ base.allows F.names) ∧
    (∃ F, saluForm (capsuled 63) (.mulhLit 48 55 0xFFFFFFFF) = some F ∧ (capsuled 63).allows F.names) ∧
    (∃ F, saluForm base (.popc 0 63) = some F ∧ base.allows F.names) ∧
    (∃ F, immForm base (.addi 5 6 0xFFF) = some F ∧ base.allows F.names) ∧
    (∃ F, immForm (capsuled 0) (.shai 48 0 63) = some F ∧ (capsuled 0).allows F.names) :=
  ⟨⟨_, rfl, .inl (unl (by decide +kernel))⟩, ⟨_, rfl, .inr ⟨inStep 63, by decide +kernel, by decide, by decide⟩⟩,
   ⟨_, rfl, .inl (unl (by decide +kernel))⟩, ⟨_, rfl, .inl (unl (by decide +kernel))⟩,
   ⟨_, rfl, .inr ⟨inStep 0, by decide +kernel, by decide, by decide⟩⟩⟩

theorem witness_BranchesAndNopsMoveTheirSlot :
    (goesOnOnly .nop = true ∧ goesOnOnly (.dinv 1 2) = true ∧ base.unlimited) ∧
    (waveNo base.cur.1 ∈ (base.bank (bankOf base.cur.1)).order) ∧
    (∃ F, branchForm base (.beqz 0 0x2000) = some F ∧ F.taken = true ∧ base.lets F.names) ∧
    (∃ F, branchForm base (.ballLit 3 0x100) = some F ∧ F.taken = false ∧ base.lets F.names) ∧
    (∃ F, branchForm (capsuled 5) (.bgtz 48 4) = some F ∧ F.taken = false ∧ (capsuled 5).lets F.names) :=
  ⟨⟨rfl, rfl, unl (by decide +kernel)⟩, by decide +kernel, ⟨_, rfl, by decide +kernel, .inl (unl (by decide +kernel))⟩,
   ⟨_, rfl, by decide +kernel, unl (by decide +kernel)⟩,
   ⟨_, rfl, by decide +kernel, .inr ⟨inStep 5, by decide +kernel, by decide, by decide⟩⟩⟩

theorem witness_JumpsAndTrapsGoWhereTheySay :
    (base.cw.handler = false ∧ base.cw.capsule = none) ∧ (handled).cw.handler = true ∧
    (∃ len link, jumpForm (regs [(5, 0x10002)]) (.jmpi 5) = some (0x10002, len, link) ∧ (0x10002 : Word).toNat % 4 ≠ 0 ∧
      (regs [(5, 0x10002)]).cw.capsule = none) ∧
    (∃ t len, jumpForm base (.call 0xFFFFFF) = some (t, len, true) ∧ jumpsThrough (.call 0xFFFFFF) = false) ∧
    (∃ len link, jumpForm (regs [(63, 0x10004)]) (.calli 63) = some (0x10004, len, link) ∧
      (0x10004 : Word).toNat % 4 = 0) :=
  ⟨⟨by decide +kernel, by decide +kernel⟩, by decide +kernel,
   ⟨4, false, by decide +kernel, by decide, by decide +kernel⟩, ⟨_, _, rfl, rfl⟩, ⟨4, true, by decide +kernel, by decide⟩⟩

/-- A wave with a handler at 0x10400. -/
def withHandler (s : State := base) : State := onWave (fun W => { W with trap := { W.trap with thndl := 0x10400 } }) s

theorem witness_TrapsEnterTheHandlerOrPark :
    (Cause.swtrap.service = false ∧ (withHandler.wave 0).trap.thndl ≠ 0 ∧ (withHandler.wave 0).handler = false ∧
      (withHandler.wave 0).capsule = none) ∧
    (Cause.machine.service = true ∧ (withHandler.wave 0).capsule = none) ∧ ((base.wave 0).trap.thndl = 0 ∧
      (base.wave 0).capsule = none) ∧ (((handled withHandler).wave 0).handler = true ∧ ((handled withHandler).wave 0).capsule = none) := by
  decide +kernel

theorem witness_TretRestoresBothSlots :
    (∃ a b, (handled).cw.handler = true ∧ (handled).cw.frozen = some (a, b) ∧ (handled).cw.capsule = none) ∧
    base.cw.handler = false :=
  ⟨⟨{ (base.wave 0).slotA with pc := 0x10040 }, Slot.free, by decide +kernel⟩, by decide +kernel⟩

theorem witness_ChecksComeBeforeEffects :
    (privileged (.banksw 1) = true ∧ tenant.cw.system = false) ∧
    (featureBit (.vqunpk 1 2 0) = some 0 ∧ featureBit (.vdp4 0 1 2 3 0 .rne .sat) = some 4 ∧
      ∃ s : State, s.cw.system = true ∧ (s.part (s.partOf s.cur.1)).featmask.getLsbD 0 = true ∧
        (s.part (s.partOf s.cur.1)).featmask.getLsbD 4 = true) ∧
    ((capsuled 64).cw.capsule = some (inStep 64) ∧ (capsuled 64).cw.handler = false) ∧
    (let i : Instr := .vld 0 0 60 0 0 { size := .b32, strm := 0, scope := .wave, order := .plain, cache := .default, sx := false }
     i.isInstruction = true ∧ (capsuled 0).passes i ∧ bodyRegs (capsuled 0) i = none) ∧
    (let i : Instr := .swr 48 0x01B
     i.isInstruction = true ∧ (capsuled 0).passes i ∧ bodyRegs (capsuled 0) i = none) ∧
    (let i : Instr := .add 1 48 49
     i.isInstruction = true ∧ (capsuled 0).passes i ∧ ∃ l, bodyRegs (capsuled 0) i = some l ∧ ¬ (∀ r ∈ l, bodyReg r)) ∧
    (let i : Instr := .capexit 56
     i.isInstruction = true ∧ (capsuled 0).passes i ∧ ∃ l, bodyRegs (capsuled 0) i = some l ∧ ¬ (∀ r ∈ l, bodyReg r)) ∧
    (let i : Instr := .addi 48 0 1
     i.isInstruction = true ∧ (capsuled 64).passes i ∧ (∃ l, bodyRegs (capsuled 64) i = some l ∧ ∀ r ∈ l, bodyReg r) ∧
       64 ≤ (inStep 64).instrs) := by
  have pass : ∀ k i, privileged i = false → readsLatch i = false → i ≠ .tret →
      (∀ n, featureBit i = some n → n = 2) → (∀ r n, i ≠ .srd r n) → (∀ r n, i = .swr r n → n = 0x01B) → (capsuled k).passes i := by
    intro k i hp hl ht hf hr hw
    refine ⟨fun h => absurd (hp.symm.trans h) (by decide), fun n hn => ?_, hl, ht, fun r n h => absurd h (hr r n), fun r n h => ?_⟩
    · rw [hf n hn]; exact (by decide +kernel : (base.part (base.partOf base.cur.1)).featmask.getLsbD 2 = false)
    · rw [hw r n h]
      have hs : (capsuled k).cw.system = true := (by decide +kernel : (base.wave 0).system = true)
      exact ⟨rfl, fun h => absurd h (by decide), by rw [hs]; rfl⟩
  refine ⟨by decide +kernel, ⟨rfl, rfl, base.setPart 0 { Part.zero with featmask := 0x1F }, by decide +kernel⟩, by decide +kernel,
    ⟨rfl, pass _ _ rfl rfl nofun nofun nofun nofun, rfl⟩, ⟨rfl, pass _ _ rfl rfl nofun nofun nofun ?_, rfl⟩,
    ⟨rfl, pass _ _ rfl rfl nofun nofun nofun nofun, _, rfl, ?_⟩, ⟨rfl, pass _ _ rfl rfl nofun ?_ nofun nofun, _, rfl, ?_⟩,
    ⟨rfl, pass _ _ rfl rfl nofun nofun nofun nofun, ⟨_, rfl, ?_⟩, by decide⟩⟩
  · intro r n h; cases h; rfl
  all_goals first | (unfold bodyReg; decide) | (intro n h; cases h; rfl)

theorem witness_SrdReadsAndAccessIsChecked :
    (base.cw.capsule = none ∧ sprAccess base.cw.system 0x000 = .ro ∧ sprAccess base.cw.system 0x130 = .rw) ∧
    (∃ x, sprValue base 0x117 = some x) ∧
    (∃ T L x, base.teamOf base.cur.1 = some T ∧ base.launchOf T.launch = some L ∧ identityValue base T L 0x031 = some x) ∧
    (sprAccess base.cw.system 0x11F = .rw) ∧ sprAccess tenant.cw.system 0x00C = .unassigned ∧
    sprAccess tenant.cw.system 0x040 = .ro ∧ sprAccess tenant.cw.system 0x100 = .dash := by
  refine ⟨by decide +kernel, ⟨_, rfl⟩, ?_, by decide +kernel, by decide +kernel, by decide +kernel, by decide +kernel⟩
  exact ⟨(base.teamOf 0).get (by decide +kernel), (base.launchOf 0).get (by decide +kernel), _, by decide +kernel,
    by decide +kernel, rfl⟩

theorem witness_SwrWritesSpecialRegisters :
    (∃ s : State, s.cw.capsule = none ∧ s.cw.system = true ∧ (s.core (coreOf s.cur.1)).checks ≠ [] ∧ (s.core (coreOf s.cur.1)).margin.errs ≠ []) ∧
    (tenant.cw.capsule = none ∧ sprAccess tenant.cw.system 0x01B = .rw ∧ sprAccess tenant.cw.system 0x050 = .rw) ∧
    (∃ W, sprWritten tenant.cw 0x01D (tenant.S 5) = some W) ∧
    (base.cw.capsule = none ∧ base.cw.system = true ∧ ∃ P, partWritten (base.part 0) 0x120 (base.S 5) = some P) :=
  ⟨⟨base.setCore 0 { base.core 0 with
      checks := [{ wave := 0, x := .b, again := true, stage := 2, pc := 0, entered := 1, rerolls := 0, inj := true, pers := false
                   fired := true, armed := true, words := [], phase := .failing }]
      margin := { (base.core 0).margin with errs := [0] } }, by decide +kernel⟩,
   by decide +kernel, ⟨_, rfl⟩, by decide +kernel, by decide +kernel, _, rfl⟩


/-- A slot whose chain has had `n` members that read v3, headed at 0xFF00. -/
def chained (n : Nat) (bad : Bool := false) (s : State := base) : State :=
  onSlot (fun t => { t with chain := some { head := 0xFF00, pipe := .vp0, count := n, reads := 8, headBad := bad } }) s
/-- v1 holds the largest finite FP32 value in every lane. -/
def big : State := lanes 1 fun _ => 0x7F7FFFFF
/-- The same with lanes 0 and 1 alone. -/
def few : State := onSlot (fun t => { t with mask := 3 }) big
def trapQ : FpQ := { rm := .rne, ovf := .trap, fmt := .f32 }

/-- An instruction that reads no latch meets no latch rule. -/
theorem no_latch {F : VectorForm} {t : Slot} (h : F.need = 0) : ¬ F.noChain t ∧ ∀ c, ¬ F.breaks t c :=
  ⟨fun k => k.1 h, fun _ k => k.1 h⟩

theorem witness_VbrSplitsAndPushes :
    (∃ x, vbrForm base (.vbr 3 16) = some x ∧ base.cw.capsule = none ∧ base.cw.handler = false) ∧
    (onSlot fun t => { t with depth := 255 }).cs.depth = 255 ∧
    (takenLanes base 3 = 0 ∧ base.cs.depth ≠ 255) ∧ (takenLanes base 0 ≠ 0 ∧ fallLanes base 0 = 0) ∧
    (∃ s : State, takenLanes s 3 ≠ 0 ∧ fallLanes s 3 ≠ 0 ∧ s.otherCs.live = false ∧ s.cs.depth ≠ 255) ∧
    (∃ s : State, takenLanes s 3 ≠ 0 ∧ fallLanes s 3 ≠ 0 ∧ s.cs.depth ≠ 255 ∧ s.otherCs.live = true ∧
      s.inChain s.cur.1 (otherSlot s.cur.2) = true) ∧
    (∃ (s : State) (loc : Loc) (leaf : Option Leaf), takenLanes s 3 ≠ 0 ∧ fallLanes s 3 ≠ 0 ∧ s.cs.depth ≠ 255 ∧ s.otherCs.live = true ∧
      s.inChain s.cur.1 (otherSlot s.cur.2) = false ∧ s.cw.dsp.toNat + 32 ≤ s.cw.dslim.toNat ∧ s.otherCs.park.isOp = false ∧
      resolve s s.cur.1 .push s.cw.dsp 32 = .ok loc leaf ∧ s.cw.gateHits loc 32 = false ∧
      let g : Gated := { x := .b, mask := 1, pc := 0x10000, hand := false, stages := [5]
                         effect := .store [{ addr := 0, loc := .share 0 0x101F, size := 1, value := 7, norep := false }] }
      resolve { s with waves := [(0, { s.cw with gates := [g] })] } s.cur.1 .push s.cw.dsp 32 = .ok loc leaf ∧
        { s.cw with gates := [g] }.gateHits loc 32 = true) ∧
    (∃ s : State, takenLanes s 3 ≠ 0 ∧ fallLanes s 3 ≠ 0 ∧ s.cs.depth ≠ 255 ∧ s.otherCs.live = true ∧
      s.inChain s.cur.1 (otherSlot s.cur.2) = false ∧ s.cw.dslim.toNat < s.cw.dsp.toNat + 32) := by
  refine ⟨⟨_, rfl, by decide +kernel, by decide +kernel⟩, by decide +kernel, by decide +kernel, by decide +kernel, ?_, ?_, ?_, ?_⟩
  · exact ⟨onWave fun W => { W with kregs := [(3, 1)] }, by decide +kernel⟩
  · exact ⟨{ (onWave (fun W => { W with kregs := [(3, 1)], slotB := { W.slotA with chain := none } })
      (chained 1 (s := base.storeBytes 0x10000 [0x58, 0x10, 0x00, 0xFC]))) with cur := (0, .b) }, by decide +kernel⟩
  · exact ⟨onWave fun W => { W with kregs := [(3, 1)], slotB := W.slotA, dslim := W.dsp + 32 }, .share 0 0x1000, none, by decide +kernel⟩
  · exact ⟨onWave fun W => { W with kregs := [(3, 1)], slotB := W.slotA, dslim := W.dsp + 31 }, by decide +kernel⟩

/-- Both slots live at depth 1, slot B waiting at JOIN if `wait`. -/
def diverged (wait : Bool) : State :=
  onWave fun W => { W with slotA := { W.slotA with depth := 1, mask := 1 }, slotB := { W.slotA with depth := 1, mask := 2, waiting := wait } }

/-- Slot A alone at depth 1, with `n` entries on its stack and the bytes `l` in the bank's share; slot B as `y` makes it. -/
def stacked (n : Nat) (l : List (Nat × Byte)) (y : Slot → Slot := fun _ => Slot.free) : State :=
  onBank (fun b => { b with share := l }) (onWave fun W => { W with
    slotA := { W.slotA with depth := 1, mask := 1 }, slotB := y { W.slotA with mask := 2 }
    entries := n, dsp := W.dsp + BitVec.ofNat 64 (32 * n) })
/-- An entry of lane 1 at depth 0, at the place of the wave's first or second entry, waiting at JOIN if `wait`. -/
def anEntry (k : Nat) (wait : Bool) : List (Nat × Byte) := (0x1008 + 32 * k, 2) :: if wait then [(0x1019 + 32 * k, 1)] else []
/-- The top entry of a wave's stack is read at `loc`. -/
def topAt (s : State) (loc : Loc) : Prop := ∃ leaf, resolve s s.cur.1 .pop (s.cw.dsp - 32) 32 = .ok loc leaf
/-- What holds of the entry at a place. -/
def entryHas (s : State) (loc : Loc) (p : Slot → Bool) : Bool := p (s.entryAt loc s.cw.liveLanes)

theorem witness_JoinAndEndFollowTheStack :
    (base.cs.depth = 0 ∧ base.cw.capsule = none ∧ base.cw.handler = false) ∧
    ((diverged true).cs.depth ≠ 0 ∧ (diverged true).cs.live = true ∧ (diverged true).otherCs.live = true ∧
      (diverged true).otherCs.depth = (diverged true).cs.depth ∧ (diverged true).otherCs.waiting = true ∧
      (diverged true).cw.entries = 0 ∧ (diverged true).cs.waiting = false) ∧
    ((diverged false).cs.depth ≠ 0 ∧ (diverged false).otherCs.live = true ∧
      (diverged false).otherCs.depth = (diverged false).cs.depth ∧ (diverged false).otherCs.waiting = false) ∧
    (let s := onSlot fun t => { t with depth := 1 }; s.cs.depth ≠ 0 ∧ s.cs.live = true ∧ s.cs.waiting = false ∧
      ¬ (s.otherCs.live = true ∧ s.otherCs.depth = s.cs.depth) ∧ s.cw.entries = 0) ∧
    (base.cw.handler = false ∧ base.otherCs.live = false ∧ base.cw.entries = 0) ∧
    ((handled).cw.handler = true ∧ (handled).cw.capsule = none ∧ (handled).opBanksOf (handled).cur.1 = []) := by decide +kernel

theorem witness_PopDueWithALiveSlot :
    (∃ (s : State) (W : Wave) (loc : Loc) (leaf : Option Leaf), (W.slot .a).live = false ∧ W.entries ≠ 0 ∧
      resolve s 0 .pop (W.dsp - 32) 32 = .ok loc leaf ∧ W.gateHits loc 32 = false ∧ (W.slot .b).live = true ∧ s.poisonLoc loc 32 = false ∧
      (let v := s.readLoc 0 loc 32; (W.slot .b).depth = BitVec.ofNat 8 (v / 2 ^ 192 % 256) ∧ BitVec.ofNat 128 (v / 2 ^ 64 % 2 ^ 128) &&& W.liveLanes ≠ 0)) ∧
    (∃ (s : State) (W : Wave) (loc : Loc) (leaf : Option Leaf), (W.slot .a).live = false ∧ W.entries ≠ 0 ∧
      resolve s 0 .pop (W.dsp - 32) 32 = .ok loc leaf ∧ W.gateHits loc 32 = false ∧ (W.slot .b).live = true ∧ s.poisonLoc loc 32 = true ∧
      (W.slot .b).depth = BitVec.ofNat 8 (s.readLoc 0 loc 32 / 2 ^ 192 % 256)) ∧
    (∃ (s : State) (W : Wave) (loc : Loc) (leaf : Option Leaf), (W.slot .a).live = false ∧ W.entries ≠ 0 ∧
      resolve s 0 .pop (W.dsp - 32) 32 = .ok loc leaf ∧ W.gateHits loc 32 = false ∧ (W.slot .b).live = true ∧ (W.slot .b).waiting = false ∧
      (W.slot .b).depth ≠ BitVec.ofNat 8 (s.readLoc 0 loc 32 / 2 ^ 192 % 256)) := by
  refine ⟨⟨onBank fun b => { b with share := [(0x1008, 3)] },
      { (base.wave 0) with slotA := Slot.free, slotB := (base.wave 0).slotA, entries := 1, dsp := (base.wave 0).dsp + 32 },
      .share 0 0x1000, none, ?_⟩,
    ⟨{ base with poison := [(2 ^ 60 + 0x1000, true)] },
      { (base.wave 0) with slotA := Slot.free, slotB := (base.wave 0).slotA, entries := 1, dsp := (base.wave 0).dsp + 32 },
      .share 0 0x1000, none, ?_⟩,
    base, { (base.wave 0) with
      slotA := Slot.free, slotB := { (base.wave 0).slotA with depth := 1 }, entries := 1, dsp := (base.wave 0).dsp + 32 },
      .share 0 0x1000, none, ?_⟩ <;> decide +kernel

/-- JOIN in slot A with slot B free: the top entry resumes in slot B, stays at another depth, or is dropped, or cannot be read. -/
theorem witness_JoinPops :
    (let s := stacked 0 [] id; s.plainMode ∧ s.cs.depth ≠ 0 ∧ s.cs.live = true ∧ s.cs.waiting = false ∧ s.otherCs.live = true ∧
      s.otherCs.depth ≠ s.cs.depth) ∧
    (let s := stacked 1 (anEntry 0 false); s.plainMode ∧ s.cs.depth = 1 ∧ s.otherCs.live = false ∧ s.cw.entries ≠ 0 ∧
      topAt s (.share 0 0x1000) ∧ s.poisonLoc (.share 0 0x1000) 32 = false ∧ s.cw.gateHits (.share 0 0x1000) 32 = false ∧
      entryHas s (.share 0 0x1000) (fun e => e.depth == s.cs.depth - 1 && e.mask != 0) = true) ∧
    (let s := stacked 1 ((0x1018, 9) :: anEntry 0 false); topAt s (.share 0 0x1000) ∧
      entryHas s (.share 0 0x1000) (fun e => e.depth != s.cs.depth - 1) = true) ∧
    (let s := stacked 1 []; topAt s (.share 0 0x1000) ∧ s.cw.entries = 1 ∧
      entryHas s (.share 0 0x1000) (fun e => e.depth == s.cs.depth - 1 && e.mask == 0) = true) ∧
    (let s := { stacked 1 [] with poison := [(2 ^ 60 + 0x101F, true)] }
     s.poisonLoc (.share 0 0x1000) 32 = true ∧ entryHas s (.share 0 0x1000) (fun e => e.depth == s.cs.depth - 1) = true) ∧
    (∃ s : State, s.cw.entries ≠ 0 ∧ resolve s s.cur.1 .pop (s.cw.dsp - 32) 32 = .fault .spbound) ∧
    (∃ (s : State) (a gsz : Nat), s.cw.entries ≠ 0 ∧ resolve s s.cur.1 .pop (s.cw.dsp - 32) 32 = .park a gsz) := by
  have top : ∀ {s : State}, resolve s s.cur.1 .pop (s.cw.dsp - 32) 32 = .ok (.share 0 0x1000) none → topAt s (.share 0 0x1000) :=
    fun h => ⟨_, h⟩
  have plain : ∀ {s : State}, s.cw.capsule = none ∧ s.cw.handler = false → s.plainMode := id
  refine ⟨⟨plain (by decide +kernel), by decide +kernel⟩, ⟨plain (by decide +kernel), by decide +kernel, by decide +kernel, by decide +kernel,
    top (by decide +kernel), by decide +kernel⟩, ⟨top (by decide +kernel), by decide +kernel⟩, ⟨top (by decide +kernel), by decide +kernel⟩,
    by decide +kernel, ⟨onWave fun W => { W with entries := 1, dsp := W.dslim + 32 }, by decide +kernel⟩,
    ⟨(onWave fun W => { W with entries := 1, dsp := 0x40000020 }).setReg (vfOff 0) 0x1007, 0x40000000, 3, by decide +kernel⟩⟩

/-- END in slot A: with slot B live, with both slots free and one entry or two. -/
theorem witness_EndPops :
    (let s := stacked 1 ((0x1018, 9) :: anEntry 0 false) id; s.plainMode ∧ s.otherCs.live = true ∧ s.otherCs.waiting = false ∧
      topAt s (.share 0 0x1000) ∧ entryHas s (.share 0 0x1000) (fun e => e.depth != s.otherCs.depth) = true) ∧
    (let s := stacked 1 (anEntry 0 false) id; s.otherCs.live = true ∧ topAt s (.share 0 0x1000) ∧
      s.poisonLoc (.share 0 0x1000) 32 = false ∧ (s.entryAt (.share 0 0x1000) (s.cw.liveLanes &&& ~~~s.cs.mask)).mask ≠ 0 ∧
      entryHas s (.share 0 0x1000) (fun e => e.depth == s.otherCs.depth) = true) ∧
    (let s := { stacked 1 (anEntry 0 false) with poison := [(2 ^ 60 + 0x1000, true)] }
     s.otherCs.live = false ∧ s.poisonLoc (.share 0 0x1000) 32 = true) ∧
    (let s := stacked 1 []; s.otherCs.live = false ∧ topAt s (.share 0 0x1000) ∧ s.cw.entries = 1 ∧
      (s.entryAt (.share 0 0x1000) (s.cw.liveLanes &&& ~~~s.cs.mask)).mask = 0) ∧
    (∀ wait, let s := stacked 1 (anEntry 0 wait); s.otherCs.live = false ∧ topAt s (.share 0 0x1000) ∧ s.cw.entries = 1 ∧
      s.poisonLoc (.share 0 0x1000) 32 = false ∧ (s.entryAt (.share 0 0x1000) (s.cw.liveLanes &&& ~~~s.cs.mask)).mask ≠ 0 ∧
      (s.entryAt (.share 0 0x1000) s.cw.liveLanes).waiting = wait) ∧
    (∀ d : Bool, let s := stacked 2 ((if d then [(0x1018, 9)] else []) ++ anEntry 0 false ++ anEntry 1 false)
      s.otherCs.live = false ∧ 1 < s.cw.entries ∧ topAt s (.share 0 0x1020) ∧ s.poisonLoc (.share 0 0x1020) 32 = false ∧
      resolve (s.holdRes s.cur.1 (s.cw.dsp - 32) (.ok (.share 0 0x1020) none)) s.cur.1 .pop (s.cw.dsp - 32 - 32) 32 =
        .ok (.share 0 0x1000) none ∧
      let e := s.entryAt (.share 0 0x1020) (s.cw.liveLanes &&& ~~~s.cs.mask)
      let e2 := s.entryAt (.share 0 0x1000) (s.cw.liveLanes &&& ~~~s.cs.mask)
      e.mask ≠ 0 ∧ e.waiting = false ∧ e2.mask ≠ 0 ∧ decide (e2.depth ≠ e.depth) = d ∧ s.poisonLoc (.share 0 0x1000) 32 = false) := by
  have top : ∀ {s : State} {l : Loc}, resolve s s.cur.1 .pop (s.cw.dsp - 32) 32 = .ok l none → topAt s l := fun h => ⟨_, h⟩
  have plain : ∀ {s : State}, s.cw.capsule = none ∧ s.cw.handler = false → s.plainMode := id
  refine ⟨⟨plain (by decide +kernel), by decide +kernel, by decide +kernel, top (by decide +kernel), by decide +kernel⟩,
    ⟨by decide +kernel, top (by decide +kernel), by decide +kernel⟩, by decide +kernel,
    ⟨by decide +kernel, top (by decide +kernel), by decide +kernel⟩, fun wait => ?_, fun d => ?_⟩
  · cases wait <;> exact ⟨by decide +kernel, top (by decide +kernel), by decide +kernel⟩
  · cases d <;> exact ⟨by decide +kernel, by decide +kernel, top (by decide +kernel), by decide +kernel⟩

theorem witness_VectorIntegerWritesItsLanes :
    (∃ F, vectorIntForm base (.vadd 1 2 3 0) = some F ∧ base.cw.capsule = none ∧ ¬ F.noChain base.cs ∧ ∀ c, ¬ F.breaks base.cs c) ∧
    (∃ F, vectorIntForm (chained 1) (.vmadLit 60 60 4 2 0xFFFFFFFF) = some F ∧ ¬ F.noChain (chained 1).cs ∧
      ∀ c, ¬ F.breaks (chained 1).cs c) := by
  refine ⟨⟨_, rfl, by decide +kernel, no_latch (by decide)⟩, _, rfl, ?_, ?_⟩
  · rintro ⟨-, h | h⟩
    · cases h
    · exact absurd (h _ (by decide +kernel : (chained 1).cs.chain = some ⟨0xFF00, .vp0, 1, 8, false⟩)) (by decide)
  · rintro c ⟨-, -, h, -, k⟩
    have hc : c = ⟨0xFF00, .vp0, 1, 8, false⟩ :=
      Option.some.inj (h.symm.trans (by decide +kernel : (chained 1).cs.chain = some ⟨0xFF00, .vp0, 1, 8, false⟩))
    subst hc
    rcases k with k | k | ⟨k, -⟩ | ⟨v, -, k, l⟩
    · exact absurd k (by decide)
    · exact absurd k (by decide)
    · exact absurd k (by decide)
    · subst k; exact absurd l (by decide)

theorem witness_VectorFloatWritesItsLanes :
    (∃ F, vectorFloatForm base (.vfma 1 2 3 4 0 trapQ) = some F ∧ base.cw.capsule = none ∧ ¬ F.noChain base.cs ∧
      (∀ c, ¬ F.breaks base.cs c) ∧ ∀ j, j < 128 → F.lanes.getLsbD j = true → F.val j ≠ none) ∧
    (∃ F, vectorFloatForm base (.vcvt .f32 .n8 60 2 0 .rne .sat true) = some F ∧ F.stoch = true ∧ ¬ F.noChain base.cs ∧
      (∀ c, ¬ F.breaks base.cs c) ∧ ∀ j, j < 128 → F.lanes.getLsbD j = true → F.val j ≠ none) := by
  refine ⟨⟨_, rfl, by decide +kernel, ?_, ?_, by decide +kernel⟩, ⟨_, rfl, rfl, ?_, ?_, by decide +kernel⟩⟩
  · exact (no_latch (by decide)).1
  · exact (no_latch (by decide)).2
  · exact (no_latch (by decide)).1
  · exact (no_latch (by decide)).2

theorem witness_OverflowTrapsItsLanes :
    ∃ F, vectorFloatForm few (.vfadd 2 1 1 0 trapQ) = some F ∧ few.cw.capsule = none ∧ ¬ F.noChain few.cs ∧
      (∀ c, ¬ F.breaks few.cs c) ∧ (3 : Mask) ≠ 0 ∧
      ∀ j, j < 128 → ((3 : Mask).getLsbD j = true ↔ F.lanes.getLsbD j = true ∧ F.val j = none) := by
  refine ⟨_, rfl, by decide +kernel, ?_, ?_, by decide, by decide +kernel⟩
  · exact (no_latch (by decide)).1
  · exact (no_latch (by decide)).2

theorem witness_LatchRulesTrap :
    (∃ F, vectorForm base (.vadd 1 60 2 0) = some F ∧ F.noChain base.cs) ∧
    (∃ F, vectorForm (chained 8) (.vadd 1 60 2 0) = some F ∧ F.noChain (chained 8).cs) ∧
    (∃ F, vectorForm (chained 1) (.vadd 1 61 2 0) = some F ∧ F.breaks (chained 1).cs ⟨0xFF00, .vp0, 1, 8, false⟩) ∧
    (∃ F, vectorForm (chained 7) (.vmov 3 60 0) = some F ∧ F.breaks (chained 7).cs ⟨0xFF00, .vp0, 7, 8, false⟩) ∧
    (∃ F, vectorForm (chained 1 true) (.vmov 4 60 0) = some F ∧ F.breaks (chained 1 true).cs ⟨0xFF00, .vp0, 1, 8, true⟩) := by
  refine ⟨⟨_, rfl, by decide, .inr ?_⟩, ⟨_, rfl, by decide, .inr ?_⟩,
    ⟨_, rfl, by decide, rfl, by decide +kernel, by decide, .inl (by decide)⟩,
    ⟨_, rfl, by decide, rfl, by decide +kernel, by decide, .inr (.inr (.inl (by decide)))⟩,
    ⟨_, rfl, by decide, rfl, by decide +kernel, by decide, .inr (.inl rfl)⟩⟩
  · intro c h; exact absurd h (by rw [(by decide +kernel : base.cs.chain = none)]; simp)
  · intro c h
    rw [(by decide +kernel : (chained 8).cs.chain = some ⟨0xFF00, .vp0, 8, 8, false⟩)] at h
    cases h; decide

theorem witness_RoundingIsOnceAndCorrect :
    (∃ b, FFmt.f32.round .rne (.fin false 3 (-150)) = .bits b) ∧ (∃ n, FFmt.f16.round .rup (.fin true 1 16) = .over n) ∧
    ((-150 : Int) ≤ FFmt.f32.emin ∧ (-26 : Int) ≤ FFmt.f16.emin) ∧ FFmt.f16.round .rtz (.fin true 65536 0) = .over true ∧
    (FFmt.f16.round .rtz (.fin false 4 (-26)) = .bits 1 ∧ FFmt.f16.isUnits 1 (-26) 4 ∧ (4 : Int) = unitsOf false 4 (-26) (-26)) ∧
    (FFmt.f16.round .rtz (.fin false 65505 0) = .bits 31743 ∧ FFmt.f16.round .rup (.fin false 65505 0) = .over false ∧
      ∃ v, FFmt.f16.isUnits 31743 (-24) v ∧ v ≠ unitsOf false 65505 0 (-24)) ∧
    (FFmt.f16.round .rtz (.fin false 3 (-26)) = .bits 0 ∧ FFmt.f16.round .rup (.fin false 3 (-26)) = .bits 1 ∧
      FFmt.f16.isUnits 0 (-26) 0 ∧ (0 : Int) ≠ unitsOf false 3 (-26) (-26)) := by
  refine ⟨⟨_, rfl⟩, ⟨_, rfl⟩, by decide, by decide, ⟨by decide, ⟨by decide, _, _, _, rfl, by decide, rfl⟩, by decide⟩,
    ⟨by decide, by decide, _, ⟨by decide, _, _, _, rfl, by decide, rfl⟩, by decide⟩,
    by decide, by decide, ⟨by decide, _, _, _, rfl, by decide, rfl⟩, by decide⟩

theorem witness_ConversionsRoundAndFit :
    ((-149 : Int) ≤ 0 ∧ (-149 : Int) ≤ -3) ∧ 0x7E000000 < 2 ^ FFmt.f32.width ∧
    FFmt.f32.value 0x7FC00000 = .nan ∧ FFmt.f32.value 0xFF800000 = .inf true ∧ (∃ m e, FFmt.f16.value 0xC100 = .fin true m e) ∧
    (let t : IFmt := { width := 8, signed := true }; 0 < t.width ∧ t.lo ≤ -128 ∧ ¬ 128 ≤ t.hi) ∧
    (let t : IFmt := { width := 32, signed := false }; 0 < t.width ∧ ¬ t.lo ≤ -1 ∧ 4294967295 ≤ t.hi) := by
  refine ⟨by decide, by decide, by decide, by decide, ⟨_, _, rfl⟩, by decide, by decide⟩

/-- A finite pattern, of units no smaller than 2^−512. -/
def finite (f : FFmt) (x : Rounded) : Bool :=
  match x with
  | .bits b => decide (b < 2 ^ f.width) && (match f.value b with | .fin _ _ e => decide (-512 ≤ e) | _ => false)
  | _ => false

theorem finite_bits {f : FFmt} {x : Rounded} (u : Int) (hu : u ≤ -512) (h : finite f x = true) : ∃ b v, x = .bits b ∧ f.isUnits b u v := by
  cases x with
  | bits b =>
    unfold finite at h
    rw [Bool.and_eq_true, decide_eq_true_eq] at h
    match hv : f.value b, h with
    | .fin n m e, ⟨h1, h2⟩ =>
      exact ⟨b, _, rfl, h1, n, m, e, hv, by have := of_decide_eq_true h2; omega, rfl⟩
    | .nan, ⟨_, h2⟩ => cases h2
    | .inf _, ⟨_, h2⟩ => cases h2
  | _ => cases h

theorem finite_pick : finite .f16 (FFmt.f16.pick .tanh 0 false (3 * 2 ^ 511)) = true := by
  unfold FFmt.pick
  dsimp only
  generalize hk : Config.sfn _ _ _ % _ = k
  have : k < 16 := by
    rw [← hk]; exact Nat.lt_of_lt_of_le (Nat.mod_lt _ (by decide +kernel)) (by decide +kernel)
  clear hk
  revert k; decide +kernel

theorem finite_rcp : finite .f32 (FFmt.f32.sfn .rcp 0x40400000) = true := by
  have hv : FFmt.f32.value 0x40400000 = .fin false 12582912 (-22) := by decide
  unfold FFmt.sfn
  rw [hv]
  dsimp only
  rw [if_neg (by decide)]
  unfold FFmt.bounded FFmt.pick
  dsimp only
  generalize hk : Config.sfn _ _ _ % _ = k
  have : k < 16 := by
    rw [← hk]; exact Nat.lt_of_lt_of_le (Nat.mod_lt _ (by decide +kernel)) (by decide +kernel)
  clear hk
  revert k; decide +kernel

theorem witness_SpecialValuesAreWithinTheirBounds :
    (FFmt.f32.value 0x40400000 = .fin false 12582912 (-22) ∧ 0 < 12582912 ∧
      FFmt.f32.ulpAt (-512) (2 ^ 487) (belowExact .rcp 12582912 (-22)) ∧
      ∃ b v, FFmt.f32.sfn .rcp 0x40400000 = .bits b ∧ FFmt.f32.isUnits b (-512) v) ∧
    FFmt.f16.ulpAt (-513) (2 ^ 503) (fun n => n ≤ 3 * 2 ^ 512) ∧
      standsFor .tanh (3 * 2 ^ 511) 1 (2 ^ 502) (3 * 2 ^ 512 - 1) ∧
      ∃ b v, FFmt.f16.pick .tanh 0 false (3 * 2 ^ 511) = .bits b ∧ FFmt.f16.isUnits b (-513) v := by
  refine ⟨⟨by decide, by decide, ?_, finite_bits _ (by decide) finite_rcp⟩, ?_, ?_, finite_bits _ (by decide) finite_pick⟩
  · unfold FFmt.ulpAt belowExact; exact ⟨487, by decide +kernel⟩
  · unfold FFmt.ulpAt; exact ⟨503, by decide +kernel⟩
  · refine ⟨by decide +kernel, by decide +kernel, ?_⟩
    show (3 * 2 ^ 512 - 1) / 2 ^ 502 = (3 * 2 ^ 511 * 2 ^ 1 - 2 ^ (200 + 1)) / 2 ^ 502
    decide +kernel

theorem witness_SpecialValuesAreExact :
    ((Sfn.rcp, 0, 0x7F800000) ∈ [(Sfn.rcp, 0, 0x7F800000)]) ∧ (0x80000000 < 0x80000001 ∧ 0x80000001 ≤ 0xFF800000) ∧
    (0x7F800001 < 2 ^ 32 ∧ FFmt.f32.value 0x7F800001 = .nan) := by decide

theorem witness_MaskRegistersAreWritten :
    (∃ v, kopForm base (.kandn 15 1 2) = some (15, v)) ∧ (∃ v, kopScalar base (.kfirst 0 1) = some (0, v)) ∧
    (62 : SReg).toNat % 2 = 0 ∧ (∃ p k len, cmpForm base (.vcmpLit .flt 2 4 0 0x3F800000) = some (2, p, k, len)) ∧
    base.cw.capsule = none :=
  ⟨⟨_, rfl⟩, ⟨_, rfl⟩, by decide, ⟨_, _, _, rfl⟩, by decide +kernel⟩

theorem witness_LaneInstructionsWriteTheirLanes :
    (∃ d v, laneForm base (.tlstep 5 6) = some (d, v)) ∧ base.cw.capsule = none ∧
    (∃ F, laneOpForm base (.vqpack .int 1 2 0) = some F ∧ ∀ n, F.feat = some n → base.hasFeature n) ∧
    (∃ F, laneOpForm base (.vmatch 56 2 0) = some F ∧ ∀ n, F.feat = some n → base.hasFeature n) := by
  refine ⟨⟨_, _, rfl⟩, by decide +kernel, ⟨_, rfl, ?_⟩, _, rfl, ?_⟩
  · intro n h; cases h; show _ = false; decide +kernel
  · intro n h; cases h

theorem witness_ReductionAndScanKeepTheirOrders :
    base.cw.capsule = none ∧
    (∃ v, treeNode (combine .min .rne .sat) (fun i => if (masked base 0).getLsbD i then base.cw.v 1 i else identityOf .min) 7 0 = some v) ∧
    treeNode (combine .fadd .rne .trap) (fun i => if (masked few 0).getLsbD i then few.cw.v 1 i else identityOf .fadd) 7 0 = none ∧
    (∀ i, i < 128 → (masked base 3).getLsbD i = true → running .add .rne .sat (masked base 3) (base.cw.v 1) i ≠ none) ∧
    (∃ bad : Mask, bad ≠ 0 ∧ ∀ i, i < 128 → (bad.getLsbD i = true ↔
      (masked few 0).getLsbD i = true ∧ running .fadd .rne .trap (masked few 0) (few.cw.v 1) i = none)) := by
  refine ⟨by decide +kernel, ⟨_, rfl⟩, by decide +kernel, by decide +kernel, 2, by decide, by decide +kernel⟩

/-- In lane 0, the only active one, v1 and v2 hold eight codes 7, v3 the scale bytes E = 62 of INT for both, and v4 the
largest finite value. -/
def dots : State := onSlot (fun t => { t with mask := 1 })
  (onWave fun W => { W with vregs := [(128, 0x77777777), (256, 0x77777777), (384, 0x3E3E), (512, 0x7F7FFFFF)] })

theorem witness_DotProductAccumulates :
    (∃ d a c b k rm o len, dotOperand base (.vdp4 0 1 2 3 0 .rne .sat) = some (d, a, c, b, k, rm, o, len)) ∧ base.cw.capsule = none ∧
    (base.part (base.partOf base.cur.1)).featmask.getLsbD 4 = false ∧
    (∀ j, j < 128 → (masked dots 0).getLsbD j = true →
      dotForm .rne .sat (dots.cw.v 4 j) (dots.cw.v 1 j) (dots.operand (.reg 2) j) (dots.cw.v 3 j) ≠ none) ∧
    ∃ (s : State) (bad : Mask), bad ≠ 0 ∧ ∀ j, j < 128 → (bad.getLsbD j = true ↔ (masked s 0).getLsbD j = true ∧
      dotForm .rup .trap (s.cw.v 4 j) (s.cw.v 1 j) (s.operand (.reg 2) j) (s.cw.v 3 j) = none) := by
  refine ⟨⟨_, _, _, _, _, _, _, _, rfl⟩, by decide +kernel, by decide +kernel, by decide +kernel, dots, 1, by decide, ?_⟩
  decide +kernel

theorem witness_QuantisingIsNearestAndUnpackingExact :
    (∀ x ∈ [Machine.Num.fin false 3 0, .fin true 1 (-3)], ∃ n m e, x = .fin n m e) ∧
    (∃ x ∈ [Machine.Num.fin false 3 0, .nan], ∀ n m e, x ≠ .fin n m e) ∧ (255 < 256 ∧ 255 % 64 = 63) ∧ (62 % 64 ≠ 63) := by
  refine ⟨?_, ⟨.nan, by simp, by intros; simp⟩, by decide, by decide⟩
  intro x h
  simp only [List.mem_cons, List.not_mem_nil, or_false] at h
  rcases h with h | h <;> exact ⟨_, _, _, h⟩

theorem witness_PipsFollowTheTable :
    ((0x38 : Nat) < 64 ∧ 0x38 ≠ 0x3F ∧ ([1, 2] : List W32).length + (List.replicate 6 (0 : W32)).length = 8 ∧
      pipCheck false 2 0x38 0 = some .xvpriv) ∧
    (pipCheck true 0 0x22 4 = some .xvop ∧ pipCheck true 1 0x08 0 = some .xvund ∧ pipCheck true 8 0x04 0 = some .xvovf ∧
      pipCheck true 8 0x3E 0 = some .xvop) ∧
    (pipCheck true 3 0x23 0 = none ∧ ∃ out, pipEffect 0 0 (fun _ _ => 0) (fun _ => 0) 0x23 0 [0, 5, 6] = some out) ∧
    (pipCheck true 2 0x38 3 = none ∧ (f32 0x44004000).eq (Num.ofInt false 513 0) = true ∧
      ∀ n : Nat, n ≤ 513 → (f32 0x44008000).eq (Num.ofInt false n 0) = false) ∧
    (pipAt 0x003F0000 1 % 64 = 0x3F ∧ pipAt 0x003F0000 1 / 64 = 0) ∧ (pipAt 0xFFFF 0 % 64 = 0x3F ∧ pipAt 0xFFFF 0 / 64 ≠ 0) ∧
    pipAt 0x003F0000 0 % 64 ≠ 0x3F :=
  ⟨by decide, by decide, ⟨by decide, _, rfl⟩, by decide +kernel⟩

/-- An XV that has retired in lanes 0 and 1, lane 1 with a fault, and written a word of table 2. -/
def heldXv (fails : List (Nat × Cause × Nat)) : XvPend :=
  { ins := ⟨5, 6, 7, [(0, [1]), (1, [1])]⟩, ostacks := [(0, 7)], depths := [(0, 1)], tblw := [(2, 1024, 9)], fails := fails, gens := [0, 0, 0, 0], due := 0, held := false }

/-- Lane 0 alone is to run TBLWR of table 2 at step 1; wave 1 of the bank has the XV `p` open. -/
def writing (p : Pend) : State :=
  let s := lanes 5 (fun _ => 0x00B80000) (onSlot fun t => { t with mask := 1 })
  s.setWave 1 { s.wave 1 with pend := p }
/-- The same behind a trap: of lanes 0 and 3 the second goes on at step 1. -/
def resumed : State := onSlot (fun t => { t with xvres := some (9, 8) }) (writing .none)

theorem witness_XvRunsItsLanesAndRetires :
    (xvForm (.xvS1 5 6 7 0) = some (5, 6, 7, 0, [1]) ∧ (writing .none).unlimited ∧ (writing .none).hasFeature 1) ∧
    (∃ n, n < 4 ∧ (∃ l ∈ (writing (.xv .a 0 (heldXv []))).runsOn 0 [1], ∃ st ∈ l.2,
      pipAt ((writing (.xv .a 0 (heldXv []))).cw.v 5 l.1) st % 64 = 0x38 ∧
        pipAt ((writing (.xv .a 0 (heldXv []))).cw.v 5 l.1) st / 64 = n) ∧ (writing (.xv .a 0 (heldXv []))).tableBusy 0 n) ∧
    (¬ (writing .none).tableBusy 0 2 ∧ resumed.runsOn 0 [0, 1] = [(0, [0, 1]), (3, [1])]) ∧
    (∃ (s : State), (s.wave 0).pend = .xv .a 0x10000 (heldXv []) ∧ (heldXv []).fails = [] ∧ (s.core (coreOf 0)).evsel = []) ∧
    (∃ (s : State), (s.wave 0).pend = .xv .a 0x10000 (heldXv [(1, .xvund, 0)]) ∧ (heldXv [(1, .xvund, 0)]).fails ≠ [] ∧
      ∃ f, (heldXv [(1, .xvund, 0)]).fails.find? (fun g => g.1 == lowestLane 2) = some f) ∧
    ((heldXv []).tblw.filter fun e => e.1 == 1) = [] ∧ ((heldXv []).tblw.filter fun e => e.1 == 2) ≠ [] := by
  refine ⟨⟨rfl, unl (by decide +kernel), by unfold State.hasFeature; decide +kernel⟩,
    ⟨2, by decide, by decide +kernel, .inr (.inl ⟨1, by decide, .a, 0, heldXv [], rfl, (2, 1024, 9), by decide, rfl⟩)⟩,
    ⟨?_, by decide +kernel⟩,
    ⟨onWave fun W => { W with pend := .xv .a 0x10000 (heldXv []) }, by decide +kernel⟩,
    ⟨onWave fun W => { W with pend := .xv .a 0x10000 (heldXv [(1, .xvund, 0)]) }, by decide +kernel, by decide,
    (1, .xvund, 0), by decide +kernel⟩, by decide, by decide⟩
  have idle : ∀ i, i < 8 → ((writing .none).wave (8 * 0 + i)).pend = .none := by decide +kernel
  rintro (⟨i, hi, x, pc, p, h, -⟩ | ⟨i, hi, x, pc, p, h, -⟩ | ⟨l, hl, -⟩)
  · rw [idle i hi] at h; cases h
  · rw [idle i hi] at h; cases h
  · rw [(by decide +kernel : ((writing .none).bank 0).loads = [])] at hl; cases hl

theorem witness_StackInstructionsActInEveryLane :
    base.cw.capsule = none ∧ (base.part (base.partOf base.cur.1)).featmask.getLsbD 1 = false ∧
    (∀ i, i < 128 → (masked base 0).getLsbD i = true → base.cw.depth i < 8) ∧
    (∃ s : State, (∃ i, i < 128 ∧ (masked s 0).getLsbD i = true) ∧ ∀ i, i < 128 → (masked s 0).getLsbD i = true → 0 < s.cw.depth i) ∧
    (∃ (s : State) (bad : Mask), bad ≠ 0 ∧ ∀ i, i < 128 → (bad.getLsbD i = true ↔ (masked s 0).getLsbD i = true ∧ s.cw.depth i = 8)) ∧
    (∃ (s : State) (bad : Mask), bad ≠ 0 ∧ ∀ i, i < 128 → (bad.getLsbD i = true ↔ (masked s 0).getLsbD i = true ∧ s.cw.depth i = 0)) := by
  let s := onSlot (fun t => { t with mask := 4 }) (onWave fun W => { W with depths := [(2, 8)] })
  refine ⟨by decide +kernel, by decide +kernel, by decide +kernel, ⟨s, ⟨2, by decide +kernel⟩, by decide +kernel⟩,
    ⟨s, 4, by decide, by decide +kernel⟩, ⟨onSlot fun t => { t with mask := 1 }, 1, by decide, by decide +kernel⟩⟩

/-- A table load of the wave that has not completed. -/
def loading : State := onBank fun b => { b with loads := [{ wave := 0, launch := 0, table := 2, words := List.replicate 514 5 }] }

/-- An XV of wave 1 is open: it latched generation 0 of every table and is to write table 2. -/
def xvOpen : State := loading.setWave 1 { loading.wave 1 with pend := .xv .a 0 (heldXv []) }
theorem no_xv {s : State} (h : ∀ i, i < 8 → (s.wave (8 * 0 + i)).pend = .none) (n g : Nat) :
    ¬ s.tableReadOpen 0 n g ∧ ¬ s.tableWriteOpen 0 n := by
  constructor <;> rintro ⟨i, hi, x, pc, p, k, -⟩ <;> rw [h i hi] at k <;> cases k

theorem witness_TablesLoadSwitchAndRead :
    (∃ T, base.teamOf base.cur.1 = some T ∧ (0 : Nat) % 8 = 0 ∧ ((regs [(7, 0xFF00000000000000)]).S 7).toNat = 0xFF00000000000000 + 0 ∧
      0 + 2056 ≤ T.spSize ∧ T.spSize ≤ 0x10000000000000 ∧ base.poison = [] ∧ base.cw.capsule = none ∧ base.hasFeature 1) ∧
    (((regs [(7, 0xFF00000000000004)]).S 7).toNat % 8 ≠ 0) ∧
    (∃ T, base.teamOf base.cur.1 = some T ∧ let a := 0xFF00000000000000 + T.spSize - 2048; a % 8 = 0 ∧ a < 2 ^ 64 ∧
      ¬ (0xFF00000000000000 ≤ a ∧ a + 2056 ≤ 0xFF00000000000000 + T.spSize) ∧
      ¬ (0xFF10000000000000 ≤ a ∧ a + 2056 ≤ 0xFF10000000000000 + T.clSize)) ∧
    (∃ l rest, (loading.bank 0).loads = l :: rest ∧ l.table = 2 ∧ l.wave = loading.cur.1 ∧
      ¬ loading.tableReadOpen 0 l.table (1 - ((loading.bank 0).table l.table).cur) ∧ ¬ loading.tableWriteOpen 0 l.table) ∧
    (xvOpen.tableWriteOpen 0 2 ∧ (∃ l ∈ (xvOpen.bank 0).loads, l.table = 2) ∧ ∃ l ∈ (xvOpen.bank 0).loads, l.wave = xvOpen.cur.1) ∧
    ((∀ l ∈ (base.bank 0).loads, l.table ≠ 2) ∧ ¬ base.tableWriteOpen 0 2 ∧ (∀ l ∈ (base.bank 0).loads, l.wave ≠ base.cur.1) ∧
      ¬ base.tableReadOpen 0 2 (1 - ((base.bank 0).table 2).cur)) ∧
    ∃ s : State, s.tableReadOpen 0 2 (1 - ((s.bank 0).table 2).cur) := by
  refine ⟨⟨(base.teamOf 0).get (by decide +kernel), by unfold State.hasFeature; decide +kernel⟩, by decide +kernel,
    ⟨(base.teamOf 0).get (by decide +kernel), by decide +kernel⟩,
    ⟨{ wave := 0, launch := 0, table := 2, words := List.replicate 514 5 }, [], by decide +kernel, by decide, by decide +kernel,
      no_xv (by decide +kernel) _ _⟩,
    ⟨⟨1, by decide, .a, 0, heldXv [], by decide +kernel, (2, 1024, 9), by decide, rfl⟩, by decide +kernel⟩,
    ⟨by decide +kernel, (no_xv (by decide +kernel) 2 0).2, by decide +kernel, (no_xv (by decide +kernel) _ _).1⟩,
    onBank (fun b => { b with tables := [(2, { cur := 1, loaded := false, words := [] })] }) xvOpen,
    1, by decide, .a, 0, heldXv [], by decide +kernel, by decide +kernel⟩

/-- Point 23 set up for waves 0 and 1; `who` have arrived. -/
def point (arr : Nat) (who : BitVec 8) : State :=
  onBank fun b => b.setRv 23 { init := true, n := 2, exp := 2, arr := arr, memb := 3, gen := 0xFFFFFFFF, who := who }

theorem witness_RendezvousPointsCountAndWait :
    (∃ T, base.teamOf base.cur.1 = some T ∧ T.waves ≤ 8 ∧ 1 ≤ ((regs [(5, 1)]).S 5).toNat ∧ ((regs [(5, 1)]).S 5).toNat ≤ T.waves ∧
      (base.rvNow 23).init = false) ∧
    ((point 0 0).rvNow 23).init = true ∧ ((point 0 0).rvNow 23).n = 2 ∧ (base.S 5).toNat = 0 ∧ (point 0 0).cw.capsule = none ∧
    mayArriveAt ((point 0 0).rvNow 23) (waveNo 0) ∧ ¬ mayArriveAt (base.rvNow 0) (waveNo 0) ∧
    ¬ mayArriveAt ((point 1 1).rvNow 23) (waveNo 0) ∧
    laterGen ((point 0 0).rvNow 23).gen.toNat 0x80000000 ∧ ¬ laterGen ((point 0 0).rvNow 23).gen.toNat 0xFFFFFFFF ∧
    ¬ laterGen ((point 0 0).rvNow 23).gen.toNat 0x7FFFFFFF ∧
    (∀ e ∈ (point 0 0).cw.syncs, atFlow (point 0 0) e = false) ∧
    (let e : SyncRec := { place := 0, mask := base.cs.mask, pc := base.cs.pc, rv := 23, gen := 0x80000000 }
     let s := onWave (fun W => { W with syncs := [e] }) (point 0 0)
     s.cw.syncs.find? (atFlow s) = some e ∧ laterGen (s.rvNow 23).gen.toNat e.gen.toNat ∧ ¬ laterGen (s.rvNow 5).gen.toNat e.gen.toNat) ∧
    ((point 1 2).rvNow 23).arr + 1 = ((point 1 2).rvNow 23).exp ∧ mayArriveAt ((point 1 2).rvNow 23) (waveNo 0) ∧
    ((point 0 0).rvNow 23).arr + 1 ≠ ((point 0 0).rvNow 23).exp := by
  refine ⟨⟨(base.teamOf 0).get (by decide +kernel), by decide +kernel⟩, by decide +kernel, by decide +kernel, by decide +kernel,
    by decide +kernel, ?_, ?_, ?_, ?_, ?_, ?_, by decide +kernel, ⟨by decide +kernel, ?_, ?_⟩, by decide +kernel, ?_, by decide +kernel⟩ <;>
    first | (unfold mayArriveAt; decide +kernel) | (unfold laterGen; decide +kernel)

theorem witness_ArrivalWordsCount :
    (∃ T, base.teamOf base.cur.1 = some T ∧ (0xFF00000000000FF0 : Nat) % 16 = 0 ∧ awPlace base T 0xFF00000000000FF0 = some (0, 0xFF0) ∧
      awPlace base T 0xFF00000000001000 = none ∧ base.poison = [] ∧ base.cw.capsule = none) ∧
    (base.poisonLoc (.share 0 0xFF0) 16 = false ∧ { base with poison := [(2 ^ 60 + 0xFFF, true)] }.poisonLoc (.share 0 0xFF0) 16 = true) ∧
    (∃ e : Waiter, e.line = (1 + 0, 0xFF0 / 128) ∧ e.aw = some (0xFF0, 0xFFFFFFFF) ∧ e.found = none) ∧
    (laterGen 0 0xFFFFFFFF ∧ ¬ laterGen 0 0) ∧
    ((0xFF00000000000008 : Nat) % 16 ≠ 0 ∧ (0xFEFFFFFFFFFFFFF0 : Nat) % 16 = 0 ∧ 0xFEFFFFFFFFFFFFF0 < 0xFF00000000000000) :=
  ⟨⟨(base.teamOf 0).get (by decide +kernel), by decide +kernel⟩, by decide +kernel,
   ⟨{ wave := 0, x := .a, line := (1, 31), woken := false, aw := some (0xFF0, 0xFFFFFFFF), found := none }, by decide⟩,
   by unfold laterGen; decide, by decide⟩

/-- The deque of bank 0 holds n words. -/
def dequeOf (n : Nat) : State := onBank fun b => { b with deque := List.replicate n 9 }

theorem witness_DequesPushPopAndSteal :
    base.cw.capsule = none ∧ (base.S 5).toNat = 0 ∧ ((regs [(5, 6)] (dequeOf 255)).S 5).toNat ≠ 0 ∧
    (dequeOf 255).ownBank.deque.length < 256 ∧ 256 ≤ (dequeOf 256).ownBank.deque.length ∧
    (∃ l x, (dequeOf 2).ownBank.deque = l ++ [x]) ∧ base.ownBank.deque = [] ∧
    (∃ T, (base.bank (stealBank base 0)).team = some T ∧ T.vf = base.vfOf base.cur.1) ∧
    (base.core (stealBank base 0 / 2)).margin.state ≠ 2 ∧
    (∃ s : State, (s.core (stealBank s 8 / 2)).margin.state = 2 ∧ stealBank s 8 = 1) ∧
    (∀ T, (base.bank (stealBank base 15)).team = some T → T.vf ≠ base.vfOf base.cur.1) ∧
    16 ≤ ((regs [(5, 16)]).S 5).toNat := by
  refine ⟨by decide +kernel, by decide +kernel, by decide +kernel, by decide +kernel, by decide +kernel, ⟨[9], 9, by decide +kernel⟩,
    by decide +kernel, ⟨(base.teamOf 0).get (by decide +kernel), by decide +kernel⟩, by decide +kernel,
    ⟨base.setCore 0 { base.core 0 with margin := { (base.core 0).margin with state := 2 } }, by decide +kernel⟩, ?_, by decide +kernel⟩
  intro T h
  rw [(by decide +kernel : (base.bank (stealBank base 15)).team = none)] at h
  cases h

/-- No wave is in a capsule if none of those listed is. -/
theorem no_capsule (s : State) (h : ∀ e ∈ s.waves, e.2.capsule = none) (v : Nat) : (s.wave v).capsule = none := by
  unfold State.wave SMap.get
  generalize s.waves = m at h
  induction m with
  | nil => rfl
  | cons e m ih =>
    rw [SMap.find?_cons]
    split
    · exact h e (by simp)
    · exact ih fun x hx => h x (by simp [hx])

/-- The page of the loaded kernel: the first GiB, W and X. -/
def page : Leaf := { base := 0, bits := 30, w := true, x := true, sysatom := false, conf := false, noreplay := false }
def q32 : MemQ := { size := .b32, strm := 0, scope := .wave, order := .plain, cache := .default, sx := false }
def q64 : MemQ := { q32 with size := .b64 }
def a64 : AtomQ := { wide := true, strm := 0, scope := .wave, order := .plain }
/-- s4 holds an address; lanes 0 and 127 are active. -/
def at4 (a : Word) : State := onSlot (fun t => { t with mask := 1 + 2 ^ 127 }) (regs [(4, a)])
/-- In a capsule step that has run n instructions and k stores; s48 holds an address. -/
def at48 (n k : Nat) (a : Word) : State :=
  onWave (fun W => { W with capsule := some { inStep n with ssts := k } }) (regs [(48, a)])
theorem plain_team {s : State} (h : (s.teamOf s.cur.1).map (·.rerun) = some false) : s.plainTeam s.cur.1 := by
  intro T hT; rw [hT] at h; simpa using h
theorem clean_of {s : State} (h : s.poison = []) (l : Loc) (n : Nat) : s.clean l n := fun _ _ => by rw [h]; rfl

theorem witness_ScalarAccessesIssue :
    (sldForm (.sldLit 5 4 q32 0x100) = some (5, 4, 0x100, q32, 12) ∧ (at4 0x3FFFFEFC).plainTeam 0 ∧
      (Loc.phys 0x3FFFFFFC).plain ∧ (at4 0x3FFFFEFC).clean (.phys 0x3FFFFFFC) 4 ∧ (at4 0x3FFFFEFC).cw.capsule = none ∧
      resolve (at4 0x3FFFFEFC) 0 .load ((at4 0x3FFFFEFC).scalarAddr 4 0x100) 4 = .ok (.phys 0x3FFFFFFC) (some page)) ∧
    (sldForm (.sld 5 4 0 q64) = some (5, 4, 0, q64, 8) ∧
      resolve (at4 0xFFFFFFFFFFFFFFF8) 0 .load ((at4 0xFFFFFFFFFFFFFFF8).scalarAddr 4 0) 8 = .ok (.win 0xFFFFFFFFFFFF8) none) ∧
    (sstForm (.sst 5 4 0xFFFFC q32) = some (5, 4, -4, q32, 8) ∧ (Loc.share 0 0xFFC).plain ∧
      resolve (at4 0xFF00000000001000) 0 .store ((at4 0xFF00000000001000).scalarAddr 4 (-4)) 4 = .ok (.share 0 0xFFC) none) ∧
    (sldForm (.sld 55 48 0 q32) = some (55, 48, 0, q32, 8) ∧ sstForm (.sst 55 48 0 q32) = some (55, 48, 0, q32, 8) ∧
      (at48 63 3 0x20000).inStep { inStep 63 with ssts := 3 } ∧ (∀ r ∈ ([55, 48] : List SReg), bodyReg r) ∧
      (at48 63 3 0x20000).plainTeam 0 ∧ windowAddress ((at48 63 3 0x20000).scalarAddr 48 0) = false ∧
      resolve (at48 63 3 0x20000) 0 .load ((at48 63 3 0x20000).scalarAddr 48 0) 4 = .ok (.phys 0x20000) (some page) ∧
      resolve (at48 63 3 0x20000) 0 .store ((at48 63 3 0x20000).scalarAddr 48 0) 4 = .ok (.phys 0x20000) (some page) ∧
      (at48 63 3 0x20000).clean (.phys 0x20000) 4) ∧
    ((at48 0 4 0x20000).inStep { inStep 0 with ssts := 4 } ∧
      resolve (at48 0 4 0x20000) 0 .store ((at48 0 4 0x20000).scalarAddr 48 0) 4 = .ok (.phys 0x20000) (some page)) ∧
    windowAddress ((at48 0 0 0xFE2FFFFFFFFFFFFC).scalarAddr 48 0) = true ∧
    windowAddress ((at48 0 0 0xFFF0000000000000).scalarAddr 48 0) = true := by
  refine ⟨⟨rfl, plain_team (s := at4 0x3FFFFEFC) (by decide +kernel), trivial, clean_of (by decide +kernel) _ _, by decide +kernel,
    by decide +kernel⟩, ⟨rfl, by decide +kernel⟩, ⟨by decide, trivial, by decide +kernel⟩,
    ⟨rfl, by decide, ?_, ?_, plain_team (s := at48 63 3 0x20000) (by decide +kernel), by decide +kernel, by decide +kernel,
      by decide +kernel, clean_of (by decide +kernel) _ _⟩, ⟨?_, by decide +kernel⟩, by decide +kernel, by decide +kernel⟩
  · unfold State.inStep; decide +kernel
  · unfold bodyReg; decide
  · unfold State.inStep; decide +kernel

theorem active_at4 (a : Word) : activeList (masked (at4 a) 0) = [0, 127] := by
  rw [show masked (at4 a) 0 = 1 + 2 ^ 127 from rfl]; decide +kernel

theorem witness_VectorAccessesIssue :
    (vldForm (.vld 5 4 60 0 0 q32) = some (5, 4, 60, 0, 0, q32, 8) ∧ masked (at4 0x20000) 0 ≠ 0 ∧
      ∀ j ∈ activeList (masked (at4 0x20000) 0), (Loc.phys (0x20000 + 4 * j)).plain ∧ (at4 0x20000).clean (.phys (0x20000 + 4 * j)) 4 ∧
        resolve (at4 0x20000) 0 .load ((at4 0x20000).elementAddr 4 0 60 4 j) 4 = .ok (.phys (0x20000 + 4 * j)) (some page)) ∧
    (vstForm (.vstLit 5 4 60 0 q32 0) = some (5, 4, 60, 0, 0, q32, 12) ∧
      ∀ j ∈ activeList (masked (at4 0xFE10000000000000) 0),
        resolve (at4 0xFE10000000000000) 0 .vstore ((at4 0xFE10000000000000).elementAddr 4 0 60 4 j) 4 = .ok (.abuf 0 (4 * j)) none) ∧
    (vatomForm (.vatom .cas 8 4 60 0 0 a64) = some (.cas, 8, 4, 60, 0, 0, a64, true) ∧
      ∀ j ∈ activeList (masked (at4 0x20000) 0),
        resolve (at4 0x20000) 0 .atomic ((at4 0x20000).elementAddr 4 0 60 8 j) 8 = .ok (.phys (0x20000 + 8 * j)) (some page)) ∧
    resolve (at4 0x20000) 0 .atomic ((at4 0x20000).scalarAddr 4 8) 8 = .ok (.phys 0x20008) (some page) ∧
    (masked base 3 = 0 ∧ ∃ t sb vo off m, vldForm (.vld 5 4 60 3 0 q32) = some (t, sb, vo, 3, off, m, 8)) := by
  refine ⟨⟨rfl, by decide +kernel, ?_⟩, ⟨rfl, ?_⟩, ⟨rfl, ?_⟩, by decide +kernel, by decide +kernel, _, _, _, _, _, rfl⟩
  · rw [active_at4]
    exact fun j h => ⟨trivial, clean_of (by decide +kernel) _ _, by revert j; decide +kernel⟩
  · rw [active_at4]; decide +kernel
  · rw [active_at4]; decide +kernel

/-- The wave with something pending, and with an effect of slot A in the commit gate. -/
def pending (p : Pend) : State := onWave fun W => { W with pend := p }
def gated (e : Effect) (s : State := base) : State := onWave (fun W => { W with gates := [{ x := .a, mask := 1, pc := 0x10000, hand := false, stages := [5], effect := e }] }) s
def loadRet (bad : Bool) : LoadRet := { dest := .scalar 5, value := 7, addr := 0x20000, poisoned := bad }
def wordStore : StoreElem := { addr := 0x20000, loc := .phys 0x20000, size := 4, value := 7, norep := false }
def winStore : StoreElem := { wordStore with loc := .win 0xFFFF8, size := 8 }
def casElem (d : Option Dest) : AtomElem :=
  { loc := .phys 0x20000, size := 8, operand := 7, expected := 0, lane := none, dest := d, addr := 0x20000, norep := false }

theorem witness_LoadsReturnAndStoresReachMemory :
    (((pending (.load .a 0x10000 [5] [loadRet false])).wave 0).pend = .load .a 0x10000 [5] [loadRet false] ∧
      ∀ r ∈ [loadRet false], r.poisoned = false) ∧
    (∃ s : State, (s.wave 0).pend = .load .a 0x10000 [5] [loadRet true] ∧ s.teamOf 0 = none) ∧
    (∃ bad, bad = ([loadRet true, loadRet false].filter fun r => r.poisoned).map (fun r =>
      (match r.dest with | .lane _ _ i => some i | .scalar _ => none, r.addr)) ∧ bad ≠ []) ∧
    (∃ T l, (pending (.load .a 0x10000 [5] [loadRet true])).teamOf 0 = some T ∧
      (pending (.load .a 0x10000 [5] [loadRet true])).launchOf T.launch = some l ∧ SnapsOk l ∧ l.vf < 192 ∧ l.q < 8) ∧
    (∀ v, ((pending (.load .a 0x10000 [5] [loadRet true])).wave v).capsule = none) ∧
    ((∃ g, gateOf (gated (.store [wordStore])) 0 .a = some g ∧ g.effect = .store [wordStore]) ∧
      (gated (.store [wordStore])).plainTeam 0 ∧ (∀ e ∈ [wordStore], e.loc.stored ∧ 0 < e.size) ∧
      ((gated (.store [wordStore])).wave 0).noFlow = false) ∧
    (winStore.loc = .win 0xFFFF8 ∧ ∃ e : ReadElem, e.loc = .win 0 ∧ e.size = 8) ∧
    (let s := onSlot (fun t => { t with live := false, pc := 0, mask := 0 }) (gated (.store []))
     (∃ g, (s.wave 0).gates = [g] ∧ g.x = .a ∧ g.effect = .store []) ∧ (s.wave 0).resident = true ∧ (s.wave 0).noFlow = true ∧
       (s.wave 0).pend = .none) := by
  refine ⟨by decide +kernel, ⟨onBank (fun b => { b with team := none }) (pending (.load .a 0x10000 [5] [loadRet true])), by decide +kernel⟩,
    ⟨_, rfl, by decide⟩,
    ⟨(base.teamOf 0).get (by decide +kernel), (base.launchOf 0).get (by decide +kernel), by decide +kernel, by decide +kernel,
      ⟨by decide +kernel, by decide +kernel⟩, by decide +kernel⟩,
    no_capsule _ (by decide +kernel), ⟨⟨_, rfl, rfl⟩, plain_team (s := gated _) (by decide +kernel), ?_, by decide +kernel⟩,
    ⟨rfl, ⟨.win 0, 8, false, .scalar 5, 0⟩, rfl, rfl⟩, ⟨_, rfl, rfl, rfl⟩, by decide +kernel⟩
  intro e h
  rw [List.mem_singleton.1 h]
  exact ⟨trivial, by decide⟩

theorem witness_AtomicsActInLaneOrder :
    let s := gated (.atomic .cas [casElem (some (.scalar 5))])
    (∃ g, gateOf s 0 .a = some g ∧ g.effect = .atomic .cas [casElem (some (.scalar 5))]) ∧ s.plainTeam 0 ∧
    (s.wave 0).noFlow = false ∧
    (∀ e ∈ [casElem (some (.scalar 5))], cellOf e.loc ≠ none ∧ s.clean e.loc e.size ∧
      (e.size = 4 ∨ e.size = 8 ∧ AtomOp.cas ≠ .fadd ∧ AtomOp.cas ≠ .fmin ∧ AtomOp.cas ≠ .fmax) ∧ e.operand.toNat < 2 ^ (8 * e.size) ∧
      e.expected.toNat < 2 ^ (8 * e.size)) ∧ ([casElem (some (.scalar 5))] ≠ [] ∧ ∀ e ∈ [casElem (some (.scalar 5))], e.dest ≠ none) ∧
    (∀ e ∈ [casElem none], e.dest = none) ∧ cellOf (.share 127 0xFFFF8) ≠ none ∧
    ∃ e ∈ [casElem none], { s with poison := [(0x20007, true)] }.poisonLoc e.loc e.size = true := by
  refine ⟨⟨_, rfl, rfl⟩, plain_team (s := gated _) (by decide +kernel), by decide +kernel, ?_, by decide, by decide, by decide,
    by decide +kernel⟩
  intro e h
  rw [List.mem_singleton.1 h]
  exact ⟨by decide, clean_of (by decide +kernel) _ _, by decide⟩

/-- The VF is replayable: an absent granule parks. -/
def replayable (a : Word) : State := (at4 a).setReg (vfOff 0) 0x1007

/-- A table of VF 0 for its first page, of 64 KiB at 0x300000; the last of its 16 entries is `e`. -/
def walked (e : Nat) : State :=
  let entry (s : State) (a v : Nat) : State := s.storeBytes a ((List.range 8).map fun i => BitVec.ofNat 8 (v / 256 ^ i))
  let s := (base.setReg 0x1008 0x200000)
  let s := [(0x200000, 0x201001), (0x201000, 0x202001), (0x202000, 0x203001), (0x203000, 0x204001)].foldl (fun s p => entry s p.1 p.2) s
  let s := (List.range 15).foldl (fun s j => entry s (0x204000 + 8 * j) (0x300087 + 0x1000 * j)) s
  entry s 0x204078 e

theorem witness_AccessesFaultOrPark_walks :
    ((0xFFFF : Nat) < 2 ^ 56 ∧ ∀ k, k < 4 → linksOn (pathEntry (walked 0x30F087) 0x200000 0xFFFF k)) ∧
    (let e := pathEntry (walked 0x30F087) 0x200000 0xFFFF 4
     entryBit e 0 = true ∧ entryBit e 1 = true ∧ ¬ malformedAt e 4 ∧ entryBit e 7 = true ∧ alike (walked 0x30F087) 0x204000 0xFFFF e) ∧
    entryBit (pathEntry (walked 0x30F086) 0x200000 0xF000 4) 0 = false ∧ malformedAt (pathEntry (walked 0x30F101) 0x200000 0xF000 4) 4 ∧
    ((base.hold 0 0 5 page).heldFor 0 0 5 = [page] ∧ walk (base.hold 0 0 5 page) 0 5 = .leaf page) ∧
    (0 < 4 ∧ (0xFE10000000020000 : Nat) % 4 = 0 ∧
      ∃ s : State, ∃ u v, (s.bank 0).owner = some u ∧ (s.bank 1).owner = some v ∧ u ≠ v) ∧
    (∃ T, base.teamOf 0 = some T ∧ T.clSize = 0 ∧ ¬ stripeOpen base T 0 ∧ ¬ 0x1000 < T.spSize ∧ 0x1000 < T.spSize + 1024 * T.waves) ∧
    (∃ (s : State) (T : Team), s.teamOf 0 = some T ∧ stripeOpen s T 0x7F) := by
  refine ⟨⟨by decide, ?_⟩, ?_, by decide +kernel, ?_, ?_, ⟨by decide, by decide,
    (base.setBank 0 { base.bank 0 with owner := some 1 }).setBank 1 { base.bank 1 with owner := some 2 }, 1, 2, by decide +kernel⟩,
    ⟨(base.teamOf 0).get (by decide +kernel), by decide +kernel, by decide +kernel, ?_, by decide +kernel⟩, ?_⟩
  · unfold linksOn entryReserved; decide +kernel
  · unfold malformedAt entryReserved alike; decide +kernel
  · unfold malformedAt entryReserved; decide +kernel
  · decide +kernel
  · unfold stripeOpen; decide +kernel
  · refine ⟨onBank fun b => { b with team := b.team.map fun T => { T with clPart := 0x80 } },
      { (base.teamOf 0).get (by decide +kernel) with clPart := 0x80 }, by decide +kernel, ?_⟩
    unfold stripeOpen; decide +kernel

theorem witness_AccessesFaultOrPark :
    (resolve (at4 0x20002) 0 .load ((at4 0x20002).scalarAddr 4 0) 4 = .fault .malign ∧
      (∃ F, scalarAccess (at4 0x20002) (.sld 5 4 0 q32) = some F ∧ F.acc = .load ∧ F.addr 0 = (at4 0x20002).scalarAddr 4 0 ∧ F.size = 4) ∧
      resolve (at4 0xFE00000000000000) 0 .store ((at4 0xFE00000000000000).scalarAddr 4 0) 4 = .fault .prot ∧
      (∃ F, scalarAccess (at4 0xFE00000000000000) (.sst 5 4 0 q32) = some F) ∧ (∃ F, scalarAccess base (.satom .cas 5 4 0 a64) = some F) ∧
      (∃ F, scalarAccess base (.mwait 5 4 0 { wide := true, strm := 0, scope := .wave, acquire := false }) = some F) ∧
      (∃ F, vectorAccess base (.mred .add 5 4 60 0 0 a64) = some (0, F)) ∧ ∃ F, vectorAccess base (.vst 5 4 60 3 0 q32) = some (3, F)) ∧
    (∃ (fault : Nat → Option Cause) (e : Nat), (∀ j c, fault j = some c ↔ (j ∈ activeList (masked (at4 0xFF00000000000F80) 0) ∧
        resolve (at4 0xFF00000000000F80) 0 .load ((at4 0xFF00000000000F80).elementAddr 4 0 60 4 j) 4 = .fault c)) ∧
      fault e ≠ none ∧ ∀ j, j < e → fault j = none) ∧
    (resolve (replayable 0x40000000) 0 .load ((replayable 0x40000000).scalarAddr 4 0) 4 = .park 0x40000000 3 ∧
      (replayable 0x40000000).parkedOn 0 (0x40000000, 3) = false ∧
      ((replayable 0x40000000).fbuf 0).recs.length < 8 * 2 ^ (replayable 0x40000000).regBits (partOff 0) 25 3) ∧
    (∃ s : State, s.parkedOn 0 (0x40000000, 3) = true) ∧
    (∃ s : State, 8 * 2 ^ s.regBits (partOff 0) 25 3 ≤ (s.fbuf 0).recs.length ∧ s.parkedOn 0 (0x40000000, 3) = false) := by
  refine ⟨⟨by decide +kernel, ⟨_, rfl, rfl, rfl, rfl⟩, by decide +kernel, ⟨_, rfl⟩, ⟨_, rfl⟩, ⟨_, rfl⟩, ⟨_, rfl⟩, _, rfl⟩, ⟨fun j => if j = 127 then some .spbound else none, 127, ?_, by decide, by decide⟩, by decide +kernel,
    ⟨onSlot fun t => { t with park := .granule [(0x40000000, 3)] }, by decide +kernel⟩,
    ⟨base.setFbuf 0 { FaultBuffer.zero with recs := List.replicate 1024 { vaddr := 0, vf := 0, rd := true, wr := false, at_ := false, eng := false, gsz := 0, wave := 0, seq := 0 } }, by decide +kernel⟩⟩
  intro j c
  rw [active_at4]
  have h0 : resolve (at4 0xFF00000000000F80) 0 .load ((at4 0xFF00000000000F80).elementAddr 4 0 60 4 0) 4 = .ok (.share 0 0xF80) none := by
    decide +kernel
  have h1 : resolve (at4 0xFF00000000000F80) 0 .load ((at4 0xFF00000000000F80).elementAddr 4 0 60 4 127) 4 = .fault .spbound := by
    decide +kernel
  constructor
  · intro h
    dsimp only at h
    split at h
    · next hj => subst hj; cases h; exact ⟨by simp, h1⟩
    · cases h
  · rintro ⟨hj, hr⟩
    simp only [List.mem_cons, List.not_mem_nil, or_false] at hj
    rcases hj with rfl | rfl
    · rw [h0] at hr; cases hr
    · rw [h1] at hr; cases hr; rfl

theorem witness_MwaitReadsParksAndReturns :
    (mwaitForm (.mwait 5 4 0 { wide := true, strm := 0, scope := .wave, acquire := false }) =
        some (5, 4, 0, { wide := true, strm := 0, scope := .wave, acquire := false }, 8) ∧
      resolve (at4 0x20000) 0 .load ((at4 0x20000).scalarAddr 4 0) 8 = .ok (.phys 0x20000) (some page)) ∧
    ((at4 0x20000).dataAt (.phys 0x20000) 8 = ((at4 0x20000).S 5).toNat % 2 ^ 64) ∧
    (∃ s : State, s.dataAt (.phys 0x20000) 8 ≠ (s.S 5).toNat % 2 ^ 64) ∧
    (∃ s : State, ((s.wave 0).slot .a).park = .mwait 5 8 0x20000 true none ∧
      resolve s 0 .load 0x20000 8 = .ok (.phys 0x20000) (some page)) := by
  refine ⟨⟨rfl, by decide +kernel⟩, by decide +kernel, ⟨base.storeBytes 0x20000 [1], by decide +kernel⟩,
    onSlot fun t => { t with park := .mwait 5 8 0x20000 true none }, by decide +kernel⟩

theorem witness_FencesAndInvalidationsWait :
    base.cw.capsule = none ∧ ¬ transferOpen base 0xFFFF ∧ base.S 5 = 0 ∧ (regs [(5, 1)]).S 5 ≠ 0 ∧
    (∃ s : State, ((s.wave 0).slot .a).park = .op (.icinv .die 0 0x10000 128) ∧ 0 < 128) := by
  refine ⟨by decide +kernel, ?_, by decide +kernel, by decide +kernel,
    onSlot fun t => { t with park := .op (.icinv .die 0 0x10000 128) }, by decide +kernel⟩
  rintro ⟨x, hx, -⟩
  rw [(by decide +kernel : base.xfers = [])] at hx
  cases hx

/-- Where every translation held is the page of the walk, that is the translation. -/
theorem translate_page {s : State} {c vf va : Nat} (ht : (s.tlb.all fun e => e.2.all fun x => x.2 == page) = true)
    (hw : walk s vf va = .leaf page) : Machine.translate s c vf va = .leaf page := by
  have hh : ∀ l ∈ s.heldFor c vf va, l = page := by
    intro l hl
    unfold State.heldFor at hl
    obtain ⟨x, hx, rfl⟩ := List.mem_map.1 hl
    have hx := (List.mem_filter.1 hx).1
    generalize s.tlb = m at ht hx
    unfold SMap.get at hx
    induction m with
    | nil => cases hx
    | cons e m ih =>
      rw [List.all_cons, Bool.and_eq_true] at ht
      rw [SMap.find?_cons] at hx
      split at hx
      · exact eq_of_beq (List.all_eq_true.1 ht.1 x hx)
      · exact ih ht.2 hx
  have hn : (s.heldFor c vf va).filter (fun l => Walk.leaf l != Walk.leaf page) = [] :=
    List.filter_eq_nil_iff.2 fun l hl => by rw [hh l hl]; simp
  unfold Machine.translate
  simp only [hw, hn, List.isEmpty_nil, if_true]

/-- With the loaded kernel's tables, an aligned address of the first GiB is that physical address. -/
theorem low {s : State} (acc : Acc) (h : (s.tlb.all fun e => e.2.all fun x => x.2 == page) = true ∧ s.readPhys (s.vfRoot (s.vfOf 0)) 8 = 0x2001 ∧ s.readPhys 0x2000 8 = 0x3001 ∧
    s.readPhys 0x3000 8 = 0xF ∧ s.imagePages = [] ∧ (List.range 8).any (fun d => s.wid d != s.partWorld (s.partOf 0)) = false)
    (va : Nat) (hv : va < 2 ^ 30) (n : Nat) (hn : va % n = 0) :
    resolve s 0 acc (BitVec.ofNat 64 va) n = .ok (.phys va) (some page) := by
  obtain ⟨ht, h5, h4, h3, hg, hp⟩ := h
  have b : ∀ k m, 30 ≤ k → bitsOf va k m = 0 := fun k m hk => by
    unfold bitsOf
    rw [Nat.div_eq_of_lt (Nat.lt_of_lt_of_le hv (Nat.pow_le_pow_right (by decide) hk)), Nat.zero_mod]
  have hw : walk s (s.vfOf 0) va = .leaf page := by
    unfold walk walkLevels
    iterate 3 rw [walkFrom]
    simp only [b 48 8 (by decide), b 39 9 (by decide), b 30 9 (by decide), Nat.mul_zero, Nat.add_zero, h5,
      show pteFrame 0x2001 = 0x2000 by decide, h4, show pteFrame 0x3001 = 0x3000 by decide, h3]
    rfl
  have ha : (BitVec.ofNat 64 va).toNat = va := by
    rw [BitVec.toNat_ofNat, Nat.mod_eq_of_lt (Nat.lt_trans hv (by decide))]
  have hpa : page.pa va = va := by
    unfold Leaf.pa page; simp only [Nat.zero_add]; exact Nat.mod_eq_of_lt hv
  unfold resolve
  simp only [ha, hn, ne_eq, not_true, if_false, show va < 2 ^ 56 from Nat.lt_trans hv (by decide), if_true]
  unfold resolveTenant
  simp only [translate_page ht hw, hpa]
  simp only [page, Bool.false_eq_true, if_false, Bool.not_true, Bool.and_false, State.guarded, State.guardedIn, hg, List.any_nil, State.portRefuses,
    hp, Bool.false_and]
/-- An area at 2 MiB. -/
theorem area {s : State} (acc : Acc) (h : (s.tlb.all fun e => e.2.all fun x => x.2 == page) = true ∧ s.readPhys (s.vfRoot (s.vfOf 0)) 8 = 0x2001 ∧ s.readPhys 0x2000 8 = 0x3001 ∧
    s.readPhys 0x3000 8 = 0xF ∧ s.imagePages = [] ∧ (List.range 8).any (fun d => s.wid d != s.partWorld (s.partOf 0)) = false) :
    AreaAt s 0 acc 0x200000 (fun i => 0x200000 + 128 * i) := by
  refine ⟨fun i hi => ⟨some page, ?_⟩, fun i _ => by omega, fun i j _ _ h => by omega⟩
  rw [show (0x200000 : Word) + BitVec.ofNat 64 (128 * i) = BitVec.ofNat 64 (0x200000 + 128 * i) from
    (BitVec.ofNat_add _ _).symm]
  exact low acc h _ (by omega) 8 (by omega)
theorem base_area (acc : Acc) : AreaAt base 0 acc 0x200000 (fun i => 0x200000 + 128 * i) := area acc (by decide +kernel)

/-- A value stored in the share of bank 0. -/
def share (o n v : Nat) (s : State := base) : State :=
  onBank (fun b => { b with share := (leBytes n v).zipIdx.foldl (fun m e => SMap.set zeros m (o + e.2) e.1) b.share }) s
/-- A matrix operation on one row of INT8, for tile 1 or for v5 of wave 0. -/
def matOp (tgt : (Nat × VReg) ⊕ Tile) (done : Nat) : MatrixOp :=
  { wave := 0, launch := 0, bank := 0, target := tgt, fmt := .i8, acc := true, rows := 1, done := done
    weights := { fmt := .i8, bytes := [] }, acts := [], pc := 0x10000, sys := true, failed := false }
def queued (o : MatrixOp) (s : State := base) : State := s.setCore 0 { s.core 0 with queue := [o] }
/-- The team of the loaded kernel, and a transfer of it: one FP32 element from its window to offset 0x200 of it. -/
def team0 : Team := { launch := 0, vf := 0, teamId := 0, setIx := 0, setBanks := [0], span := 0, waves := 1, spSize := 0x1000, clPart := 0
                      retired := 0, sampled := false, rerun := false }
def rec0 (base : Word) : BufRec :=
  { base := base, extent := 4, stride1 := 0, stride2 := 0, count0 := 1, count1 := 1, count2 := 1, fmt := 0, bounds := 0, reserved := 0 }
def xfer0 : Xfer :=
  { key := 9, kind := .copy, team := team0, wave := 0, x := .a, mask := 1, pc := 0x10000, sys := true, launch := 0, vf := 0, strm := 0
    src := rec0 0xFF00000000000100, dst := rec0 0xFF00000000000200, units := 1, data := [[(1, false), (2, false), (3, false), (4, false)]]
    early := []
    landed := [0], got := [0], aw := none, chain := none, receivers := [0], chainDue := [], cbufWait := 0, fault := none
    granule := none, bounce := [], flow := 0, unmapped := [] }
def moving (x : Xfer) (s : State := base) : State := { s with xfers := [x] }

theorem base_team : base.teamOf base.cur.1 = some team0 := by decide +kernel
theorem base_features (n : Nat) (h : n < 5) : base.hasFeature n := by
  have : ∀ n, n < 5 → (base.part (base.partOf base.cur.1)).featmask.getLsbD n = false := by decide +kernel
  exact this n h

theorem witness_MatrixOperationsEnterTheOrder :
    base.cw.capsule = none ∧ base.hasFeature 0 ∧ (moving { xfer0 with chainDue := [0] }).chainPending 0 = true ∧ nothingChained base ∧
    ((regs [(7, 3568)]).S 7).toNat < 2 ^ 16 ∧ 64 * 3568 + weightBytes .f16 ≤ (regs [(7, 3568)]).bufSize 0 - 0x300 ∧
    unmarked base (.wbuf 0) 0 (weightBytes .f16) ∧
    (base.bufSize 0 < 64 * 4095 + weightBytes .q4) ∧
    (128 ≤ 128 ∧ tileThere base 0 3 ∧ 64 * 0 + activationBytes .f16 (tileDepth (base.bank 0).weights.fmt) 128 ≤ base.bufSize 0 ∧
      allowedPair .f16 (base.bank 0).weights.fmt ∧ ¬ tileHeld base 0 3) ∧
    ¬ allowedPair .i8 (base.bank 0).weights.fmt ∧
    (64 * 0 + activationBytes .i8 (tileDepth (base.bank 0).weights.fmt) 128 ≤ base.bufSize 0 ∧
      unmarked base (.abuf 0) (base.bufBase 0 + 64 * 0) (activationBytes .i8 (tileDepth (base.bank 0).weights.fmt) 128)) ∧
    (let s := { base with poison := [((Loc.wbuf 0 0).markKey, true), ((Loc.abuf 0 0).markKey, true)] }
     s.marksIn (Loc.wbuf 0 (s.bufBase 0 + 64 * 0)).markKey (weightBytes .f16) ≠ [] ∧
       s.marksIn (Loc.abuf 0 (s.bufBase 0 + 64 * 0)).markKey (activationBytes .f16 (tileDepth (s.bank 0).weights.fmt) 1) ≠ []) ∧
    tileHeld (queued (matOp (.inr 1) 0)) 0 1 ∧
    (∃ s : State, ¬ tileThere s 0 3) ∧
    (let s := { base with poison := [(((Loc.cbuf 0 0).markKey) + tilePlace base 0 3 127 127 + 3, true)] }
     s.marksIn (Loc.cbuf 0 (tilePlace s 0 3 0 0)).markKey (512 * 128) ≠ [] ∧
       s.marksIn (Loc.cbuf 0 (tilePlace s 0 3 0 0)).markKey (512 * 127) = []) := by
  refine ⟨by decide +kernel, base_features 0 (by decide), by decide +kernel, ?_, by decide +kernel, by decide +kernel, ?_, by decide +kernel,
    ⟨by decide, by decide +kernel, by decide +kernel, by decide +kernel, ?_⟩, by decide +kernel, ⟨by decide +kernel, ?_⟩, by decide +kernel, ?_,
    ⟨(base.setBank 1 { Bank.zero with owner := some 1 }), by decide +kernel⟩, by decide +kernel⟩
  · intro x hx; rw [(by decide +kernel : base.xfers = [])] at hx; cases hx
  · intro e he; rw [(by decide +kernel : base.poison = [])] at he; cases he
  · rintro ⟨o, ho, -⟩
    rw [(by decide +kernel : (base.core (coreOfBank 0)).queue = [])] at ho; cases ho
  · intro e he; rw [(by decide +kernel : base.poison = [])] at he; cases he
  · exact ⟨matOp (.inr 1) 0, by decide +kernel, 1, rfl, rfl⟩

theorem witness_TileInstructionsMoveRows :
    base.cw.capsule = none ∧ nothingChained base ∧ (tileThere base 0 3 ∧ ¬ tileHeld base 0 3 ∧ (base.S 5).toNat + 4 ≤ 128) ∧
    (tileHeld (queued (matOp (.inr 1) 0)) 0 1 ∧ tileThere (queued (matOp (.inr 1) 0)) 0 1) ∧
    (128 < ((regs [(5, 128)]).S 5).toNat + 1) ∧ (∃ s : State, ¬ tileThere s 0 2) := by
  refine ⟨by decide +kernel, witness_MatrixOperationsEnterTheOrder.2.2.2.1,
    ⟨by decide +kernel, witness_MatrixOperationsEnterTheOrder.2.2.2.2.2.2.2.2.1.2.2.2.2, by decide +kernel⟩,
    ⟨⟨matOp (.inr 1) 0, by decide +kernel, 1, rfl, rfl⟩, by decide +kernel⟩, by decide +kernel,
    ⟨(base.setBank 1 { Bank.zero with owner := some 1 }), by decide +kernel⟩⟩

theorem witness_ArrayRowsAreTheResults :
    (((queued (matOp (.inr 1) 0)).core 0).queue = matOp (.inr 1) 0 :: [] ∧ (matOp (.inr 1) 0).done < (matOp (.inr 1) 0).rows ∧
      (matOp (.inr 1) 0).failed = false ∧ allowedPair (matOp (.inr 1) 0).fmt (matOp (.inr 1) 0).weights.fmt) ∧
    (∃ s : State, (s.core 0).queue = matOp (.inl (0, 5)) 0 :: [] ∧ (s.wave 0).resident = true ∧ (s.wave 0).pend = .mmad .a) ∧
    (∃ s : State, (s.core 0).queue = matOp (.inl (0, 5)) 0 :: [] ∧ (s.wave 0).waitsMmad = false) ∧
    (∃ s : State, (s.core 0).queue = matOp (.inl (0, 5)) 1 :: [] ∧ (s.wave 0).waitsMmad = true ∧ (s.wave 0).noFlow = true ∧
      (s.wave 0).gates = []) ∧ (base.wave 0).noFlow = false ∧
    ((matOp (.inl (0, 5)) 1).rows ≤ (matOp (.inl (0, 5)) 1).done ∧
      ∀ x ∈ (queued (matOp (.inl (0, 5)) 1)).xfers, x.cbufWait = 0) := by
  refine ⟨by decide +kernel, ⟨queued (matOp (.inl (0, 5)) 0) (pending (.mmad .a)), by decide +kernel⟩,
    ⟨queued (matOp (.inl (0, 5)) 0), by decide +kernel⟩,
    ⟨queued (matOp (.inl (0, 5)) 1) (onSlot (fun t => { t with live := false }) (pending (.mmad .a))), by decide +kernel⟩,
    by decide +kernel, by decide, ?_⟩
  intro x hx; rw [(by decide +kernel : (queued (matOp (.inl (0, 5)) 1)).xfers = [])] at hx; cases hx

/-- A record of 16 FP32 elements as bytes, at the team window's offset `o`. -/
def recordVal (o : Nat) : Nat := 0xFF00000000000000 + o + 64 * 2 ^ 64 + 16 * 2 ^ 160 + 2 ^ 176 + 2 ^ 192
/-- Two records at offsets 0 and 32, and s1, s2 that hold their addresses, s3 an arrival word's. -/
def records : State :=
  regs [(1, 0xFF00000000000000), (2, 0xFF00000000000020), (3, 0xFF00000000000FF0), (4, 0), (5, 8)]
    (share 32 32 (recordVal 0x100) (share 0 32 (recordVal 0x200)))
def busy : State := { records with xfers := List.replicate 32 xfer0 }

theorem witness_CopiesEnterTheirEngine :
    (cpyForm (.cpy 1 2 3 0 0 .wave 1) = some (.copy, 1, 2, 3, 0, 0, 1) ∧ records.cw.capsule = none ∧
      records.teamOf records.cur.1 = some team0) ∧
    (¬ (2 : BitVec 8).toNat < 2 ^ 2 ^ team0.span ∧ (1 : BitVec 8).toNat < 2 ^ 2 ^ team0.span ∧ chainCmd (records.S 5) = none) ∧
    records.mayEnter = true ∧ busy.mayEnter = false ∧
    copyChecks records 0 team0 .copy (records.S 1) (records.S 2) 3 1 = none ∧
    (plainFormat (recordAt records 0 0) ∧ SourceRead records team0 (recordAt records 0 0x20)) ∧
    (recordFault team0 0xFF00000000000010 = some .malign ∧ recordFault team0 0 = some .prot ∧
      recordFault team0 0xFF00000000001000 = some .spbound ∧ recordFault team0 0xFF00000000000FE0 = none) ∧
    (wordFault records team0 3 0xFF00000000000FF8 = some .malign ∧ wordFault records team0 3 0xFF20000000000000 = some .prot ∧
      wordFault records team0 3 0xFF00000000001000 = some .spbound ∧ wordFault records team0 3 0xFF10000000000000 = some .spbound ∧
      wordFault records team0 3 0xFF00000000000FF0 = none ∧ wordFault records team0 0 1 = none) ∧
    (layoutFault (rec0 2) = some .malign ∧ layoutFault { rec0 0 with bounds := 3 } = some .bufbound ∧ layoutFault (rec0 0) = none ∧
      elementCount (rec0 0) ≠ elementCount { rec0 0 with count0 := 2 }) := by
  refine ⟨⟨rfl, by decide +kernel, by decide +kernel⟩, by decide +kernel, by decide +kernel, by decide +kernel, by decide +kernel, ?_,
    by decide, ⟨?_, ?_, ?_, ?_, ?_, ?_⟩, by decide⟩
  rotate_left
  · unfold wordFault; rw [if_neg (by decide), if_pos (by decide)]
  · unfold wordFault; rw [if_neg (by decide), if_neg (by decide), if_pos (by decide)]
  · unfold wordFault; rw [if_neg (by decide), if_neg (by decide), if_neg (by decide), if_pos (by decide), if_neg (by decide)]
  · unfold wordFault
    rw [if_neg (by decide), if_neg (by decide), if_neg (by decide), if_neg (by decide), if_neg (by unfold stripeOpen; decide)]
  · unfold wordFault; rw [if_neg (by decide), if_neg (by decide), if_neg (by decide), if_pos (by decide), if_pos (by decide)]
  · unfold wordFault; rw [if_pos rfl]
  refine ⟨by decide +kernel, by decide +kernel, by decide +kernel, ?_, ?_⟩
  · intro e he; rw [(by decide +kernel : records.poison = [])] at he; cases he
  · have hc : elementCount (recordAt records 0 0x20) = 16 := by decide +kernel
    rw [hc]
    have : ∀ e, e < 16 → (elementAt (recordAt records 0 0x20) e).all (fun o => decide ((recordAt records 0 0x20).base.toNat -
        0xFF00000000000000 + o + elementBytes (recordAt records 0 0x20) ≤ team0.spSize)) = true := by decide +kernel
    intro e o he ho
    have h := this e he
    rw [ho] at h
    simpa using h

/-- Two records that the later checks of R305 refuse or let pass. -/
theorem witness_CopyChecksFollowTheirOrder :
    (pairUnlike .copy (rec0 0) { rec0 0 with fmt := 1 } ∧ ¬ pairUnlike .convert (rec0 0) { rec0 0 with fmt := 1 }) ∧
    (destBarred (rec0 0xFE20000000000000) 0 ∧ destBarred (rec0 0x20000) 1 ∧ ¬ destBarred (rec0 0xFE1FFFFFFFFFFFFF) 1) ∧
    (sourceBarred (rec0 0xFE1FFFFFFFFFFFFF) ∧ ¬ sourceBarred (rec0 0xFE20000000000000)) ∧
    (onConf (base.storeBytes 0x3000 [0x2F]) (rec0 0x3FFFFFFC) ∧ ¬ innerPlace 0x20000 ∧ innerPlace 0xFF1FFFFFFFFFFFFC ∧
      ¬ onConf base (rec0 0xFF00000000000100)) ∧
    (firstOutside { rec0 0 with extent := 3 } 0 0 0 ∧ firstOutside { rec0 0xFE1000000003FFF8 with extent := 12, count0 := 3 } 0x40000 2 8 ∧
      noneOutside { rec0 0xFE1000000003FFF8 with extent := 8, count0 := 2 } 0x40000) ∧
    (waitingTransfers records = [] ∧ ∃ s : State, (waitingTransfers s).head? = some (s.cur.1, s.cur.2, s.cs.pc)) := by
  refine ⟨by unfold pairUnlike; decide, by unfold destBarred inSpace; decide, by unfold sourceBarred inSpace; decide,
    ⟨⟨by unfold inTenant; decide, 0, 0, { page with conf := true }, by decide, by decide, by decide +kernel, rfl⟩,
      by unfold innerPlace inSpace; decide, by unfold innerPlace inSpace; decide, fun h => ?_⟩,
    ⟨⟨by decide, by unfold outside bufferPlace inSpace; decide, by intros; omega⟩, ⟨by decide, by unfold outside bufferPlace inSpace; decide, ?_⟩, ?_⟩,
    by decide +kernel, onBank (fun b => { b with waitQ := [(0, .a, base.cs.pc)] }), by decide +kernel⟩
  · exact absurd h.1 (by unfold inTenant; decide)
  · intro f p hf
    have hf : f = 0 ∨ f = 1 := by omega
    rcases hf with rfl | rfl <;> rintro ⟨h, k⟩ <;> cases h <;> revert k <;> unfold bufferPlace inSpace <;> decide
  · intro e o he
    have he : e < 2 := he
    have he : e = 0 ∨ e = 1 := by omega
    rcases he with rfl | rfl <;> rintro ⟨h, k⟩ <;> cases h <;> revert k <;> unfold bufferPlace inSpace <;> decide

/-- Flow 0 of partition 0 belongs to VF 0. -/
def flowing (s : State := records) : State := s.setReg (flowOff 0 0) 1

theorem witness_NetworkInstructionsSendAndPost :
    (netForm (.nsend 4 2 3 0) = some (4, 2, 3, 0, true) ∧ records.cw.capsule = none ∧ records.hasFeature 3 ∧
      records.teamOf records.cur.1 = some team0 ∧ records.mayEnter = true) ∧
    (recordFault team0 (records.S 3).toNat ≠ none ∧ recordFault team0 (records.S 2).toNat = none ∧
      wordFault records team0 3 (records.S 3).toNat = none) ∧
    ¬ flowGood records 0 ∧ flowGood flowing 0 ∧ 0x1000000 < ({ rec0 0 with count0 := 65535, count1 := 65 } : BufRec).bytes ∧
    netPasses flowing true 0 (flowing.S 2) (recordAt flowing 0 0x20) ∧ netPasses flowing false 0 (flowing.S 2) (recordAt flowing 0 0x20) := by
  have hg : flowGood flowing 0 := by unfold flowGood; decide +kernel
  refine ⟨⟨rfl, by decide +kernel, ?_, by decide +kernel, by decide +kernel⟩, by decide +kernel, by unfold flowGood; decide +kernel, hg,
    by decide, ?_, ?_⟩
  · show _ = false; decide +kernel
  all_goals constructor <;> first | exact hg | decide +kernel

/-- A transfer whose chained command is due in bank 0. -/
def chainX (v : Word) : Xfer := { xfer0 with chain := some v, chainDue := [0], landed := [1] }
theorem chain_due (v : Word) : ChainDue (moving (chainX v)) 9 (chainX v) 0 0 :=
  ⟨rfl, ⟨rfl, by intro q h; omega, List.mem_singleton.2 rfl⟩, ⟨Nat.le_refl 1, Nat.le_refl 1⟩, by
    unfold State.engLive; exact (by decide +kernel : (moving (chainX 0)).engLive (chainX 0) 0 = true)⟩

theorem witness_ChainedCommandsEnterTheOrder :
    (ChainDue (moving (chainX (wloadWord .q4 3824))) 9 (chainX (wloadWord .q4 3824)) 0 0 ∧ 64 * 3824 + weightBytes .q4 = base.bufSize 0) ∧
    (ChainDue (moving (chainX (mmaWord .f16 true 3 0 127))) 9 (chainX (mmaWord .f16 true 3 0 127)) 0 0 ∧
      ¬ tileHeld (moving (chainX 0)) 0 3 ∧ tileThere (moving (chainX 0)) 0 3 ∧ allowedPair .f16 ((moving (chainX 0)).bank 0).weights.fmt) ∧
    (ChainDue (moving (chainX (mmaWord .i8 false 3 0 128))) 9 (chainX (mmaWord .i8 false 3 0 128)) 0 0 ∧
      ¬ allowedPair .i8 ((moving (chainX 0)).bank 0).weights.fmt) ∧
    (∃ s : State, ChainDue s 9 (chainX (wloadWord .f16 0)) 0 0 ∧
      s.marksIn (Loc.wbuf 0 (s.bufBase 0 + 64 * 0)).markKey (weightBytes .f16) ≠ [] ∧ (s.wave 0).resident = true ∧
      s.xferOf 0 (chainX (wloadWord .f16 0)) = true) ∧
    ChainDue (moving (chainX (czeroWord 3))) 9 (chainX (czeroWord 3)) 0 0 ∧
    (∃ s : State, ChainDue s 9 (chainX (czeroWord 3)) 0 0 ∧ ¬ tileThere s 0 3) ∧
    (let x := { chainX (czeroWord 3) with aw := some 0xFF00000000000FF0, got := [4] }
     ChainDue (moving x) 9 x 0 0 ∧ 0 < x.got.getD 0 0 ∧ commandGoes (moving x) x 0) ∧
    (∀ l, unmarked (moving (chainX 0)) l 0 0x40000) := by
  refine ⟨⟨chain_due _, by decide +kernel⟩, ⟨chain_due _, ?_, by decide +kernel, by decide +kernel⟩, ⟨chain_due _, by decide +kernel⟩,
    ⟨{ moving (chainX (wloadWord .f16 0)) with poison := [((Loc.wbuf 0 7).markKey, true)] },
      ⟨rfl, ⟨rfl, by intro q h; omega, List.mem_singleton.2 rfl⟩, ⟨Nat.le_refl 1, Nat.le_refl 1⟩, by decide +kernel⟩, by decide +kernel⟩,
    chain_due _, ⟨{ moving (chainX (czeroWord 3)) with banks := (moving (chainX 0)).banks ++ [(1, { Bank.zero with owner := some 1 })] },
      ⟨rfl, ⟨rfl, by intro q h; omega, List.mem_singleton.2 rfl⟩, ⟨Nat.le_refl 1, Nat.le_refl 1⟩, by decide +kernel⟩, by decide +kernel⟩,
    ⟨⟨rfl, ⟨rfl, by intro q h; omega, List.mem_singleton.2 rfl⟩, ⟨Nat.le_refl 1, Nat.le_refl 1⟩, by decide +kernel⟩, by decide,
      .inr (.inr ⟨3, rfl, by decide +kernel, ?_⟩)⟩, ?_⟩
  · rintro ⟨o, ho, -⟩
    rw [(by decide +kernel : ((moving (chainX 0)).core (coreOfBank 0)).queue = [])] at ho; cases ho
  · rintro ⟨o, ho, -⟩
    have ho : o ∈ ((moving (chainX 0)).core (coreOfBank 0)).queue := ho
    rw [(by decide +kernel : ((moving (chainX 0)).core (coreOfBank 0)).queue = [])] at ho; cases ho
  · intro l e he; rw [(by decide +kernel : (moving (chainX 0)).poison = [])] at he; cases he

/-- A transfer of one element that lands in bank 0, to the window or to memory. -/
theorem landing (x : Xfer) (h : x = xfer0 ∨ x = { xfer0 with dst := rec0 0x20000, aw := some 0xFF00000000000300 }) :
    Landing1 (moving x) 9 x 0 0 := by
  rcases h with rfl | rfl <;>
    exact ⟨rfl, by decide +kernel, .inl rfl, rfl, by decide +kernel, by decide, by decide, by decide +kernel⟩
def sent (aw : Option Word) : Xfer := { xfer0 with kind := .nsend, landed := [0], receivers := [], aw := aw }
def posting : Posted := { team := team0, waveIx := 0, x := .a, mask := 1, strm := 2, dst := rec0 0x20000, aw := none }
def faulted : Xfer := { xfer0 with fault := some (.prot, 0x20000) }

theorem witness_TransfersLandCompleteAndFault :
    (Landing1 (moving xfer0) 9 xfer0 0 0 ∧ xfer0.aw = none ∧ elementAt xfer0.dst 0 = some 0 ∧ xfer0.units = 1 ∧
      xfer0.dst.base.toNat - 0xFF00000000000000 + 0 + elementBytes xfer0.dst ≤ team0.spSize) ∧
    (∃ x leaf, Landing1 (moving x) 9 x 0 0 ∧ x.got = [0] ∧ elementAt x.dst 0 = some 0 ∧
      engLoc (moving x) x.team 0 true x.openDst x.dst.base 0 (elementBytes x.dst) = .ok (.phys 0x20000) leaf ∧
      x.aw = some 0xFF00000000000300) ∧
    (∃ x : Xfer, (moving x).xferBy 9 = some x ∧ x.kind ≠ .nsend ∧ x.fault = none ∧ x.units ≤ x.data.length ∧
      (∀ r, r < x.receivers.length → x.units ≤ x.landed.getD r 0) ∧ x.chainDue = [] ∧ x.bounce = []) ∧
    (∃ x : Xfer, (moving x).xferBy 9 = some x ∧ x.kind ≠ .nsend ∧ x.fault = none ∧ x.chainDue = [] ∧ x.bounce = [(191, 3)] ∧ ∀ h ∈ x.bounce, h.2 < 4) ∧
    ((moving faulted).xferBy 9 = some faulted ∧ faulted.fault ≠ none ∧ faulted.receivers ≠ []) ∧
    (∃ x : Xfer, (moving x).xferBy 9 = some x ∧ x.kind = .nsend ∧ (∀ y ∈ (moving x).xfers, y.key = 9 → y = x) ∧ x.landed = [] ∧
      x.fault = none ∧ x.granule = none ∧ x.cbufWait = 0 ∧ x.data.length = x.units ∧ x.src.q4 = false ∧
      (moving x).regBits (0x100000 + 16) 0 16 ≤ ((moving x).xfers.filter fun y => y.kind == .nsend && y.flow == x.flow && y.landed != []).length) ∧
    (∃ s : State, (s.xfers.filter fun y => y.kind == .nsend && y.flow == 0 && y.landed != []).length < s.regBits (0x100000 + 16) 0 16) ∧
    ((moving (sent none)).xferBy 9 = some (sent none) ∧ (sent none).landed ≠ []) ∧
    (∃ a, (moving (sent (some a))).xferBy 9 = some (sent (some a)) ∧ a.toNat = 0xFF00000000000000 + 0x300 ∧ (sent (some a)).message ≠ [] ∧
      (sent (some a)).src.q4 = false ∧ (moving (sent (some a))).engLive (sent (some a)) 0 = true) ∧
    (SMap.get (fun _ => []) base.arrived 0 = [] ∧ SMap.get (fun _ => []) base.posted 0 = []) ∧
    (∃ s : State, SMap.get (fun _ => []) s.arrived 0 = [] ∧ SMap.get (fun _ => []) s.posted 0 = posting :: [] ∧ posting.aw = none ∧
      spaceOf posting.dst.base = .tenant ∧ plainFormat posting.dst ∧ ¬ s.regBits 0x100000 1 1 = 1) ∧
    (∃ s : State, SMap.get (fun _ => []) s.arrived 0 = [] ∧ s.regBits 0x100000 1 1 = 1 ∧ ∃ x ∈ s.xfers, x.kind = .recv ∧ x.flow = 0) ∧
    (faulted.fault = some (.prot, 0x20000) ∧ faulted.chainDue = [] ∧ (moving faulted).teamAway faulted.team = false ∧
      (moving faulted).xferHome faulted = some 0 ∧ ((moving faulted).wave 0).resident = true ∧ ((moving faulted).wave 0).service = none ∧
      ((moving faulted).wave 0).handler = false ∧ (((moving faulted).wave 0).slot faulted.x).live = true ∧
      (moving faulted).atBoundary 0 faulted.x = true ∧ Cause.prot ≠ .poison) ∧
    (∃ s : State, s.xferBy 9 = some faulted ∧ s.teamAway faulted.team = false ∧ s.xferHome faulted = some 0 ∧ (s.wave 0).resident = true ∧
      ((s.wave 0).slot faulted.x).live = false ∧ (s.wave 0).frozen = none) ∧
    (∃ (s : State) (v : Service), s.xferBy 9 = some faulted ∧ s.xferHome faulted = some 0 ∧ (s.wave 0).service = some v ∧
      ((s.wave 0).slot faulted.x).live = true ∧ (s.wave 0).heldFault = none) := by
  refine ⟨⟨landing _ (.inl rfl), rfl, rfl, rfl, by decide⟩, ⟨_, some page, landing _ (.inr rfl), rfl, rfl, by decide +kernel, rfl⟩,
    ⟨{ xfer0 with landed := [1] }, by decide +kernel⟩, ⟨{ xfer0 with bounce := [(191, 3)] }, by decide +kernel⟩, by decide +kernel,
    ⟨{ sent none with landed := [] }, by decide +kernel⟩, ⟨(moving (sent none)).setReg 0x100010 2, by decide +kernel⟩,
    by decide +kernel, ⟨0xFF00000000000300, by decide +kernel⟩, by decide +kernel,
    ⟨{ base with posted := [(0, [posting])] }, by decide +kernel⟩,
    ⟨(moving { xfer0 with kind := .recv }).setReg 0x100000 3, by decide +kernel⟩, by decide +kernel,
    ⟨onSlot (fun t => { t with live := false }) (moving faulted), by decide +kernel⟩,
    ⟨onWave (fun W => { W with service := some { nested := false, timing := false } }) (moving faulted), _, by decide +kernel,
      by decide +kernel, rfl, by decide +kernel⟩⟩

/-- A record at 0x20000: its LOCK word, its next capsule's code address and step count, a delivery word at 0x30000, TOUCH and a
checkpoint of zeros. s4 holds the record's address, s5 the delivery word's. -/
def capRecord (lock prog touch : Nat) (s : State := base) : State :=
  regs [(4, 0x20000), (5, 0x30000)] (s.storeBytes 0x20000
    (leBytes 8 lock ++ leBytes 8 0x11000 ++ leBytes 8 prog ++ leBytes 8 0x30000 ++ leBytes 64 0 ++ leBytes 8 touch))
theorem on_record {s : State} (n : Nat) (hc : s.cur.1 = 0) (hp : s.poison = []) (hr : (s.teamOf s.cur.1).map (·.rerun) = some false)
    (h : resolve s 0 .atomic 0x20000 n = .ok (.phys 0x20000) (some page)) : OnRecord s 0x20000 n 0x20000 :=
  ⟨plain_team hr, ⟨some page, by rw [hc]; exact h⟩, fun _ _ => by rw [hp]; rfl⟩
theorem record_good {s : State} (h : (quad s 0x20068 = 0 ∧ stateOf (quad s 0x20000) < 3 ∧ quad s 0x20008 ≠ 0 ∧
      quad s 0x20010 / 2 ^ 56 % 16 = 0 ∧ quad s 0x20070 / 2 ^ 56 = 0 ∧ ∀ i, i < 32 → 15 ≤ i → quad s (0x20000 + 8 * i) = 0))
    (hl : (stateOf (quad s 0x20000) ≠ 0 ∧ holderOf (quad s 0x20000) ≠ 0) ∨ (stateOf (quad s 0x20000) = 0 ∧ holderOf (quad s 0x20000) = 0 ∧
      quad s 0x20010 % 2 ^ 56 = 0 ∧ quad s 0x20010 / 2 ^ 60 = 0)) (tag : Nat) : RecordGood s 0x20000 tag := by
  obtain ⟨h1, h2, h3, h4, h5, h6⟩ := h
  refine ⟨.inl h1, h2, fun hs => ?_, fun hs => ?_, h3, h4, h5, fun i hi hj => h6 i hj hi⟩
  · rcases hl with hl | hl
    · exact hl.2
    · exact absurd hl.1 hs
  · rcases hl with hl | hl
    · exact absurd hs hl.1
    · exact hl.2
def capFree : State := capRecord 3 0 0
def capAdoptable : State := capRecord (3 + 2 * 2 ^ 16 + 9 * 2 ^ 24) 0x11000 0
/-- A record that has made 15 steps; addresses of record and delivery word, in a VF that may replay. -/
def capLast : State := capRecord (3 + 1 * 2 ^ 16 + 1 * 2 ^ 24) (0x11000 + 15 * 2 ^ 60) 0
def capAt (record del : Word) (s : State := base) : State := regs [(4, record), (5, del)] s
def capBusy : State := capRecord (3 + 1 * 2 ^ 16 + 9 * 2 ^ 24) 0x11000 0

theorem witness_CapsulesAreAcquiredOrAdopted :
    (base.hasFeature 2 ∧ base.cw.capsule = none ∧ ((regs [(5, 0x30008)]).S 5).toNat % 16 ≠ 0) ∧
    ((capFree.S 5).toNat % 16 = 0 ∧ inWindow (capFree.S 5) = false ∧ ((regs [(4, 0x20080), (5, 0x30000)]).S 4).toNat % 256 ≠ 0) ∧
    ((capFree.S 4).toNat % 256 = 0 ∧ inWindow (capFree.S 4) = false ∧ OnRecord capFree 0x20000 256 0x20000 ∧
      resolve capFree 0 .atomic 0x30000 16 = .ok (.phys 0x30000) (some page)) ∧
    (inWindow ((capAt 0 0xFF00000000000100).S 5) = true ∧ ((capAt 0 0xFF00000000000100).S 5).toNat % 16 = 0 ∧
      inWindow ((capAt 0xFE00000000000000 0x30000).S 4) = true ∧ ((capAt 0xFE00000000000000 0x30000).S 4).toNat % 256 = 0) ∧
    (resolve base 0 .atomic 0x40000000 256 = .fault .xlate ∧ resolve base 0 .atomic 0x40000000 16 = .fault .xlate ∧
      resolve base 0 .atomic 0x20000 256 ≠ .fault .xlate ∧ inWindow (0x40000000 : Word) = false) ∧
    (resolve (replayable 0) 0 .atomic 0x40000000 256 = .park 0x40000000 3 ∧ resolve (replayable 0) 0 .atomic 0x30000 16 ≠ .fault .xlate) ∧
    (∃ s : State, resolve s 0 .atomic 0x40000000 256 = .fault .prot ∧ resolve s 0 .atomic 0x40000000 16 = .fault .prot ∧
      resolve s 0 .atomic 0x20000 256 = .ok (.phys 0x20000) (some page)) ∧
    ¬ RecordGood (capRecord 3 1 0) 0x20000 0 ∧
    (RecordGood capFree 0x20000 0 ∧ stateOf (quad capFree 0x20000) = 0) ∧
    (OnRecord capAdoptable 0x20000 256 0x20000 ∧ RecordGood capAdoptable 0x20000 0 ∧ stateOf (quad capAdoptable 0x20000) = 2 ∧
      resolve capAdoptable 0 .atomic 0x30000 16 = .ok (.phys 0x30000) (some page)) ∧
    (OnRecord capBusy 0x20000 256 0x20000 ∧ RecordGood capBusy 0x20000 0 ∧ stateOf (quad capBusy 0x20000) = 1 ∧
      resolve capBusy 0 .atomic 0x30000 16 = .ok (.phys 0x30000) (some page) ∧
      ¬ ((capBusy.part (capBusy.partOf 0)).adoptage ≠ 0 ∧
        (capBusy.part (capBusy.partOf 0)).adoptage.toNat < (capBusy.cycle + 2 ^ 64 - quad capBusy 0x20060) % 2 ^ 64)) ∧
    (∃ s : State, RecordGood s 0x20000 0 ∧ stateOf (quad s 0x20000) = 1 ∧ (s.part (s.partOf s.cur.1)).adoptage ≠ 0 ∧
      (s.part (s.partOf s.cur.1)).adoptage.toNat < (s.cycle + 2 ^ 64 - quad s 0x20060) % 2 ^ 64) ∧
    (resolve capFree 0 .load 0x20000 8 = .ok (.phys 0x20000) (some page) ∧ capFree.clean (.phys 0x20000) 8) ∧
    ((capsuled 0).hasFeature 2 ∧ (capsuled 0).cw.capsule ≠ none ∧ (capsuled 0).cw.handler = false) ∧
    ((handled (capsuled 0)).cw.capsule ≠ none ∧ (handled (capsuled 0)).cw.handler = true) := by
  refine ⟨⟨base_features 2 (by decide), by decide +kernel⟩, by decide +kernel,
    ⟨by decide +kernel, by decide +kernel, on_record _ (by decide +kernel) (by decide +kernel) (by decide +kernel) (by decide +kernel),
      by decide +kernel⟩, by decide +kernel, by decide +kernel, by decide +kernel, ⟨base.storeBytes 0x3008 [0x03], by decide +kernel⟩, fun h => absurd (h.free (by decide +kernel)).2.1 (by decide +kernel),
    ⟨record_good (by decide +kernel) (by decide +kernel) 0, by decide +kernel⟩,
    ⟨on_record _ (by decide +kernel) (by decide +kernel) (by decide +kernel) (by decide +kernel),
      record_good (by decide +kernel) (by decide +kernel) 0, by decide +kernel⟩,
    ⟨on_record _ (by decide +kernel) (by decide +kernel) (by decide +kernel) (by decide +kernel),
      record_good (by decide +kernel) (by decide +kernel) 0, by decide +kernel⟩,
    ⟨({ capBusy with cycle := 50 }.setPart 0 { capBusy.part 0 with adoptage := 49 }),
      record_good (by decide +kernel) (by decide +kernel) 0, by decide +kernel⟩,
    ⟨by decide +kernel, clean_of (by decide +kernel) _ _⟩, ⟨base_features 2 (by decide), by decide +kernel⟩, by decide +kernel⟩

/-- The capsule of `inStep`, with s48 to s55 of zeros at entry, and a store in its buffer. -/
def held (adopter committed : Bool) : Capsule :=
  { inStep 63 with
                  adopter := adopter, saved := List.replicate 8 0, committed := committed
                  buffer := [{ addr := 0x28000, loc := .phys 0x28000, size := 4, value := 7, norep := false }] }
/-- A wave in it whose record is at LOCK `lock`. -/
def holding (lock : Nat) (adopter committed : Bool) : State :=
  onWave (fun W => { W with capsule := some (held adopter committed) }) (capRecord lock 0x11000 0)
def ours : Nat := 3 + 1 * 2 ^ 16 + 1 * 2 ^ 24
def others : Nat := 3 + 1 * 2 ^ 16 + 9 * 2 ^ 24

theorem witness_CapsulesCommitExitOrDrop :
    (base.hasFeature 2 ∧ base.cw.capsule = none) ∧
    ((holding ours false false).cw.capsule = some (held false false) ∧ OnRecord (holding ours false false) 0x20000 8 0x20000 ∧
      storesAt ((holding ours false false).withRecord 0x20000 8) (held false false).buffer (held false false).buffer ∧ (holding ours false false).cw.handler = false ∧
      stillHolder (holding ours false false) (held false false) 0x20000 ∧ quad (holding ours false false) 0x20010 / 2 ^ 60 < 15 ∧
      inWindow (BitVec.ofNat 64 (quad (holding ours false false) 0x20018)) = false ∧
      bodyReg 48 ∧ resolve ((holding ours false false).withRecord 0x20000 8) 0 .atomic
        (BitVec.ofNat 64 (quad (holding ours false false) 0x20018)) 16 = .ok (.phys 0x30000) (some page) ∧
      storesAt (((holding ours false false).withRecord 0x20000 8).holdRes 0 0x30000 (.ok (.phys 0x30000) (some page)))
        (held false false).buffer (held false false).buffer ∧
      (held false false).instrs < 64 ∧ (held false false).saved.length = 8) ∧
    (stillHolder capLast (held false false) 0x20000 ∧ quad capLast 0x20010 / 2 ^ 60 = 15) ∧
    inWindow (BitVec.ofNat 64 (quad (base.storeBytes 0x20018 (leBytes 8 0xFF00000000000000)) 0x20018)) = true ∧
    resolve (base.withRecord 0x20000 8) 0 .atomic 0x40000000 16 = .fault .xlate ∧
    resolve ((replayable 0).withRecord 0x20000 8) 0 .atomic 0x40000000 16 = .park 0x40000000 3 ∧
    (OnRecord (holding others false false) 0x20000 8 0x20000 ∧
      resolve ((holding others false false).withRecord 0x20000 8) 0 .atomic 0x30000 16 = .ok (.phys 0x30000) (some page) ∧ ¬ stillHolder (holding others false false) (held false false) 0x20000) ∧
    (∀ ad cm, OnRecord (handled (holding ours ad cm)) 0x20000 8 0x20000 ∧ (handled (holding ours ad cm)).cw.handler = true ∧
      (handled (holding ours ad cm)).cw.capsule = some (held ad cm) ∧ (held ad cm).committed = cm ∧ (held ad cm).adopter = ad ∧
      stillHolder (handled (holding ours ad cm)) (held ad cm) 0x20000) ∧
    (∀ ad, OnRecord (handled (holding others ad false)) 0x20000 8 0x20000 ∧ (handled (holding others ad false)).cw.handler = true ∧
      ¬ stillHolder (handled (holding others ad false)) (held ad false) 0x20000) := by
  refine ⟨⟨base_features 2 (by decide), by decide +kernel⟩,
    ⟨by decide +kernel, on_record _ (by decide +kernel) (by decide +kernel) (by decide +kernel) (by decide +kernel), ⟨rfl, ?_⟩,
      by decide +kernel, by unfold stillHolder; decide +kernel, by decide +kernel, by decide +kernel, by unfold bodyReg; decide,
      low .atomic (by decide +kernel) 0x30000 (by decide) 16 (by decide), ⟨rfl, ?_⟩, by decide⟩,
    ⟨by unfold stillHolder; decide +kernel, by decide +kernel⟩, by decide +kernel, by decide +kernel, by decide +kernel,
    ⟨on_record _ (by decide +kernel) (by decide +kernel) (by decide +kernel) (by decide +kernel),
      low .atomic (by decide +kernel) 0x30000 (by decide) 16 (by decide), by unfold stillHolder; decide +kernel⟩,
    ?_, ?_⟩
  · intro e h; rw [List.mem_singleton.1 h]; exact ⟨by decide, 0x28000, some page, rfl, low .store (by decide +kernel) 0x28000 (by decide) 4 (by decide)⟩
  · intro e h; rw [List.mem_singleton.1 h]; exact ⟨by decide, 0x28000, some page, rfl, low .store (by decide +kernel) 0x28000 (by decide) 4 (by decide)⟩
  · intro ad cm
    refine ⟨on_record _ ?_ ?_ ?_ ?_, ?_, ?_, rfl, rfl, ?_⟩
    all_goals first | (unfold stillHolder; revert ad cm; decide +kernel) | (revert ad cm; decide +kernel)
  · intro ad
    refine ⟨on_record _ ?_ ?_ ?_ ?_, ?_, ?_⟩
    all_goals first | (unfold stillHolder; revert ad; decide +kernel) | (revert ad; decide +kernel)

def aRecord : FaultRec := { vaddr := 0x40000000, vf := 0, rd := true, wr := false, at_ := false, eng := false, gsz := 3, wave := 0, seq := 9 }
/-- Slot B parked in an operation, and its wave with an access that is translated. -/
def parkedB (o : SlotOp) (p : Pend := .none) (s : State := base) : State :=
  onWave (fun W => { W with pend := p, slotB := { W.slotA with park := .op o, mask := 0 } }) s

/-- The same behind a trap of slot A, kept as it stood. -/
def stoppedB (o : SlotOp) : State :=
  onWave (fun W => { W with handler := true, frozen := some (W.slotA, { W.slotA with park := .op o, mask := 0 }) })
/-- A wave without handler flow awaits what its slot is parked in, and one that a trap has stopped what the kept slot is. -/
theorem awaits_of {W : Wave} {x : SlotId} {o : SlotOp} (h : W.frozen = none ∧ (W.slot x).park = .op o) : W.awaits x o := by
  unfold Wave.awaits; rw [h.1]; exact h.2
theorem awaits_stopped {W : Wave} {f : Slot × Slot} {x : SlotId} {o : SlotOp} (h : W.frozen = some f ∧ (W.slot x).park = .none ∧
    (match x with | .a => f.1 | .b => f.2).park = .op o) : W.awaits x o := by
  unfold Wave.awaits; rw [h.1]
  refine .inr ⟨fun k => ?_, h.2.2⟩
  obtain ⟨p, hp⟩ := k.2
  rw [h.2.1] at hp; cases hp

theorem witness_TranslationServiceKeepsItsOrder :
    (xlatForm (.tlbinv 5 6) = some 5 ∧ base.cw.capsule = none ∧ base.cw.system = true ∧ 512 ≤ ((regs [(5, 512)]).S 5).toNat ∧
      ((regs [(5, 192)]).S 5).toNat < 512 ∧ ¬ (regs [(5, 192)]).namesVf 192) ∧
    (base.namesVf (base.S 5) ∧ (base.fbuf 0).recs = []) ∧
    (∃ s : State, (s.fbuf 0).recs = aRecord :: [] ∧ aRecord.inRange ∧ (s.fbuf 0).recs.length ≤ 1024 ∧ s.namesVf (s.S 5)) ∧
    (((parkedB (.tlbinv 0 0)).wave 0).awaits .b (.tlbinv 0 0) ∧ ¬ translatedAccess (parkedB (.tlbinv 0 0)) 0) ∧
    ((stoppedB (.tlbinv 0 256)).wave 0).awaits .b (.tlbinv 0 256) ∧
    (∃ s : State, (s.wave 0).awaits .b (.tlbinv 0 0) ∧ translatedAccess s 0) ∧
    (∃ s : State, (s.wave 0).awaits .b (.tlbinv 0 0) ∧ (s.wave 0).pend = .none ∧ translatedAccess s 0) ∧
    ((((parkedB (.xlreplay 0)).wave 0).slot .b).park = .op (.xlreplay 0) ∧ ((parkedB (.xlreplay 0)).wave 0).frozen = none) := by
  refine ⟨⟨rfl, by decide +kernel, by decide +kernel, by decide +kernel, by decide +kernel, ?_⟩,
    ⟨by unfold State.namesVf; decide +kernel, by decide +kernel⟩,
    ⟨base.setFbuf 0 { FaultBuffer.zero with recs := [aRecord] }, by decide +kernel, by unfold FaultRec.inRange; decide, by decide +kernel,
      by unfold State.namesVf; decide +kernel⟩,
    ⟨awaits_of (by decide +kernel), ?_⟩,
    awaits_stopped (f := ((base.wave 0).slotA, { (base.wave 0).slotA with park := .op (.tlbinv 0 256), mask := 0 })) (by decide +kernel),
    ⟨parkedB (.tlbinv 0 0) (.load .a 0x10000 [5] [loadRet false]), awaits_of (by decide +kernel), ?_⟩,
    ⟨gated (.store [wordStore]) (parkedB (.tlbinv 0 0)), awaits_of (by decide +kernel), by decide +kernel, ?_⟩, by decide +kernel⟩
  · rintro ⟨-, h, -⟩; exact absurd h (by decide)
  · rintro ⟨e, he, -, -, h⟩
    rw [(by decide +kernel : (parkedB (.tlbinv 0 0)).waves = [(0, (parkedB (.tlbinv 0 0)).wave 0)]), List.mem_singleton] at he
    subst he
    have hp : ((parkedB (.tlbinv 0 0)).wave 0).pend = .none ∧ ((parkedB (.tlbinv 0 0)).wave 0).gates = [] := by decide +kernel
    rcases h with ⟨_, _, _, _, h⟩ | h
    · rw [hp.1] at h; cases h
    · exact h hp.2
  · exact ⟨(0, (parkedB (.tlbinv 0 0) (.load .a 0x10000 [5] [loadRet false])).wave 0), by decide +kernel, by decide +kernel, by decide +kernel,
      .inl ⟨_, _, _, _, rfl⟩⟩
  · exact ⟨(0, (gated (.store [wordStore]) (parkedB (.tlbinv 0 0))).wave 0), by decide +kernel, by decide +kernel, by decide +kernel,
      .inr (by decide +kernel)⟩
/-- An instance of wave 0 whose check fails. -/
def failing0 : Check :=
  { wave := 0, x := .a, again := false, stage := 2, pc := 0x10000, entered := 1, rerolls := 0, inj := false, pers := false
    fired := false, armed := false, words := [], phase := .failing }
/-- A second team of the kernel, ready in bank 1. -/
def two (s : State := base) : State :=
  (s.setBank 1 { Bank.zero with owner := some 0, team := some { team0 with setBanks := [1] } }).setWave 8 (base.wave 0)
def swapping (n at_ : Nat) (s : State := two) : State := s.setCore 0 { s.core 0 with active := at_, swapTo := some n }
/-- Bytes listed at addresses from `a`, and what they read as. -/
def laid (a k : Nat) (bs : List Byte) : List (Nat × Byte) := ((bs.zipIdx k).filter fun e => e.1 != 0).map fun e => (a + e.2, e.1)
theorem get_laid (a : Nat) (bs : List Byte) : ∀ k j, SMap.get zeros (laid a k bs) (a + j) = if j < k then 0 else bs.getD (j - k) 0 := by
  induction bs with
  | nil => intro k j; simp [laid, SMap.get, zeros]
  | cons b bs ih =>
    intro k j
    have h := ih (k + 1) j
    have hs : laid a k (b :: bs) = if b = 0 then laid a (k + 1) bs else (a + k, b) :: laid a (k + 1) bs := by
      unfold laid
      rw [List.zipIdx_cons, List.filter_cons]
      split <;> simp_all
    rw [hs]
    by_cases hj : j < k
    · rw [if_pos (by omega)] at h
      rw [if_pos hj]
      split
      · exact h
      · unfold SMap.get at h ⊢; rw [SMap.find?_cons, if_neg (by omega)]; exact h
    · rw [if_neg hj]
      by_cases he : j = k
      · subst he
        rw [if_pos (by omega)] at h
        rw [Nat.sub_self]
        split
        · next hb => rw [h, hb]; rfl
        · unfold SMap.get; rw [SMap.find?_cons, if_pos rfl]; rfl
      · rw [if_neg (by omega)] at h
        rw [show j - k = (j - (k + 1)) + 1 by omega, List.getD_cons_succ, ← h]
        split
        · rfl
        · unfold SMap.get; rw [SMap.find?_cons, if_neg (by omega)]
theorem get_above {lo hi : List (Nat × Byte)} {a : Nat} (h : ∀ e ∈ lo, e.1 < a) (j : Nat) :
    SMap.get zeros (lo ++ hi) (a + j) = SMap.get zeros hi (a + j) := by
  unfold SMap.get
  congr 1
  induction lo with
  | nil => rfl
  | cons e lo ih =>
    obtain ⟨k, v⟩ := e
    rw [List.cons_append, SMap.find?_cons, if_neg (by have := h (k, v) (by simp); simp at this; omega)]
    exact ih fun x hx => h x (by simp [hx])
theorem map_getD (bs : List Byte) (n : Nat) (h : bs.length ≤ n) :
    ((List.range n).map fun o => bs.getD o 0) = bs ++ List.replicate (n - bs.length) 0 := by
  apply List.ext_getElem
  · simp; omega
  · intro i h1 h2
    simp only [List.getElem_map, List.getElem_range, List.getElem_append, List.getElem_replicate, List.getD_eq_getElem?_getD]
    split <;> simp_all

/-- An image of a team without waves, at 2 MiB; bank 1 is free. -/
def savedOne : SavedTeam :=
  { team := { team0 with setBanks := [1] }, bank := Bank.zero, waves := List.replicate 8 Wave.idle, wbuf := [], abuf := [], cbuf := []
    view := 0x20000, rollbacks := 0, ops := [], marks := [] }
def headBytes : List Byte := savedOne.nums.flatMap numBytes
def imaged : State :=
  { parkedB (.fill 512 0x200000) .none (base.setBank 1 { Bank.zero with owner := some 0 }) with
    pmem := base.pmem ++ laid 0x200000 0 headBytes }
theorem low_cells : ∀ e ∈ base.pmem, e.1 < 0x200000 := by decide +kernel
theorem imaged_byte (o : Nat) : imaged.byte (0x200000 + o) = headBytes.getD o 0 := by
  unfold State.byte imaged
  rw [get_above low_cells, get_laid]
  simp
theorem head_reads : (Rd.saved.run (savedOne.nums ++ bytesNums (headEnd - savedOne.nums.length)
    (List.replicate (headEnd - (savedOne.nums.flatMap numBytes).length) 0))).1 = some savedOne := by decide +kernel
theorem head_fits : (savedOne.nums.flatMap numBytes).length ≤ headEnd ∧ savedOne.nums.length ≤ headEnd ∧
    ∀ v ∈ savedOne.nums, Nat.log2 v < 2000 := by decide +kernel
theorem head_nums : bytesNums headEnd ((List.range headEnd).map fun o => headBytes.getD o 0) =
    savedOne.nums ++ bytesNums (headEnd - savedOne.nums.length)
      (List.replicate (headEnd - (savedOne.nums.flatMap numBytes).length) 0) := by
  rw [map_getD headBytes headEnd head_fits.1, ← bytesNums_numBytes _ _ _ head_fits.2.2, Nat.add_sub_of_le head_fits.2.1]
  rfl
theorem headOf_eq (rd : Nat → Byte) : headOf rd = (Rd.saved.run (bytesNums headEnd ((List.range headEnd).map rd))).1 := rfl
theorem imaged_head : headOf (fun o => imaged.byte (imagePlace (fun i => 0x200000 + 128 * i) o)) = some savedOne := by
  rw [headOf_eq, show (fun o => imaged.byte (imagePlace (fun i => 0x200000 + 128 * i) o)) = fun o => headBytes.getD o 0 from funext fun o => by
    unfold imagePlace; rw [show 0x200000 + 128 * (o / 128) + o % 128 = 0x200000 + o by omega]; exact imaged_byte o, head_nums, head_reads]
/-- The same area with nothing in it. -/
def blank : State := parkedB (.fill 512 0x200000) .none (base.setBank 1 { Bank.zero with owner := some 0 })
theorem blank_head : headOf (fun o => blank.byte (imagePlace (fun i => 0x200000 + 128 * i) o)) = none := by
  have hb : ∀ o, blank.byte (imagePlace (fun i => 0x200000 + 128 * i) o) = 0 := by
    intro o
    unfold imagePlace
    rw [show 0x200000 + 128 * (o / 128) + o % 128 = 0x200000 + o by omega]
    have h := get_above (lo := base.pmem) (hi := []) low_cells o
    rw [List.append_nil] at h
    exact h
  rw [show (fun o => blank.byte (imagePlace (fun i => 0x200000 + 128 * i) o)) = fun _ => 0 from funext hb]
  decide +kernel
/-- What holds of all that a map lists, and of what it holds elsewhere, holds at every key. -/
theorem listed {α : Type} {z : Nat → α} {P : Nat → α → Prop} (hz : ∀ k, P k (z k)) {m : List (Nat × α)} (h : ∀ e ∈ m, P e.1 e.2) (k : Nat) :
    P k (SMap.get z m k) := by
  unfold SMap.get
  induction m with
  | nil => exact hz k
  | cons e m ih =>
    rw [SMap.find?_cons]
    split
    · next he => subst he; exact h e (by simp)
    · exact ih fun x hx => h x (by simp [hx])
theorem stays {s : State} (h : ∀ e ∈ s.banks, ∀ T ∈ e.2.team, e.1 ∈ T.setBanks ∧ ∀ b ∈ T.setBanks, b / 16 = e.1 / 16) : s.setsStay :=
  fun b T hT => listed (P := fun b (B : Bank) => ∀ T ∈ B.team, b ∈ T.setBanks ∧ ∀ e ∈ T.setBanks, e / 16 = b / 16) (fun _ _ h => by cases h) h b T hT
/-- Where each set is one bank, no core is tied to another. -/
theorem untied {s : State} (h : ∀ e ∈ s.banks, ∀ T ∈ e.2.team, T.setBanks = [e.1]) {c d : Nat} (t : s.Tied c d) : d = c := by
  induction t with
  | self => rfl
  | next _ hm ih =>
    obtain ⟨T, U, hT, -, he, -⟩ := hm
    rw [listed (P := fun b (B : Bank) => ∀ T ∈ B.team, T.setBanks = [b]) (fun _ _ h => by cases h) h _ T hT, List.mem_singleton] at he
    rw [he]; exact ih
/-- A set of two teams on cores 0 and 1. -/
def paired : State :=
  let s := base.setBank 0 { base.bank 0 with team := some { team0 with setBanks := [0, 2] } }
  s.setBank 2 { Bank.zero with owner := some 0, team := some { team0 with setBanks := [0, 2], setIx := 1 } }

theorem witness_ContextOperationsFollowTheirChecks :
    (ctxForm (regs [(5, 1024)]) (.spill 5 6) = some ([1024], 10) ∧ base.cw.capsule = none ∧ base.cw.system = true) ∧
    (base.partOfCore (1 / 2) = some 0) ∧
    (sameOwner (base.bank 0).owner (base.bank (otherBank 0)).owner ∧
      ∃ s : State, ¬ sameOwner (s.bank 0).owner (s.bank (otherBank 0)).owner) ∧
    (¬ base.namesCore 8 ∧ base.namesCore 512 ∧ base.bankFree (namedBank 512) = true ∧ base.bankFree (namedBank 0) = false) ∧
    ((base.core (namedCore 0)).active = 0 ∧ base.setsStay ∧ (base.core (namedCore 512)).active = 1 - 1 ∧
      (base.core (namedCore 512)).swapTo = none ∧ (base.bank (namedBank 512)).team = none) ∧
    (paired.setsStay ∧ ∃ T, (paired.bank (namedBank 0)).team = some T ∧ T.setBanks = [0, 2] ∧ ∀ e ∈ T.setBanks, paired.noCapsules e) ∧
    (base.namesCore 0 ∧ 0x8000 % 65536 ≠ 0 ∧ base.migrOk (namedBank 1) (namedBank 0) = false) ∧
    (namedCore 8 / 8 = namedCore 9 / 8 ∧ base.migrOk (namedBank 8) (namedBank 9) = true ∧ ¬ (base.namesCore 8 ∧ base.namesCore 9)) ∧
    (base.namesCore 1 ∧ namedCore 512 / 8 = namedCore 1 / 8 ∧ two.migrOk (namedBank 512) (namedBank 1) = true) ∧
    (((parkedB (.banksw 0)).wave 0).awaits .b (.banksw 0) ∧ ((parkedB (.banksw 0)).core 0).active = 0) ∧
    (((parkedB (.banksw 512)).wave 0).awaits .b (.banksw 512) ∧ (parkedB (.banksw 512)).setsStay ∧
      ((parkedB (.banksw 512)).core 0).active = 1 - 1 ∧ ((parkedB (.banksw 512)).core 0).swapTo = none) ∧
    (∃ s : State, (s.wave 0).awaits .b (.banksw 512) ∧ (s.core 0).active ≠ 1 ∧ (s.core 0).swapTo ≠ none) := by
  refine ⟨⟨by decide +kernel, by decide +kernel, by decide +kernel⟩, by decide +kernel,
    ⟨by unfold sameOwner; decide +kernel, base.setBank 1 { Bank.zero with owner := some 1 }, by unfold sameOwner; decide +kernel⟩,
    by unfold State.namesCore; decide +kernel,
    ⟨by decide +kernel, stays (by decide +kernel), by decide +kernel, by decide +kernel, by decide +kernel⟩,
    ⟨stays (by decide +kernel), { team0 with setBanks := [0, 2] }, by decide +kernel, rfl, by unfold State.noCapsules; decide +kernel⟩,
    ⟨by unfold State.namesCore; decide +kernel, by decide +kernel, by decide +kernel⟩,
    by unfold State.namesCore; decide +kernel,
    ⟨by unfold State.namesCore; decide +kernel, by decide +kernel, by decide +kernel⟩,
    ⟨awaits_of (by decide +kernel), by decide +kernel⟩,
    ⟨awaits_of (by decide +kernel), stays (by decide +kernel), by decide +kernel⟩,
    ⟨swapping 1 0 (parkedB (.banksw 512)), awaits_of (by decide +kernel), by decide +kernel⟩⟩

/-- A spill of the set that holds bank 1 alone. -/
theorem spill_of {s : State} (h : (s.teamOf 0).map (·.rerun) = some false ∧ (s.bank 1).team = some { team0 with setBanks := [1] } ∧
    (∀ i, i < 8 → (s.wave (8 * 1 + i)).capsule = none) ∧ (s.wave 0).frozen = none ∧ ((s.wave 0).slot .b).park = .op (.spill 512 0x200000))
    (ha : AreaAt s 0 .store 0x200000 (fun i => 0x200000 + 128 * i)) :
    (s.wave 0).awaits .b (.spill 512 0x200000) ∧ namedBank 512 ∈ [1] ∧ ([1] : List Nat).Nodup ∧ bankOf 0 ∉ [1] ∧ s.plainTeam 0 ∧
      ∀ j e, [1][j]? = some e → (s.bank e).team = some { team0 with setBanks := [1] } ∧ s.noCapsules e ∧
        AreaAt s 0 .store (0x200000 + BitVec.ofNat 64 (0x180000 * j)) (fun i => 0x200000 + 128 * i) := by
  refine ⟨awaits_of ⟨h.2.2.2.1, h.2.2.2.2⟩, by decide, by decide, by decide, fun T hT => by have k := h.1; rw [hT] at k; simpa using k, fun j e he => ?_⟩
  have hj : j = 0 := by
    cases j with
    | zero => rfl
    | succ n => cases he
  subst hj
  cases he
  exact ⟨h.2.1, h.2.2.1, by simpa using ha⟩

theorem witness_ContextsSwapSpillFillAndMove :
    (let s := parkedB (.spill 512 0x200000) .none two
     ((s.wave 0).awaits .b (.spill 512 0x200000) ∧ namedBank 512 ∈ [1] ∧ ([1] : List Nat).Nodup ∧ bankOf 0 ∉ [1] ∧ s.plainTeam 0 ∧
      ∀ j e, [1][j]? = some e → (s.bank e).team = some { team0 with setBanks := [1] } ∧ s.noCapsules e ∧
        AreaAt s 0 .store (0x200000 + BitVec.ofNat 64 (0x180000 * j)) (fun i => 0x200000 + 128 * i)) ∧ s.bankQuiet 1 = true) ∧
    (∃ s : State, (s.wave 0).awaits .b (.spill 512 0x200000) ∧ s.bankQuiet 1 = false ∧
      AreaAt s 0 .store 0x200000 (fun i => 0x200000 + 128 * i)) ∧
    ((imaged.wave 0).awaits .b (.fill 512 0x200000) ∧ bankOf 0 ≠ namedBank 512 + 2 * 0 ∧ imaged.plainTeam 0 ∧
      AreaAt imaged 0 .load (0x200000 + BitVec.ofNat 64 (0x180000 * 0)) (fun i => 0x200000 + 128 * i) ∧
      headOf (fun o => imaged.byte (imagePlace (fun i => 0x200000 + 128 * i) o)) = some savedOne ∧ imaged.imageOk savedOne = true ∧
      savedOne.team.setBanks.length = 1 ∧ savedOne.team.setIx = 0 ∧ imaged.vfPart savedOne.team.vf = imaged.partOf 0 ∧
      namedCore 512 % 8 + 1 ≤ 8 ∧
      imaged.mayTake (namedBank 512 + 2 * 0) savedOne.team.vf savedOne.team.footprint savedOne.view = true ∧ savedOne.team.waves ≠ 0 ∧
      ∀ W ∈ savedOne.waves, W.capsule = none) ∧
    ((imaged.wave 0).frozen = none ∧ (imaged.setCore 0 { imaged.core 0 with margin := { (imaged.core 0).margin with state := 2 } }).mayTake
      (namedBank 512 + 2 * 0) savedOne.team.vf savedOne.team.footprint savedOne.view = false) ∧
    ((blank.wave 0).awaits .b (.fill 512 0x200000) ∧ AreaAt blank 0 .load 0x200000 (fun i => 0x200000 + 128 * i) ∧ blank.plainTeam 0 ∧
      headOf (fun o => blank.byte (imagePlace (fun i => 0x200000 + 128 * i) o)) = none) ∧
    (((parkedB (.migr 512 1)).wave 0).awaits .b (.migr 512 1) ∧ ((parkedB (.migr 512 1)).bank (namedBank 512)).team = none) ∧
    (let s := parkedB (.migr 512 1) .none two
     ((s.wave 0).slot .b).park = .op (.migr 512 1) ∧ (s.wave 0).frozen = none ∧ (s.bank (namedBank 512)).team.isSome ∧ bankOf 0 ≠ namedBank 1 ∧
       s.noCapsules (namedBank 512) ∧ s.migrOk (namedBank 512) (namedBank 1) = true ∧ s.bankQuiet (namedBank 512) = true) := by
  refine ⟨⟨spill_of (by decide +kernel) (area _ (by decide +kernel)), by decide +kernel⟩,
    ⟨parkedB (.spill 512 0x200000) .none (two.setBank 1 { two.bank 1 with loads := [{ wave := 8, launch := 0, table := 0, words := [] }] }),
      awaits_of (by decide +kernel), by decide +kernel, area _ (by decide +kernel)⟩,
    ⟨awaits_of (by decide +kernel), by decide, plain_team (by decide +kernel), area (s := imaged) .load (by decide +kernel), imaged_head,
      by decide +kernel, rfl, rfl, by decide +kernel, by decide, by decide +kernel, by decide,
      fun W h => by rw [List.eq_of_mem_replicate h]; rfl⟩, by decide +kernel,
    ⟨awaits_of (by decide +kernel), area _ (by decide +kernel), plain_team (by decide +kernel), blank_head⟩,
    ⟨awaits_of (by decide +kernel), by decide +kernel⟩,
    ⟨by decide +kernel, by decide +kernel, by decide +kernel, by decide, by unfold State.noCapsules; decide +kernel, by decide +kernel, by decide +kernel⟩⟩

/-- A core whose swap is under way, and which no set ties to another. -/
theorem alone_swaps {s : State} (h : ∀ e ∈ s.banks, ∀ T ∈ e.2.team, T.setBanks = [e.1]) {P : Nat → Prop} (hp : P 0) :
    ∀ d, s.Tied 0 d ∧ (s.core d).swapTo ≠ none ∧ s.quarantined d = false → P d :=
  fun _ hd => by rw [untied h hd.1]; exact hp

theorem witness_SwapsBeginGateAndUngate :
    (two.setsStay ∧ (two.core 0).active < 2 ∧ (two.core 0).swapTo = none ∧ two.quarantined 0 = false ∧ two.teamReady 1 = true ∧
      (two.bank 0).team ≠ none ∧ two.cycle - two.withheld < (two.core 0).since + two.quantum 0) ∧
    (∃ s : State, s.setsStay ∧ s.teamReady (2 * 0 + (1 - (s.core 0).active)) = true ∧ (s.core 0).active < 2 ∧ (s.core 0).swapTo = none ∧
      s.quarantined 0 = false ∧ (s.core 0).since + s.quantum 0 ≤ s.cycle - s.withheld) ∧
    (let s := swapping 1 0
     (s.Tied 0 0 ∧ (s.core 0).swapTo ≠ none ∧ s.quarantined 0 = false) ∧
     (∀ d, s.Tied 0 d ∧ (s.core d).swapTo ≠ none ∧ s.quarantined d = false → (s.core d).active < 2 ∧
       s.noCapsules (2 * d + (s.core d).active)) ∧ (∀ k ∈ (s.core 0).checks, k.phase = .passed) ∧
     (∀ w, w = 0 → s.inChain w .a = false ∧ s.inChain w .b = false ∧ (s.wave w).pend = .none)) ∧
    (∃ s : State, (s.core 0).swapTo = some 1 ∧ (s.core 0).active < 2 ∧ s.noCapsules 0 ∧ ¬ ∀ k ∈ (s.core 0).checks, k.phase = .passed) ∧
    (let s := swapping 1 2
     (s.Tied 0 0 ∧ (s.core 0).swapTo ≠ none ∧ s.quarantined 0 = false) ∧ (s.core 0).active = 2 ∧
     (∀ d, s.Tied 0 d ∧ (s.core d).swapTo ≠ none ∧ s.quarantined d = false → ∀ n, (s.core d).swapTo = some n → (s.core d).active = 2 →
       s.noCapsules (2 * d + n)) ∧
     s.cycle < (s.core 0).swapAt + 32 ∧ ({ s with cycle := 32 }.core 0).swapAt + 32 ≤ { s with cycle := 32 }.cycle) := by
  refine ⟨⟨stays (by decide +kernel), by decide +kernel⟩,
    ⟨{ two with cycle := 2 ^ 32 }, stays (by decide +kernel), by decide +kernel⟩,
    ⟨⟨.self, by decide +kernel⟩, alone_swaps (by decide +kernel) ⟨by decide +kernel, by unfold State.noCapsules; decide +kernel⟩,
      by decide +kernel, by rintro w rfl; decide +kernel⟩,
    ⟨(swapping 1 0).setCore 0 { (swapping 1 0).core 0 with checks := [failing0] }, by decide +kernel, by decide +kernel,
      by unfold State.noCapsules; decide +kernel, by decide +kernel⟩,
    ⟨⟨.self, by decide +kernel⟩, by decide +kernel, alone_swaps (by decide +kernel) fun n hn _ => ?_, by decide +kernel⟩⟩
  have hn : some 1 = some n := (by decide +kernel : ((swapping 1 2).core 0).swapTo = some 1).symm.trans hn
  cases hn
  unfold State.noCapsules; decide +kernel

/-- The service ring of partition 0, of two slots, with `l` waiting for a slot. -/
def ringed (widx : Nat) (l : List RingRec) (s : State := base) : State :=
  ((s.setReg (ringAt 0) 0x50000).setReg (ringAt 0 + 8) (BitVec.ofNat 64 (1 + widx * 2 ^ 32))).setPart 0 { s.part 0 with ringWait := l }
def serviced (nested h : Bool) (thndl : Word) (s : State := base) : State :=
  onWave (fun W => { W with service := some ⟨nested, false⟩, handler := h, frozen := some (W.slotA, Slot.free)
                            trap := { W.trap with thndl := thndl } }) s
theorem tenant_code : isTenantCode Cause.malign.code.toNat := ⟨.malign, rfl, rfl⟩
theorem service_code : ¬ isTenantCode Cause.timing.code.toNat := by
  rintro ⟨c, h, hc⟩; cases c <;> first | exact absurd h (by decide) | exact absurd hc (by decide)

theorem witness_ServiceAnswersResumeDeliverOrKill :
    (∃ r : RingRec, ((ringed 1 [r]).part 0).ringWait = r :: [] ∧ (ringed 1 [r]).ringFree 0 ∧ r.wave < 8192) ∧
    base.guardedIn 0x50000 16 = false ∧ (∃ s : State, s.guardedIn 0x50000 16 = true) ∧
    (∃ r : RingRec, ¬ (ringed 2 [r]).ringFree 0 ∧ ((ringed 2 [r]).part 0).ringWait ≠ []) ∧ (base.part 0).ringWait = [] ∧
    (∀ n h a, ((serviced n h a).wave 0).resident = true ∧ ((serviced n h a).wave 0).service = some ⟨n, false⟩ ∧
      ((serviced n h a).wave 0).capsule = none ∧ ((serviced n h a).wave 0).heldFault = none ∧
      ((serviced n h a).wave 0).handler = h ∧ ((serviced n h a).wave 0).trap.thndl = a ∧
      (∃ f, ((serviced n h a).wave 0).frozen = some f) ∧ (serviced n h a).teamOf 0 = some team0) ∧
    (isTenantCode Cause.malign.code.toNat ∧ Cause.malign.code.toNat < 256 ∧ ¬ isTenantCode Cause.timing.code.toNat) ∧
    (1 : Word).getLsbD 0 = true ∧ (base.wave 0).service = none ∧ (base.wave 1).resident = false := by
  refine ⟨⟨⟨0, 0, 0x60, false, false⟩, by decide +kernel, by unfold State.ringFree; decide +kernel, by decide⟩, by decide +kernel, ⟨{ base with imagePages := [(0, 0, 0x50010, 1)] }, by decide +kernel⟩,
    ⟨⟨0, 0, 0x60, false, false⟩, by unfold State.ringFree; decide +kernel, by decide +kernel⟩, by decide +kernel, ?_,
    ⟨tenant_code, by decide, service_code⟩, by decide, by decide +kernel, by decide +kernel⟩
  intro n h a
  have hw : (serviced n h a).wave 0 = { base.wave 0 with
      service := some ⟨n, false⟩, handler := h, frozen := some ((base.wave 0).slotA, Slot.free)
      trap := { (base.wave 0).trap with thndl := a } } := by
    unfold serviced onWave State.wave State.setWave
    simp only [SMap.get_set_self]
  rw [hw]
  exact ⟨(by decide +kernel : (base.wave 0).resident = true), rfl, (by decide +kernel : (base.wave 0).capsule = none),
    (by decide +kernel : (base.wave 0).heldFault = none), rfl, rfl, ⟨_, rfl⟩, (by decide +kernel : base.teamOf 0 = some team0)⟩

/-! Margin control -/
def checkOf (phase : Phase) (rr : Nat) (inj pers again : Bool) (stage : Nat := 2) : Check :=
  { wave := 0, x := .a, again := again, stage := stage, pc := 0x10000, entered := 1, rerolls := rr, inj := inj, pers := pers
    fired := false, armed := false, words := [], phase := phase }
def checked (k : Check) (f : Margin → Margin := id) (s : State := base) : State :=
  s.setCore 0 { s.core 0 with checks := [k], margin := f (s.core 0).margin }
def margined (f : Margin → Margin) (s : State := base) : State := s.setCore 0 { s.core 0 with margin := f (s.core 0).margin }
/-- Core 0 is quarantined. -/
def stopped (s : State := base) : State := margined (fun m => { m with state := 2 }) s
def vast : State := stopped (onBank fun b => { b with team := some { team0 with spSize := 2 ^ 30 } })
/-- An XV of wave 0 is in flight. -/
def flying : State := pending (.xv .a 0x10000 (heldXv []))
theorem under_check {s : State} {k : Check} (h : (s.core 0).checks = [k] ∧ coreOf k.wave = 0 ∧ s.gone k = false ∧ k.stage < 16 ∧
    s.quarantined 0 = false ∧ (s.margin 0).win < 16) : UnderCheck s 0 k := by
  obtain ⟨h, h1, hg, h2, h3, h4⟩ := h
  refine ⟨?_, h1, hg, h2, ?_, ?_, h3, h4⟩ <;> rw [h]
  · exact List.mem_singleton.2 rfl
  · exact fun d hd _ => List.mem_singleton.1 hd
  · exact fun d hd _ _ => List.mem_singleton.1 hd

theorem lonely {s : State} (h : (s.bank 1).team = none) : ∀ b', (b' = 2 * 0 ∨ b' = 2 * 0 + 1) → b' ≠ 0 → (s.bank b').team = none := by
  rintro b' (rfl | rfl) hb
  · exact absurd rfl hb
  · exact h

/-- A check of a failing instance under the limit and past it, in a run of windows and outside; one that passes; one at step 0. -/
theorem witness_MarginEscalatesAndQuarantines :
    (∃ s k, UnderCheck s 0 k ∧ k.phase = .failing ∧ k.inj = false ∧ failsCheck 0 k (.shadowCheck 0 .a 2 true) ∧
      k.rerolls < (s.margin 0).limit ∧ k.again = true) ∧
    (∃ s k, UnderCheck s 0 k ∧ k.phase = .failing ∧ k.inj = true ∧ k.pers = false ∧ failsCheck 0 k (.injectionFire 0) ∧
      (s.margin 0).limit ≤ k.rerolls ∧ ¬ runEnded (s.margin 0) s.cycle) ∧
    (∃ s : State, runEnded (s.margin 0) s.cycle) ∧
    (∃ s k, UnderCheck s 0 k ∧ k.phase = .failing ∧ k.again = false ∧ k.stage ≠ 6 ∧ k.inj = false) ∧
    (∃ s k, UnderCheck s 0 k ∧ (∀ d ∈ (s.core 0).checks, d.phase = .passed0 → s.gone d = false) ∧ k.phase = .step0 ∧
      (∀ d ∈ (s.core 0).checks, d.phase = .step0 → d = k) ∧ (s.margin 0).cur ≠ 0) ∧
    (∀ inj again, ∃ s k, UnderCheck s 0 k ∧ (∀ d ∈ (s.core 0).checks, d.phase = .passed0 → s.gone d = false) ∧ k.phase = .step0 ∧
      (∀ d ∈ (s.core 0).checks, d.phase = .step0 → d = k) ∧ (s.margin 0).cur = 0 ∧ k.inj = inj ∧ k.again = again) := by
  refine ⟨⟨_, checkOf .failing 0 false false true, under_check (s := checked (checkOf .failing 0 false false true)) (by decide +kernel),
      rfl, rfl, .inl ⟨true, rfl, .inl rfl⟩, by decide +kernel, rfl⟩,
    ⟨_, checkOf .failing 7 true false true, under_check (s := checked (checkOf .failing 7 true false true)) (by decide +kernel),
      rfl, rfl, rfl, .inr ⟨rfl, rfl⟩, by decide +kernel, by unfold runEnded windowAt; decide +kernel⟩,
    ⟨{ base with cycle := 2 ^ 40 }, by unfold runEnded windowAt; decide +kernel⟩,
    ⟨_, checkOf .failing 1 false false false 4, under_check (s := checked (checkOf .failing 1 false false false 4) id flying) (by decide +kernel),
      by decide⟩,
    ⟨_, checkOf .step0 7 false false true, under_check (s := checked (checkOf .step0 7 false false true) fun m => { m with cur := 3 })
      (by decide +kernel), by decide +kernel⟩, ?_⟩
  intro inj again
  exact ⟨_, checkOf .step0 7 inj false again (if again then 2 else 4),
    under_check (s := checked (checkOf .step0 7 inj false again (if again then 2 else 4)) id flying) (by revert inj again; decide +kernel),
    by revert inj again; decide +kernel⟩

/-- An instance that a late sample begins to check: an XV in flight, the instruction of stage 2 that slot A has entered, a row. -/
theorem witness_MarginBeginsAtALateSample :
    (base.quarantined (coreOf 0) = false ∧ (base.margin (coreOf 0)).win < 16 ∧ 0 < (base.margin (coreOf 0)).limit ∧
      (base.core (coreOf 0)).checks = []) ∧
    hadBefore base 0 .a 0 0 [] ∧ rowHadBefore base 0 0 ∧
    (∃ s : State, hadBefore s 0 .a 2 1 [0x12] ∧ 2 < (s.margin 0).limit) ∧ (∃ s : State, rowHadBefore s 0 4) ∧
    inFlightAt flying 0 .a 4 0x10000 ∧ inFlightAt (pending (.load .a 0x10000 [5] [loadRet false])) 0 .a 5 0x10000 ∧
    inFlightAt (gated (.store [wordStore])) 0 .a 5 0x10000 ∧
    (let e : StageEntry := { core := 0, stage := 2, pc := 0x10000 }
     let s := { base with stages := [e] }
     (∀ pc, ¬ inFlightAt s 0 .a 2 pc) ∧ s.stages[0]? = some e ∧ s.stages.head? = some e ∧ (s.margin 0).inj.getLsbD 17 = false) ∧
    (∃ (s : State) (o : MatrixOp) (l : List MatrixOp), (s.core (coreOf 0)).queue = o :: l ∧ o.wave = 0 ∧ o.done < o.rows ∧ o.failed = false ∧
      (∀ d ∈ (s.core (coreOf 0)).checks, d.stage ≠ 6) ∧ (s.margin (coreOf 0)).inj.getLsbD 17 = false ∧ (s.margin (coreOf 0)).win < 16) := by
  have none_ : (base.core (coreOf 0)).checks = [] := by decide +kernel
  let k : Check := { checkOf .passed 2 false false true with words := [0x12] }
  refine ⟨by decide +kernel, .inl ⟨rfl, rfl, rfl, by rw [none_]; exact fun _ h => by cases h⟩,
    .inl ⟨rfl, by rw [none_]; exact fun _ h => by cases h⟩,
    ⟨checked k, .inr ⟨k, by decide +kernel, by decide, rfl, rfl, rfl, by decide +kernel, rfl, rfl, rfl, ?_⟩, by decide +kernel⟩,
    ⟨checked (checkOf .passed 4 false false false 6), .inr ⟨checkOf .passed 4 false false false 6, by decide +kernel, rfl, rfl, rfl, rfl, ?_⟩⟩,
    .inl ⟨rfl, heldXv [], by decide +kernel⟩, .inr ⟨.inl rfl, .inl ⟨[5], [loadRet false], by decide +kernel⟩⟩,
    .inr ⟨.inl rfl, .inr ⟨?_, _, rfl, rfl, by decide⟩⟩, ⟨?_, by decide +kernel⟩, ⟨queued (matOp (.inr 1) 0), matOp (.inr 1) 0, [], by decide +kernel⟩⟩
  · intro e he _
    rw [(by decide +kernel : ((checked k).core (coreOf 0)).checks = [k])] at he
    exact List.mem_singleton.1 he
  · intro e he _
    rw [(by decide +kernel : ((checked (checkOf .passed 4 false false false 6)).core (coreOf 0)).checks =
      [checkOf .passed 4 false false false 6])] at he
    exact List.mem_singleton.1 he
  · intro q n l h
    rw [(by decide +kernel : ((gated (.store [wordStore])).wave 0).pend = .none)] at h; cases h
  · rintro pc (⟨h, -⟩ | ⟨h, -⟩) <;> omega

theorem witness_MarginGovernsAndQuarantines :
    (∃ s : State, (s.margin 0).raiseDue = true ∧ ¬ (∃ e, (s.margin 0).ctlAt = some e ∧ (s.margin 0).raiseAt = some e)) ∧
    (∃ s : State, (s.margin 0).raiseDue = true ∧ (s.margin 0).ctlAt = some 7 ∧ (s.margin 0).raiseAt = some 7) ∧
    (base.margin 0).raiseDue = false ∧
    ((base.margin 0).state ≠ 2 ∧ windowAt (base.margin 0) (base.cycle) ≤ windowAt (base.margin 0) (base.margin 0).seen) ∧
    (∃ s : State, (s.margin 0).state ≠ 2 ∧ windowAt (s.margin 0) (s.margin 0).seen < windowAt (s.margin 0) s.cycle ∧ runEnded (s.margin 0) s.cycle) ∧
    ((margined fun m => { m with state := 1 }).margin 0).state = 1 ∧ (base.margin 0).state ≠ 1 ∧
    (((margined fun m => { m with qdue := 1 }).margin 0).qdue ≠ 0 ∧ (margined fun m => { m with qdue := 1 }).noCapsules (2 * 0) ∧
      (margined fun m => { m with qdue := 1 }).noCapsules (2 * 0 + 1) ∧
      ∀ k ∈ ((margined fun m => { m with qdue := 1 }).core 0).checks, k.stage ≠ 6 ∨ k.phase ≠ .failed0) ∧
    (∃ s k g, (s.margin 0).qdue ≠ 0 ∧ (s.core 0).checks = [k] ∧ k.phase = .failed0 ∧ k.again = false ∧ k.stage = 5 ∧ gateOf s k.wave k.x = some g ∧
      (s.wave k.wave).pend = .none ∧ ¬ (g.hand = (s.wave k.wave).handler ∧ g.mask = ((s.wave k.wave).slot k.x).mask)) ∧
    (∃ s k g, (s.core 0).checks = [k] ∧ k.phase = .failed0 ∧ k.again = false ∧ k.stage = 5 ∧ gateOf s k.wave k.x = some g ∧
      g.hand = (s.wave k.wave).handler ∧ g.mask = ((s.wave k.wave).slot k.x).mask) ∧
    (∃ s : State, s.quarantined (coreOf 0) = true ∧ (s.wave 0).pend = .xv .a 0x10000 (heldXv []) ∧ (s.wave 0).resident = true) ∧
    (∃ s : State, ∃ o l, s.quarantined (coreOf 1) = true ∧ (s.core (coreOf 1)).queue = o :: l ∧ o.wave = 1 ∧ o.done < o.rows ∧
      (s.wave 1).resident = false) ∧
    (ToBeMoved stopped 0 0 team0 ∧ (targetOrder 0)[0]? = some 2 ∧ takesTeam stopped 0 team0 2 ∧ (stopped.wave (8 * 0 + 0)).resident = true ∧
      (stopped.wave 0).service = none ∧ (stopped.wave 0).handler = false) ∧
    (∃ T, ToBeMoved vast 0 0 T ∧ (∀ b' ∈ targetOrder 0, ¬ takesTeam vast 0 T b') ∧ (vast.wave (8 * 0 + 0)).resident = true) := by
  refine ⟨⟨margined fun m => { m with raiseDue := true, errs := [7] }, by decide +kernel,
      by rintro ⟨e, h, -⟩; rw [(by decide +kernel : ((margined fun m => { m with raiseDue := true, errs := [7] }).margin 0).ctlAt = none)] at h; cases h⟩,
    ⟨margined fun m => { m with raiseDue := true, errs := [7], ctlAt := some 7, raiseAt := some 7 }, by decide +kernel⟩, by decide +kernel,
    by unfold windowAt; decide +kernel, ⟨{ base with cycle := 2 ^ 40 }, by unfold runEnded windowAt; decide +kernel⟩, by decide +kernel,
    by decide +kernel,
    ⟨by decide +kernel, by unfold State.noCapsules; decide +kernel, by unfold State.noCapsules; decide +kernel, by decide +kernel⟩,
    ⟨checked (checkOf .failed0 7 false false false 5) (fun m => { m with qdue := 1 }) (gated (.store [wordStore])),
      checkOf .failed0 7 false false false 5, { x := .a, mask := 1, pc := 0x10000, hand := false, stages := [5], effect := .store [wordStore] }, by decide +kernel⟩,
    ⟨checked (checkOf .failed0 7 false false false 5) id (onSlot (fun t => { t with mask := 1 }) (gated (.store [wordStore]))),
      checkOf .failed0 7 false false false 5, { x := .a, mask := 1, pc := 0x10000, hand := false, stages := [5], effect := .store [wordStore] },
      by decide +kernel⟩,
    ⟨stopped flying, by decide +kernel⟩,
    ⟨stopped (queued { matOp (.inr 1) 0 with wave := 1 }), { matOp (.inr 1) 0 with wave := 1 }, [], by decide +kernel⟩,
    ⟨⟨by decide +kernel, by decide +kernel, lonely (by decide +kernel), by decide +kernel, by unfold State.noCapsules; decide +kernel⟩,
      by decide, ?_, by decide +kernel⟩,
    ⟨{ team0 with spSize := 2 ^ 30 },
      ⟨by decide +kernel, by decide +kernel, lonely (by decide +kernel), by decide +kernel, by unfold State.noCapsules; decide +kernel⟩,
      fun b' hb h => absurd h.1 (by clear h; revert b'; decide +kernel), by decide +kernel⟩⟩
  refine ⟨by decide +kernel, fun e U he hU => ?_⟩
  have : e = 2 ∨ e = 3 := by omega
  rcases this with rfl | rfl
  · rw [(by decide +kernel : (stopped.bank 2).team = none)] at hU; cases hU
  · rw [(by decide +kernel : (stopped.bank 3).team = none)] at hU; cases hU

/-- A launch of the kernel with a team to place. -/
def cued : State := { base with launches := [{ loadedLaunch 0 with placed := 0 }] }
/-- Nothing of a retired team acts in a bank. -/
theorem settled {s : State} {b : Nat} (h : (s.core (b / 2)).queue = [] ∧ s.xfers = [] ∧
    ∀ e ∈ s.waves, e.2.gateHits (.share b 0) 0x80000 = false) : Settled s b :=
  ⟨fun m hm => by rw [h.1] at hm; (cases hm), fun x hx => by rw [h.2.1] at hx; (cases hx), h.2.2⟩
/-- A launch of sets of two teams, each to be sampled every second time, and one with CORES of which a team has been placed. -/
def pairLaunch : Launch := { loadedLaunch 0 with placed := 0, packet := [0x2044201, 0, 0, 0x1000, 0, 0, 0, 0] }
def cuedPair : State := { base with launches := [pairLaunch] }.setPart 0 { base.part 0 with audacc := 0, audrate := 0x8000 }
def coresLaunch : Launch := { loadedLaunch 0 with packet := [0x2004101, 0, 0, 0x1000, 0, 0, 0, 0] }
def cuedCores : State := { base with launches := [coresLaunch] }
/-- A first fit in cluster 0, whose bank 0 is taken. -/
theorem first_fit {s : State} {n fp : Nat} {set : List Nat} (h0 : ¬ Offers s 0 0 0 fp) (hl : set.length = n)
    (hc : s.partBase 0 ≤ 0 ∧ 0 ≤ s.partLim 0) (hp : (set.map (· / 2)).Pairwise (· < ·)) (hs : set = [2] ∨ set = [2, 4])
    (hb : ∀ b ∈ set, Offers s 0 b 0 fp) : FirstFit s 0 0 fp n 0 set := by
  refine ⟨⟨hc.1, hc.2, by decide⟩, fun d _ hd => absurd hd (by omega), ⟨hl, hp⟩, fun b hm => ⟨?_, hb b hm, fun h => ?_⟩,
    fun e he ho ha b hm => ?_⟩
  · rcases hs with rfl | rfl <;> simp at hm <;> omega
  · rcases hs with rfl | rfl <;> simp at hm <;> omega
  · have h : e ≠ 0 := fun h => h0 (h ▸ ho)
    rcases hs with rfl | rfl <;> simp at hm ha <;> omega
def done : State := { (onBank fun b => { b with team := none }) with launches := [{ loadedLaunch 0 with retired := 1 }] }
def signalled (op : Nat) : Launch :=
  { loadedLaunch 0 with retired := 1, packet := [BitVec.ofNat 64 (0x1004001 + op * 2 ^ 20), 0, 0, 0x1000, 0x30000, 7, 0, 0] }
def doneWith (op : Nat) : State := { done with launches := [signalled op] }
theorem all_done {s : State} {l : Launch} (h : l.placed = l.teams ∧ l.retired = l.teams)
    (e : s.xfers = [] ∧ s.audits = [] ∧ (s.cores.all fun c => c.2.queue.isEmpty) = true ∧ (s.banks.all fun b => b.2.loads.isEmpty) = true) :
    AllDone s l := by
  obtain ⟨e1, e2, e3, e4⟩ := e
  refine ⟨h, fun x hx => ?_, fun a ha => ?_, fun c hc o ho => ?_, fun b hb o ho => ?_⟩
  · rw [e1] at hx; cases hx
  · rw [e2] at ha; cases ha
  · rw [List.isEmpty_iff.1 (List.all_eq_true.1 e3 c hc)] at ho; cases ho
  · rw [List.isEmpty_iff.1 (List.all_eq_true.1 e4 b hb)] at ho; cases ho

theorem witness_LaunchesArePlacedStartedAndCompleted :
    (Choosing cued 0 ∧ cued.coresLock 0 = none ∧ hasCandidate cued 0 0 0) ∧
    (Choosing cuedCores 0 ∧ cuedCores.coresLock 0 = some coresLaunch ∧ (0, 0) ∈ cuedCores.choosable 0) ∧
    ((0, 0) ∈ cued.choosable 0 ∧ cued.chosen 0 0 0 = some { loadedLaunch 0 with placed := 0 } ∧
      cued.launchOf 0 = some { loadedLaunch 0 with placed := 0 } ∧
      (∀ c, cued.partBase 0 ≤ c → c ≤ cued.partLim 0 → ∀ i, i < 8 → cued.partOfCore (8 * c + i) = some 0) ∧
      FirstFit cued 0 0 ({ loadedLaunch 0 with placed := 0 } : Launch).need 1 0 [2]) ∧
    ((0, 0) ∈ cuedPair.choosable 0 ∧ cuedPair.chosen 0 0 0 = some pairLaunch ∧ pairLaunch.span = 2 ∧ cuedPair.launchOf 0 = some pairLaunch ∧
      FirstFit cuedPair 0 0 pairLaunch.need 2 0 [2, 4] ∧ ¬ sampledAt cuedPair pairLaunch 0 ∧ sampledAt cuedPair pairLaunch 1) ∧
    (cued.launchOf 0 = some { loadedLaunch 0 with placed := 0 } ∧ ¬ AllDone cued { loadedLaunch 0 with placed := 0 }) ∧
    (∀ op, op < 3 → (doneWith op).launchOf 0 = some (signalled op) ∧ AllDone (doneWith op) (signalled op) ∧ (signalled op).sigop = op ∧
      (signalled op).killed = false ∧ (signalled op).snaps = [] ∧
      (op ≠ 0 → (doneWith op).cfePa 0 (signalled op).sigaddr true = some 0x30000)) ∧
    ({ doneWith 2 with poison := [(0x30007, true)] }.cfePa 0 (signalled 2).sigaddr true = some 0x30000 ∧
      SMap.get (fun _ => false) [(0x30007, true)] (0x30000 + 7) = true) ∧
    ((doneWith 1).storeBytes 0x3000 [0]).cfePa 0 (signalled 1).sigaddr true = none := by
  have noAudit : ∀ {s : State} {p : Nat}, s.audits = [] → ∀ a ∈ s.audits, ∀ l, s.launchOf a.launch = some l → l.part = p → s.rerunBank a = none :=
    fun h a ha => by rw [h] at ha; cases ha
  refine ⟨⟨⟨by decide +kernel, noAudit (by decide +kernel)⟩, by decide +kernel,
      by decide, by decide, by decide +kernel, by decide +kernel, { loadedLaunch 0 with placed := 0 }, by decide +kernel⟩,
    ⟨⟨by decide +kernel, noAudit (by decide +kernel)⟩, by decide +kernel⟩,
    ⟨by decide +kernel, by decide +kernel, by decide +kernel, ?_,
      first_fit (fun h => absurd h.free.1 (by decide +kernel)) rfl (by decide +kernel) (by decide) (.inl rfl) ?_⟩,
    ⟨by decide +kernel, by decide +kernel, by decide, by decide +kernel,
      first_fit (fun h => absurd h.free.1 (by decide +kernel)) rfl (by decide +kernel) (by decide) (.inr rfl) ?_,
      fun h => absurd h.2 (by decide +kernel), ⟨by decide, by decide +kernel⟩⟩,
    ⟨by decide +kernel, fun h => absurd h.teams (by decide)⟩, ?_, by decide +kernel, by decide +kernel⟩
  · intro c _ hc
    rw [(by decide +kernel : cued.partLim 0 = 0)] at hc
    obtain rfl := Nat.le_zero.1 hc
    decide +kernel
  · intro b hb
    rw [List.mem_singleton.1 hb]
    exact ⟨by decide +kernel, by decide +kernel, .inr (settled (by decide +kernel)), .inr (by decide +kernel)⟩
  · intro b hb
    have hb : b = 2 ∨ b = 4 := by simpa using hb
    rcases hb with rfl | rfl <;>
      exact ⟨by decide +kernel, by decide +kernel, .inr (settled (by decide +kernel)), .inr (by decide +kernel)⟩
  · intro op hop
    refine ⟨?_, all_done ?_ ?_, ?_, rfl, rfl, ?_⟩ <;> (revert op; decide +kernel)

/-- Queue 0 of VF 0: SIZE, EN, where its indexes stand, and its state. -/
def queue0 (log : Nat) (en : Bool) (w r st : Nat) (s : State := base) : State :=
  ((((s.setReg (queueAt 0 0) 0x60000).setReg (queueAt 0 0 + 8) (BitVec.ofNat 64 (log + if en then 256 else 0))).setReg (queueAt 0 0 + 16)
    (BitVec.ofNat 64 w)).setReg (queueAt 0 0 + 24) (BitVec.ofNat 64 r)).setReg (queueAt 0 0 + 32) (BitVec.ofNat 64 st)
def fed (s : State) : State := s.setRegBits (queueAt 0 0 + 8) 7 1 1
/-- A packet at the head of the ring and a descriptor at 0x70000. -/
def packeted (w0 : Nat) (d : Nat := 0x0401000000 + 0) (s : State := base) : State :=
  (queue0 1 true 1 0 0 (s.storeBytes 0x60000 (leBytes 8 w0 ++ leBytes 8 0x70000 ++ leBytes 8 0 ++ leBytes 8 0x1000))).storeBytes 0x70000
    (leBytes 8 (0x52444B34 + d) ++ leBytes 8 0x10000)
theorem packet_due (w0 d : Nat) (s : State) (h : (packeted w0 d s).vfEn 0 = true ∧ (packeted w0 d s).partEn ((packeted w0 d s).vfPart 0) = true ∧
    (packeted w0 d s).regBits (queueAt 0 0 + 8) 8 1 = 1 ∧ (packeted w0 d s).regBits (queueAt 0 0 + 32) 0 2 ≠ 2 ∧
    (packeted w0 d s).pendingAt 0 0 ((packeted w0 d s).widx 0 0) ≠ 0 ∧
    (packeted w0 d s).launches.all (fun l => decide (l.placed = l.teams)) = true) : PacketDue (packeted w0 d s) 0 0 := by
  obtain ⟨h1, h2, h3, h4, h5, h6⟩ := h
  refine ⟨⟨h1, h2, h3, h4⟩, h5, fun l hl hc => ?_⟩
  have := List.all_eq_true.1 h6 l hl
  simp only [decide_eq_true_eq] at this
  exact absurd hc.2.2 (by omega)
theorem words_at (w0 d : Nat) (s : State) (a n : Nat) (h : a % 8 = 0) (hp : (packeted w0 d s).poison = [])
    (hw : ∀ i, i < n → (packeted w0 d s).cfePa 0 (a + 8 * i) false = some (a + 8 * i)) :
    wordsAt (packeted w0 d s) 0 a n (fun i => a + 8 * i) :=
  ⟨h, fun i hi => ⟨hw i hi, fun k _ => by rw [hp]; rfl⟩⟩

/-- Entry 0 of the launch table: tenant 5, VF 0, queue 0, 16 teams and one credit. -/
def tabled (credit : Nat) (s : State := fed (queue0 1 true 0 0 0)) : State :=
  (s.setReg 0x10000 (BitVec.ofNat 64 (1 + 16 * 2 ^ 24))).setReg 0x10008 (BitVec.ofNat 64 (5 + credit * 2 ^ 32 + 2 * 2 ^ 48))
def aPacket : List Word := [0x1004001, 0x70000, 0, 0x1000, 0, 0, 0, 0]
def waiting : Launch := { loadedLaunch 0 with waited := false, placed := 0, packet := [0x1004801, 0, 0, 0x1000, 0, 0, 0x31000, 0] }
/-- Its wait list at 0x31000: a signal at 0x32000 is to reach 9. -/
def waitState (v : Nat) : State :=
  { ((base.storeBytes 0x31000 (leBytes 8 0x32000 ++ leBytes 8 9)).storeBytes 0x32000 (leBytes 8 v)) with launches := [waiting] }

theorem witness_QueuesTakePacketsAndMessages :
    ((fed base).netFed 0 0 ∧ ¬ base.netFed 0 0 ∧ ¬ base.queueOn 0 0 ∧ (queue0 1 true 0 0 2).queueOn 0 0 ∧ (queue0 1 true 0 0 2).inError 0 0) ∧
    (let s := queue0 1 true 1 3 0
     ¬ s.netFed 0 0 ∧ s.queueOn 0 0 ∧ ¬ s.inError 0 0 ∧ 2 * 2 ^ s.logSize 0 0 ≤ 4 ∧ 2 ^ s.logSize 0 0 < s.pendingAt 0 0 2 ∧
       s.pendingAt 0 0 1 ≤ 2 ^ s.logSize 0 0 ∧ 1 < 2 * 2 ^ s.logSize 0 0) ∧
    (ringGood ((queue0 1 false 0 0 0).queueBase 0 0).toNat ((queue0 1 false 0 0 0).logSize 0 0) ∧
      ¬ ringGood ((queue0 17 false 0 0 0).queueBase 0 0).toNat ((queue0 17 false 0 0 0).logSize 0 0)) ∧
    (PacketDue (packeted 0) 0 0 ∧ wordsAt (packeted 0) 0 0x60000 8 (fun i => 0x60000 + 8 * i) ∧ ((packeted 0).packetAt 0 0).toNat = 0x60000 ∧
      bitField (quad (packeted 0) 0x60000) 0 8 = 0) ∧
    (PacketDue (packeted 2) 0 0 ∧ ¬ PacketGood (fun i => quad (packeted 2) (0x60000 + 8 * i)) 0x40000) ∧
    (∃ s : State, PacketDue s 0 0 ∧ (s.packetAt 0 0).toNat % 8 = 0 ∧ ∃ i, i < 8 ∧ s.cfePa 0 ((s.packetAt 0 0).toNat + 8 * i) false = none) ∧
    (let s := packeted 0x1004001 0x400000000 (base.setReg 0x6000 (0x70000 + 2 ^ 63))
     PacketDue s 0 0 ∧ PacketGood (fun i => quad s (0x60000 + 8 * i)) 0x40000 ∧ wordsAt s 0 0x70000 3 (fun i => 0x70000 + 8 * i) ∧
       quad s 0x60008 = 0x70000 ∧ descriptorGood (quad s 0x70000) ∧ s.vfSvc 0 = true ∧
       s.regBits 0x6000 63 1 = 1 ∧ s.regBits 0x6000 0 56 = 0x70000) ∧
    ¬ descriptorGood (quad (packeted 0x1004001) 0x70000) ∧
    (∀ v, v = 8 ∨ v = 9 → (waitState v).qHead 0 0 = some waiting ∧ waiting.waited = false ∧ waiting.nwait = 1 ∧
      (waitState v).sigWord 0 waiting.waitlist = some 0x32000 ∧ (waitState v).sigWord 0 (waiting.waitlist + 8) = some 9 ∧
      (waitState v).sigWord 0 0x32000 = some (BitVec.ofNat 64 v)) ∧
    (messageFails base 5 256 (fun n => (aPacket.getD n 0).toNat) True 1) ∧
    (¬ messageFails (tabled 1) 5 0 (fun n => (aPacket.getD n 0).toNat) True 1 ∧ messageFails (tabled 1) 6 0 (fun n => (aPacket.getD n 0).toNat) True 2 ∧
      messageFails (tabled 0) 5 0 (fun n => (aPacket.getD n 0).toNat) True 5 ∧
      ¬ messageFails (tabled 1) 5 0 (fun n => (aPacket.getD n 0).toNat) True 2 ∧ ¬ messageFails (tabled 1) 5 0 (fun n => (aPacket.getD n 0).toNat) True 4 ∧
      ¬ messageFails (tabled 1) 5 0 (fun n => (aPacket.getD n 0).toNat) True 5) ∧
    ((tabled 1).netFed 0 0 ∧ (tabled 1).queueOn 0 0 ∧ (tabled 1).pendingAt 0 0 ((tabled 1).widx 0 0) < 2 ^ (tabled 1).logSize 0 0 ∧
      (tabled 1).cfePa 0 0x60000 true = some 0x60000) ∧
    (base.cycle / 65536 ≤ base.creditEpoch ∧ ∃ s : State, s.creditEpoch < s.cycle / 65536) := by
  refine ⟨by unfold State.netFed State.queueOn State.inError; decide +kernel,
    by unfold State.netFed State.queueOn State.inError; decide +kernel, by unfold ringGood; decide +kernel,
    ⟨packet_due _ _ _ (by decide +kernel), words_at _ _ _ _ _ (by decide) (by decide +kernel) (by decide +kernel), by decide +kernel,
      by decide +kernel⟩,
    ⟨packet_due _ _ _ (by decide +kernel), fun h => absurd h.type (by decide +kernel)⟩,
    ⟨packeted 0 0 (base.storeBytes 0x3000 [0]), packet_due _ _ _ (by decide +kernel), by decide +kernel, 0, by decide +kernel⟩,
    ⟨packet_due _ _ _ (by decide +kernel),
      by constructor <;> decide +kernel,
      words_at _ _ _ _ _ (by decide) (by decide +kernel) (by decide +kernel), by decide +kernel, by unfold descriptorGood; decide +kernel,
      by decide +kernel⟩,
    by unfold descriptorGood; decide +kernel, ?_, .inl (by decide), ?_, by unfold State.netFed State.queueOn; decide +kernel,
    ⟨by decide +kernel, { base with cycle := 65536 }, by decide +kernel⟩⟩
  · rintro v (rfl | rfl) <;> decide +kernel
  · simp only [messageFails]
    decide +kernel

/-- The kernel's team 0 was sampled on core 0 and has retired; its re-run has (not) ended. -/
def sample (rerun : Option Nat) (again : List (Nat × List Byte)) : Audit :=
  { launch := 0, team := 0, core := 0, retired := true, before := [], wrote := [], rerun := rerun, finished := rerun.isSome, again := again }
def audited (a : Audit) : State := { base with audits := [a] }
/-- Cores 1 to 7 are quarantined. -/
def aloneCore (s : State) : State :=
  [1, 2, 3, 4, 5, 6, 7].foldl (fun t c => t.setCore c { t.core c with margin := { (t.core c).margin with state := 2 } }) s
theorem rerun_waits {s : State} (h : s.auditFor 0 0 = some (sample none []) ∧ s.launchOf 0 = some (loadedLaunch 0) ∧ s.xfers = []) :
    RerunWaits s (sample none []) (loadedLaunch 0) 0 :=
  ⟨⟨h.1, rfl, rfl⟩, ⟨h.2.1, by decide⟩, ⟨rfl, rfl, fun x hx => by rw [h.2.2] at hx; cases hx⟩⟩
/-- The same launch, replayable, with a snapshot of the page at 0x20000. -/
def snapped : Launch :=
  { loadedLaunch 0 with
    packet := (loadedLaunch 0).packet.set 0 (((loadedLaunch 0).packet.headD 0) ||| 0x400)
    snaps := [{ page := 0x20000, bytes := [(5, 1)], marks := [], plain := [] }] }
theorem snaps_ok : SnapsOk (loadedLaunch 0) := ⟨by decide, fun e he => by cases he⟩

theorem witness_AuditsAndErrorsRollBack :
    (RerunWaits (audited (sample none [])) (sample none []) (loadedLaunch 0) 0 ∧ (audited (sample none [])).partEn 0 = true ∧
      (audited (sample none [])).partState 0 = 0 ∧ ((audited (sample none [])).part 0).tornDown = false ∧
      (audited (sample none [])).rerunBank (sample none []) ≠ none ∧ (audited (sample none [])).coresLock 0 = none ∧ ¬ othersQuarantined (audited (sample none [])) 0 0 ∧
      (∀ c, base.partBase 0 ≤ c → c ≤ base.partLim 0 → ∀ i, i < 8 → base.partOfCore (8 * c + i) = some 0) ∧
      (rerunOrder (audited (sample none [])) 0 0)[0]? = some 2 ∧ Offers (audited (sample none [])) 0 2 0 (loadedLaunch 0).need) ∧
    (RerunWaits (aloneCore (audited (sample none []))) (sample none []) (loadedLaunch 0) 0 ∧
      othersQuarantined (aloneCore (audited (sample none []))) 0 0) ∧
    ((audited { sample none [] with retired := false }).auditFor 0 0 = some { sample none [] with retired := false }) ∧
    (∀ g, g = [] ∨ g = [(0x20000, List.replicate 128 1)] → (audited (sample (some 2) g)).auditFor 0 0 = some (sample (some 2) g) ∧
      (sample (some 2) g).finished = true ∧ (audited (sample (some 2) g)).launchOf 0 = some (loadedLaunch 0) ∧
      (audited (sample (some 2) g)).xfers = []) ∧
    (signature (sample (some 2) []).wrote = signature (sample (some 2) []).again ∧ SnapsOk (loadedLaunch 0) ∧ ∀ w, (base.wave w).capsule = none) ∧
    ((base.bank 1).team = none ∧ (base.bank 0).team = some team0 ∧ base.launchOf team0.launch = some (loadedLaunch 0)) ∧
    (SMap.sorted base.banks = true ∧ (∀ m m', m ∈ base.launches → m' ∈ base.launches → m.key = m'.key → m = m') ∧ ofWorld base 0 0 ∧
      ofWorld (base.setReg 0x10 3) 3 0) ∧
    (StruckAt 8 (.memory 0x20000 8) (.phys 0x20000) ∧ StruckAt 1 (.scratchpad 1023 0x6FFFF 1) (.share 1023 0x6FFFF) ∧
      StruckAt 4 (.buffer 511 0 0 4) (.wbuf 511 0) ∧ StruckAt 4 (.buffer 0 1 0 4) (.abuf 0 0) ∧ StruckAt 4 (.buffer 0 2 0 4) (.cbuf 0 0)) ∧
    ((base.wave 0).pend = .none ∧ ((pending (.xv .a 0x10000 (heldXv []))).wave 0).pend = .xv .a 0x10000 (heldXv []) ∧
      (pending (.xv .a 0x10000 (heldXv []))).teamOf 0 = some team0 ∧ (pending (.xv .a 0x10000 (heldXv []))).launchOf 0 = some (loadedLaunch 0)) ∧
    (mayReplay snapped ∧ (∀ e ∈ snapped.snaps, e.page + 4096 ≤ 0x21000 ∨ 0x21000 + 128 ≤ e.page) ∧ SnapsOk snapped ∧
      ¬ restoredAt base (loadedLaunch 0) 0 0x80 ∧ ¬ restoredAt base snapped 0x20FFF 1) ∧
    (lineOfWorld base 0 0x400 ∧ lineOfWorld { base with plain := [(0x400, (7, List.replicate 128 0))], worldKeys := [(3, 7)] } 3 0x400) ∧
    ∃ s : State, s.launches = [snapped] ∧ SMap.sorted s.banks = true ∧ ofWorld s 3 snapped.part ∧ s.xfers = [] := by
  refine ⟨⟨rerun_waits (by decide +kernel), by decide +kernel, by decide +kernel, by decide +kernel, by decide +kernel, by decide +kernel, ?_, ?_, by decide +kernel,
      ⟨by decide +kernel, by decide +kernel, .inr (settled (by decide +kernel)), .inr (by decide +kernel)⟩⟩,
    ⟨rerun_waits (by decide +kernel), ?_⟩, by decide +kernel, ?_, ⟨rfl, snaps_ok, no_capsule _ (by decide +kernel)⟩, by decide +kernel,
    ⟨by decide +kernel, ?_, by unfold ofWorld; decide +kernel, by unfold ofWorld; decide +kernel⟩,
    ⟨.memory _, .scratchpad _ _, .weights _ _, .activations _ _, .results _ _⟩, by decide +kernel,
    ⟨by unfold mayReplay; decide +kernel, by decide, ⟨by decide, by decide⟩, fun h => absurd h.2.2.1.1 (by decide +kernel),
      fun h => absurd (h.2.2.2 _ (List.mem_singleton.2 rfl)) (by decide)⟩,
    ⟨(by decide +kernel : ∀ d, d < 8 → base.wid d = 0) _ (Nat.mod_lt _ (by decide)), List.mem_singleton.2 rfl⟩,
    ⟨{ base.setReg 0x10 3 with launches := [snapped] }, by decide +kernel, by decide +kernel, by unfold ofWorld; decide +kernel,
      by decide +kernel⟩⟩
  · intro h
    rcases h 0 (by decide +kernel) (by decide +kernel) 1 (by decide) (by decide) with h | h
    · cases h
    · exact absurd h (by decide +kernel)
  · intro c _ hc
    rw [(by decide +kernel : base.partLim 0 = 0)] at hc
    obtain rfl := Nat.le_zero.1 hc
    decide +kernel
  · intro c _ hc
    rw [(by decide +kernel : (aloneCore (audited (sample none []))).partLim 0 = 0)] at hc
    obtain rfl := Nat.le_zero.1 hc
    intro i _ hi
    revert i
    decide +kernel
  · rintro g (rfl | rfl) <;> decide +kernel
  · rw [(by decide +kernel : base.launches = [loadedLaunch 0])]
    intro m m' h h' _
    rw [List.mem_singleton.1 h, List.mem_singleton.1 h']

theorem idle_capsules : ∀ W ∈ savedOne.waves, W.capsule = none := fun W h => by rw [List.eq_of_mem_replicate h]; rfl

/-- Partition 0's control word, its STATE. -/
def parted (n : Nat) (s : State := base) : State := s.setReg (controlAt 0) (BitVec.ofNat 64 (4 * n))
def requested (desc len p : Nat) (s : State := base) : State :=
  { ((s.setReg 0x7800 0x80000).setReg 0x7808 (BitVec.ofNat 64 (len + desc * 2 ^ 32))).setReg 0x7818 (BitVec.ofNat 64 p) with imageReq := true }
def fullTable : State := (List.range 16).foldl (fun t i => t.setReg (imageEntry 0 i) (BitVec.ofNat 64 (2 ^ 63))) (requested 0 64 0)
/-- The image at 2 MiB is to be restored into bank 1. -/
def imagedArea : State := (parted 3 imaged).setPart 0 { base.part 0 with shadows := [{ bank := 1, ticket := 4, area := some 0x200000 }] }
theorem one_team {s : State} (hs : (s.bank 0).team = some team0 ∧ s.partBase 0 = 0 ∧ s.partLim 0 = 0 ∧ s.bankStill 0 = true ∧
    (∀ e, e < 16 → e ≠ 0 → (s.bank e).team = none) ∧ ∀ i, i < 8 → (s.wave (8 * 0 + i)).capsule = none) : OneTeam s 0 0 team0 := by
  obtain ⟨h1, h2, h3, h4, h5, h6⟩ := hs
  exact ⟨h1, ⟨by omega, by omega, by omega⟩, fun e he h7 h8 => h5 e (by omega) he, h4, h6⟩

/-- Every die is in world 1, and the area of a bank of partition 0 has its home at another die than the bank's. -/
theorem shut_area : ∃ (s : State) (b : Nat), s.regBits (controlAt 0) 2 2 = 3 ∧
    (s.part 0).shadows = [{ bank := b, ticket := 4, area := some 0x200000 }] ∧
      ∃ i, i < 12288 ∧ s.portRefuses (b / 128) (s.partWorld 0) (0x200000 + 128 * i) = true := by
  have hk : ∀ k, k < 8 → let s : State := (List.range 8).foldl (fun t d => t.setReg (0x1000000 + 0x1000 * d) 1) ((parted 3).setPart 0
      { base.part 0 with shadows := [{ bank := 128 * ((k + 1) % 8), ticket := 4, area := some 0x200000 }] })
    s.regBits (controlAt 0) 2 2 = 3 ∧ (s.part 0).shadows = [{ bank := 128 * ((k + 1) % 8), ticket := 4, area := some 0x200000 }] ∧
      ((List.range 8).any (fun d => s.wid d != s.partWorld 0) && (k != 128 * ((k + 1) % 8) / 128 && s.wid k != s.partWorld 0)) = true := by
    decide +kernel
  obtain ⟨h1, h2, h3⟩ := hk (Config.homeDie (0x200000 + 128 * 0) % 8) (Nat.mod_lt _ (by decide))
  exact ⟨_, _, h1, h2, 0, by decide, h3⟩

theorem witness_PartitionsImagesAndWorldsFollowTheirRules :
    (∀ n, n < 4 → (parted n).regBits (controlAt 0) 2 2 = n) ∧
    (OneTeam (parted 1) 0 0 team0 ∧ ((parted 1).part 0).shadows = [] ∧ (parted 1).bankQuiet 0 = true ∧ (parted 1).regBits (0x40 * 0) 56 5 < 2) ∧
    (let s := parted 1 (base.setRegBits 0 56 5 2)
     OneTeam s 0 0 team0 ∧ (s.part 0).shadows = [] ∧ s.bankQuiet 0 = true ∧ 2 ≤ s.regBits (0x40 * 0) 56 5) ∧
    (OneTeam (parted 1 loading) 0 0 team0 ∧ (parted 1 loading).bankQuiet 0 = false) ∧
    (openLine base 0 0 0x200000 12287 ∧ ∃ s : State, ¬ openLine s 0 0 0x200000 12287) ∧
    (let s := (parted 3).setPart 0 { base.part 0 with shadows := [{ bank := 0, ticket := 4, area := none }] }
     s.regBits (controlAt 0) 2 2 = 3 ∧ (s.part 0).shadows = [{ bank := 0, ticket := 4, area := none }] ∧
       s.mayTake 0 savedOne.team.vf savedOne.team.footprint savedOne.view = false) ∧
    (let s := imagedArea
     s.regBits (controlAt 0) 2 2 = 3 ∧ (s.part 0).shadows = [{ bank := 1, ticket := 4, area := some 0x200000 }] ∧
       (∀ i, i < 12288 → s.portRefuses (1 / 128) (s.partWorld 0) (0x200000 + 128 * i) = false) ∧
       headOf (fun o => s.byte (0x200000 + o)) = some savedOne ∧ s.imageOk savedOne = true ∧ (∀ W ∈ savedOne.waves, W.capsule = none) ∧
       s.mayTake 1 savedOne.team.vf savedOne.team.footprint savedOne.view = true) ∧
    (∃ (s : State) (b : Nat), s.regBits (controlAt 0) 2 2 = 3 ∧ (s.part 0).shadows = [{ bank := b, ticket := 4, area := some 0x200000 }] ∧
      ∃ i, i < 12288 ∧ s.portRefuses (b / 128) (s.partWorld 0) (0x200000 + 128 * i) = true) ∧
    (∃ s : State, s.regBits (controlAt 0) 2 2 = 3 ∧ (s.part 0).shadows = [{ bank := 1, ticket := 4, area := none }] ∧
      SMap.find? s.images 4 = some savedOne ∧ savedOne.waves.length = 8 ∧ (∀ W ∈ savedOne.waves, W.capsule = none) ∧
      s.mayTake 1 savedOne.team.vf savedOne.team.footprint savedOne.view = true) ∧
    (base.imgPart < 48 ∧ base.imageReq = false ∧ (base.reg 0x7818).getLsbD 9 = false ∧ (base.reg 0x7818).getLsbD 8 = false) ∧
    (47 < (requested 0 64 48).imgPart ∧ (requested 0 64 48).imageReq = true) ∧
    (let s := requested 0x40 0x80 0
     (s.imgBase % 4096 = 0 ∧ s.descOff % 64 = 0 ∧ s.descOff + 64 ≤ s.imgLen ∧ s.imgPart < 48) ∧ s.regBits (imageEntry 0 0) 63 1 ≠ 1 ∧
       s.imgBase + s.descOff < 2 ^ 56) ∧
    ¬ ((requested 0x40 0x7F 0).descOff + 64 ≤ (requested 0x40 0x7F 0).imgLen) ∧
    (∀ i, i < 16 → fullTable.regBits (imageEntry 0 i) 63 1 = 1) ∧
    (let free := fun (s : State) d => (∀ b, b / 128 = d → s.bankFree b = true) ∧
      ∀ p, p < 48 → s.partEn p = true → ¬ (s.partBase p / 8 ≤ d ∧ d ≤ s.partLim p / 8)
     ¬ free base 0 ∧ free base 7) ∧
    ((0x101 : Word).getLsbD 8 = true ∧ (0x101 : Word).toNat % 256 ≠ 0 ∧ (∀ e ∈ base.worldKeys, e.1 ≠ 1) ∧ (1 : Word).getLsbD 8 = false) ∧
    ¬ (∃ d, d < 8 ∧ base.wid d = 5 ∧ base.regBits (0x1000000 + 0x1000 * d) 8 1 = 1) ∧
    (∃ s : State, ∃ d, d < 8 ∧ s.wid d = 5 ∧ s.regBits (0x1000000 + 0x1000 * d) 8 1 = 1) := by
  refine ⟨by decide +kernel, ⟨one_team (by decide +kernel), by decide +kernel⟩, ⟨one_team (by decide +kernel), by decide +kernel⟩,
    ⟨one_team (by decide +kernel), by decide +kernel⟩,
    ⟨⟨by decide +kernel, ?_⟩, { base with imagePages := [(0, 0, 0x37FFFF, 1)] }, fun h => absurd h.1 (by decide +kernel)⟩,
    by decide +kernel, ⟨by decide +kernel, by decide +kernel, ?_, ?_, by decide +kernel, idle_capsules, by decide +kernel⟩, shut_area,
    ⟨({ parted 3 with images := [(4, savedOne)] }).setPart 0 { base.part 0 with shadows := [{ bank := 1, ticket := 4, area := none }] },
      by decide +kernel, by decide +kernel, by decide +kernel, rfl, idle_capsules, by decide +kernel⟩,
    by decide +kernel, by decide +kernel, by decide +kernel, by decide +kernel, by decide +kernel, ⟨?_, ?_, ?_⟩, by decide +kernel, by decide +kernel,
    ⟨base.setReg 0x1000000 0x105, 0, by decide +kernel⟩⟩
  · unfold State.portRefuses
    rw [(by decide +kernel : (List.range 8).any (fun d => base.wid d != base.partWorld 0) = false)]
    rfl
  · intro i _
    unfold State.portRefuses
    rw [(by decide +kernel : (List.range 8).any (fun d => imagedArea.wid d != imagedArea.partWorld 0) = false)]
    rfl
  · rw [headOf_eq, show (fun o => imagedArea.byte (0x200000 + o)) = fun o => headBytes.getD o 0 from funext imaged_byte, head_nums, head_reads]
  · exact fun h => absurd (h.1 0 rfl) (by decide +kernel)
  · intro b hb
    obtain ⟨i, hi, rfl⟩ : ∃ i, i < 128 ∧ b = 896 + i := ⟨b - 896, by omega, by omega⟩
    revert i
    decide +kernel
  · intro p hp he
    rw [(by decide +kernel : ∀ p, p < 48 → base.partEn p = true → p = 0) p hp he]
    decide +kernel

theorem home_lt (pa : Nat) : Config.homeDie pa % 8 < 8 := Nat.mod_lt _ (by decide)
/-- Every die is in world 1. -/
def worldOne : State := (List.range 8).foldl (fun t d => t.setReg (0x1000000 + 0x1000 * d) 1) base
/-- Bank 0 holds no team. -/
def vacant : State := onBank fun b => { b with team := none }
/-- VF 0's fault buffer holds nine records, one more than its least size. -/
def buffered : State := base.setFbuf 0 { FaultBuffer.zero with recs := List.replicate 9 aRecord }
def guardedImage : State := { base with imagePages := [(0, 0, 0x20000, 64)] }
def channel (stuck hseq dseq : Nat) : State :=
  (base.setReg (channelAt 0 0 + 8) (BitVec.ofNat 64 (stuck * 2 ^ 18))).setReg (channelAt 0 0 + 16) (BitVec.ofNat 64 (hseq + dseq * 2 ^ 32))

/-- A value for partition 1's entry: cluster 1, SPLIT 4, QUANT 20, EN, an HBM mask and a weight. -/
def entryOne : Word := BitVec.ofNat 64 (1 + 1 * 2 ^ 6 + 2 ^ 12 + 4 * 2 ^ 16 + 20 * 2 ^ 20 + 2 ^ 32 + 2 ^ 48)

theorem witness_WindowWritesAreStoredOrRefused :
    (4 % 8 ≠ 0 ∧ reservedOffset 0xC00 ∧ reservedOffset 0xFFFF8 ∧ 0x6000 ≤ 0x77F8 ∧ 0x77F8 < 0x7800) ∧
    PartitionRule vacant 1 entryOne ∧ ¬ PartitionRule base 1 0 ∧
    (PartitionRule buffered 0 (buffered.reg 0) ∧ 0 < 192 ∧ buffered.vfPart 0 = 0 ∧
      8 * 2 ^ bitField (buffered.reg 0).toNat 25 3 < (buffered.fbuf 0).recs.length) ∧
    ((0x10000 : Word).toNat % 65536 = 0 ∧ (0x10008 : Word).toNat % 65536 ≠ 0 ∧ base.partEn 0 = true ∧ (1 : Word).toNat % 256 ≠ base.partWorld 0 ∧
      base.partEn 1 = false) ∧
    (VfRule base 191 5 ∧ ¬ VfRule base 191 0 ∧ ¬ VfRule base 0 5) ∧
    (base.vfEn 0 = true ∧ (0x2000 : Word) ≠ base.reg (0x1000 + 0x20 * 0 + 8) ∧ base.vfEn 191 = false ∧ (0x2000 : Word).toNat % 4096 = 0) := by
  refine ⟨by unfold reservedOffset; decide, ⟨by decide +kernel, .inr ⟨by decide +kernel, ?_⟩, fun _ => ⟨by decide, ?_, .inr ?_⟩⟩,
    fun h => absurd h.ranges (by decide),
    ⟨⟨by decide +kernel, .inl (by decide +kernel), fun _ => ⟨by decide +kernel, ?_, .inl (by decide +kernel)⟩⟩, by decide +kernel⟩,
    by decide +kernel, ⟨⟨by decide, fun h => ?_, fun _ => ⟨by decide +kernel, fun h => ?_⟩⟩,
      fun h => absurd h.ranges.1 (by decide), fun h => absurd (h.fixed (by decide +kernel)) (by decide +kernel)⟩, by decide +kernel⟩
  · intro b _ hb
    have hb : b < 32 := by
      rw [(by decide +kernel : vacant.partBase 1 = 0), (by decide +kernel : vacant.partLim 1 = 0),
        (by decide : bitField entryOne.toNat 0 6 = 1), (by decide : bitField entryOne.toNat 6 6 = 1)] at hb
      omega
    revert b
    decide +kernel
  · intro q c hq hn he h1 h2 h3
    obtain rfl := (by decide +kernel : ∀ q, q < 48 → vacant.partEn q = true → q = 0) q hq he
    rw [(by decide +kernel : vacant.partLim 0 = 0)] at h2
    obtain rfl := Nat.le_zero.1 h2
    exact absurd h3.1 (by decide)
  · intro c h1 h2
    obtain rfl : c = 1 := by
      rw [(by decide : bitField entryOne.toNat 0 6 = 1)] at h1
      rw [(by decide : bitField entryOne.toNat 6 6 = 1)] at h2
      omega
    decide +kernel
  · intro q c hq hn he
    exact absurd ((by decide +kernel : ∀ q, q < 48 → buffered.partEn q = true → q = 0) q hq he) hn
  · exact absurd h (by decide +kernel)
  · exact absurd h (by decide)

/-- The launch table, the flows, the rings and the queues: a value on each side of every bound. -/
theorem witness_WindowWritesAreStoredOrRefused_tables :
    (bitField (0xBF00 : Word).toNat 8 8 ≤ 191 ∧ 191 < bitField (0xC000 : Word).toNat 8 8) ∧
    (bitField (0x400000 : Word).toNat 16 16 ≤ 64 ∧ 64 < bitField (0x410000 : Word).toNat 16 16) ∧
    (11 < bitField (0xC0001 : Word).toNat 16 4 ∧ bitField (0xB0000 : Word).toNat 16 4 ≤ 11 ∧
      ¬ (base.regBits 0x100000 0 1 = 1 ∧ (0xB0000 : Word).getLsbD 0 = false) ∧
      (base.setReg 0x100000 1).regBits 0x100000 0 1 = 1 ∧ (0xB0000 : Word).getLsbD 0 = false) ∧
    (let size (v : Word) := bitField v.toNat 0 4
     size 0 = 0 ∧ (4 ≤ size 4 ∧ size 12 ≤ 12) ∧ ¬ (size 3 = 0 ∨ (4 ≤ size 3 ∧ size 3 ≤ 12)) ∧ ¬ (size 13 = 0 ∨ (4 ≤ size 13 ∧ size 13 ≤ 12))) ∧
    ((base.wave 8191).resident = false ∧ (base.wave 0).resident = true ∧ contextFixed 0x7A00 ∧ contextFixed 0xFFE0 ∧
      0x8FF8 = 0x8000 + 8 * 511 ∧ 0x77F8 = 512 * 59 + 8 * 63) ∧
    (let on := queue0 1 true 0 0 0
     on.queueOn 0 0 ∧ (0x101 : Word).toNat % 32 = on.logSize 0 0 ∧ (2 : Word).toNat % 32 ≠ on.logSize 0 0 ∧
       (0x101 : Word).getLsbD 8 = true ∧ (1 : Word).getLsbD 8 = false ∧ ¬ on.netFed 0 0) ∧
    (¬ base.queueOn 0 0 ∧ ringGood (base.queueBase 0 0).toNat ((0x101 : Word).toNat % 32) ∧
      ¬ ringGood (base.queueBase 0 0).toNat ((0x100 : Word).toNat % 32)) := by
  refine ⟨by decide, by decide, by decide +kernel, by decide, ⟨by decide +kernel, by decide +kernel, by unfold contextFixed; decide⟩, ?_, ?_⟩
  · unfold State.queueOn State.netFed; decide +kernel
  · unfold State.queueOn ringGood; decide +kernel

/-- The bounce channels. -/
theorem witness_WindowWritesAreStoredOrRefused_channels :
    ((base.setReg 0x10 3).partWorld ((base.setReg 0x10 3).vfPart 0) ≠ 0 ∧ base.partWorld (base.vfPart 0) = 0) ∧
    ((10 : Word).toNat % 16 ≤ 10 ∧ 10 < (11 : Word).toNat % 16) ∧
    ((channel 1 7 5).regBits (channelAt 0 0 + 8) 18 1 = 1 ∧ (channel 0 7 5).regBits (channelAt 0 0 + 8) 18 1 = 0 ∧
      (5 : W32).toNat = (channel 1 7 5).regBits (channelAt 0 0 + 16) 32 32 ∧ (7 : W32).toNat ≠ (channel 1 7 5).regBits (channelAt 0 0 + 16) 32 32 ∧
      (channel 1 7 5).partWorld ((channel 1 7 5).vfPart 0) = 0) := by decide +kernel

/-- A write of die 0, the first of its die, waits to be applied at die 1. -/
def crossed : State := { base with crossing := [{ src := 0, clock := List.replicate 8 0, line := 0, todo := [1, 2] }] }

theorem witness_OutsideAccessesAreServedOrRefused :
    (∀ pa, base.wid (Config.homeDie pa % 8) = 0 ∧ worldOne.wid (Config.homeDie pa % 8) ≠ 0) ∧
    (guardedImage.guardedIn 0x20FF8 16 = true ∧ guardedImage.guardedIn 0x21000 8 = false ∧ (∀ pa, guardedImage.wid (Config.homeDie pa % 8) = 0)) ∧
    cleanAt base 0x20000 8 ∧
    (∀ pa, base.wid (Config.homeDie pa % 8) = base.regBits (0xA000 + 8 * 0) 0 8 ∧
      worldOne.wid (Config.homeDie pa % 8) ≠ worldOne.regBits (0xA000 + 8 * 0) 0 8 ∧
      guardedImage.wid (Config.homeDie pa % 8) = guardedImage.regBits (0xA000 + 8 * 0) 0 8) ∧
    (HartAccess.amo .swap ≠ .load ∧ AtomOp.swap ≠ .cas ∧ AtomOp.swap ≠ .fadd ∧ AtomOp.swap ≠ .fmin ∧ AtomOp.swap ≠ .fmax ∧
      (7 : Word).toNat < 2 ^ (8 * 8)) ∧
    ((base.wave 8191).resident = false ∧ (base.wave 0).resident = true) ∧
    ((queue0 1 true 0 0 2).inError 0 0 ∧
      (let s := queue0 1 true 1 0 0
       ¬ s.inError 0 0 ∧ s.queueOn 0 0 ∧ s.pendingAt 0 0 (s.widx 0 0) ≠ 0) ∧
      (let s := queue0 1 true 1 1 0
       ¬ s.inError 0 0 ∧ (∀ l ∈ s.launches, ¬ (l.vf = 0 ∧ l.q = 0 ∧ l.placed < l.teams)) ∧ s.pendingAt 0 0 (s.widx 0 0) = 0)) ∧
    (State.reset.blob = none ∧ ∃ s : State, s.blob = some Blob.initial) ∧
    (¬ applied base 1 [0, 0, 1, 0, 0, 0, 0, 0] ∧ ∀ e ∈ base.crossing, ¬ crossesTo 0 1 [0, 0, 0, 0, 0, 0, 0, 0] e) ∧
    (applied crossed 1 [0, 0, 0, 0, 0, 0, 0, 0] ∧ (∃ e ∈ crossed.crossing, crossesTo 0 1 [0, 0, 0, 0, 0, 0, 0, 0] e) ∧
      1 < crossed.clocks.length ∧ (crossed.clocks.getD 1 []).length = 8) := by
  have h0 : ∀ d, d < 8 → base.wid d = 0 ∧ worldOne.wid d = 1 ∧ guardedImage.wid d = 0 := by decide +kernel
  have hh : base.regBits (0xA000 + 8 * 0) 0 8 = 0 ∧ worldOne.regBits (0xA000 + 8 * 0) 0 8 = 0 ∧
    guardedImage.regBits (0xA000 + 8 * 0) 0 8 = 0 := by decide +kernel
  refine ⟨fun pa => ⟨(h0 _ (home_lt pa)).1, ?_⟩, ⟨by decide +kernel, by decide +kernel, fun pa => (h0 _ (home_lt pa)).2.2⟩,
    fun _ _ => by rw [(by decide +kernel : base.poison = [])]; rfl, fun pa => ?_, by decide, by decide +kernel, ?_,
    ⟨rfl, { base with blob := some Blob.initial }, rfl⟩, ?_, ?_⟩
  · rw [(h0 _ (home_lt pa)).2.1]; decide
  · rw [(h0 _ (home_lt pa)).1, (h0 _ (home_lt pa)).2.1, (h0 _ (home_lt pa)).2.2, hh.1, hh.2.1, hh.2.2]; decide
  · unfold State.inError State.queueOn; decide +kernel
  · rw [(by decide +kernel : base.crossing = [])]
    exact ⟨by unfold applied; decide +kernel, fun e he => by cases he⟩
  · exact ⟨by unfold applied; decide +kernel, ⟨_, List.mem_singleton.2 rfl, rfl, rfl, by decide⟩, by decide +kernel, by decide +kernel⟩

/-! The machine -/
def adding : State := base.storeBytes 0x10000 (encodeBytes (.add 1 2 3))
/-- Slot A stands at `a` and slot B at `b`; where the next instruction has the major of a scalar add there. -/
def standing (a b : List (BitVec 8)) : State :=
  onWave (fun W => { W with slotB := { W.slotA with pc := 0x10100 } }) ((base.storeBytes 0x10000 a).storeBytes 0x10100 b)

theorem witness_OutsideAccessesAreServedOrRefused_cycles :
    (let s : State := { base.storeBytes 0x10000 (encodeBytes (.vlid 7 0)) with withholdTo := 1 }
     (∃ m, s.nextMajor 0 .a = some m ∧ withheldMajor m) ∧ ((s.wave 0).slot .a).park = .none ∧ s.cycle < s.withholdTo ∧ s.completing 0 .a = false) ∧
    (∃ m, adding.nextMajor 0 .a = some m ∧ ¬ withheldMajor m ∧ ((adding.wave 0).slot .a).park = .none) ∧
    ((0xA1F8 : Nat) % 8 = 0 ∧ (4 : Nat) ≠ 8) :=
  ⟨⟨⟨0x16, by unfold withheldMajor; decide +kernel⟩, by decide +kernel⟩, ⟨0x01, by unfold withheldMajor; decide +kernel⟩, by decide⟩

/-- Its slot waits for generation 0 of rendezvous 1, which has passed. -/
def waited : State := onBank (fun b => b.setRv 1 { b.rv 1 with gen := 1 }) (onSlot fun t => { t with park := .barwait 1 0 })
def parkedSlot : State := onSlot (fun t => { t with park := .op (.xlreplay 0) }) base

theorem witness_StepRunsTheDecodedInstruction :
    (adding.boot = .up ∧ adding.tickOn.pick (adding.choices.headD 0) = some (.issue 0 .a) ∧
      (adding.tickOn.beginIssue 0 .a).parkOver 0 .a = false ∧
      StandsAt (adding.tickOn.beginIssue 0 .a) 0 (adding.tickOn.beginIssue 0 .a).cs.pc (.add 1 2 3)) ∧
    (let u := adding.tickOn.beginIssue 0 .a
     let v := u.holdFetch 0 u.cs.pc ((Instr.add 1 2 3).size / 4)
     ∃ t, exec (.add 1 2 3) v = .next t ∧ (v.margin (coreOf 0)).inj.getLsbD 17 = false ∧ (v.core (coreOf 0)).checks = [] ∧
       (t.core (coreOf 0)).checks = [] ∧ (t.margin (coreOf 0)).inj = (v.margin (coreOf 0)).inj) ∧
    (let u := (onSlot (fun t => { t with pc := 2 ^ 40 })).tickOn.beginIssue 0 .a
     fetchWord u 0 u.cs.pc = none) ∧
    (let u := (base.storeBytes 0x10000 (leBytes 4 0xFFFFFFFC)).tickOn.beginIssue 0 .a
     fetchWord u 0 u.cs.pc = some 0xFFFFFFFC ∧ fetchWords 0xFFFFFFFC = 1 ∧ ∀ i, decodeWords 0xFFFFFFFC 0 0 ≠ .ok i) ∧
    (waited.boot = .up ∧ waited.tickOn.pick (waited.choices.headD 0) = some (.issue 0 .a) ∧
      (waited.tickOn.beginIssue 0 .a).parkOver 0 .a = true) ∧
    (parkedSlot.boot = .up ∧ parkedSlot.tickOn.pick (parkedSlot.choices.headD 0) = some (.event (.xlatComplete 0 .a)) ∧
      ∃ t, exec (Event.xlatComplete 0 .a).instr (beforeEvent (.xlatComplete 0 .a) parkedSlot.tickOn) = .next t) ∧
    (∃ s : State, s.boot = .up ∧ s.tickOn.pick (s.choices.headD 0) = some (.input .imageRevoke) ∧ Event.outside .imageRevoke = true ∧
      (Event.instr .imageRevoke).wf = true ∧
      ∃ t, exec (Event.instr .imageRevoke) (beforeEvent .imageRevoke { s.tickOn with inputs := s.inputs.drop 1 }) = .next t) ∧
    (∃ s : State, s.boot = .up ∧ s.tickOn.pick (s.choices.headD 0) = none) := by
  refine ⟨⟨by decide +kernel, by decide +kernel, by decide +kernel, ⟨0x00308104, 0, 0, by decide +kernel, fun h => absurd h (by decide +kernel), fun h => absurd h (by decide +kernel), rfl⟩⟩,
    ⟨_, rfl, by decide +kernel⟩, by decide +kernel,
    ⟨by decide +kernel, by decide +kernel, ?_⟩, by decide +kernel, ⟨by decide +kernel, by decide +kernel, _, rfl⟩,
    ⟨{ base with inputs := [.imageRevoke], choices := [1] }, by decide +kernel, by decide +kernel, by decide, by decide, _, rfl⟩,
    ⟨{ State.reset with boot := .up }, by decide +kernel⟩⟩
  have hb : (match decodeWords 0xFFFFFFFC 0 0 with | .ok _ => false | .error _ => true) = true := by decide +kernel
  intro i h
  rw [h] at hb
  cases hb

/-- Wave 1 of the team stands beside wave 0. -/
def beside (s : State) : State := s.setWave 1 (s.wave 0)
/-- Wave 0 has yielded and no other has issued since. -/
def yielded : State := onBank (fun b => { b with yields := [{ wave := 0, since := 0, after := 0 }] }) (beside adding)
/-- Two undefined instructions. -/
def bothTrap : State := onWave (fun W => { W with last := .a }) (standing (leBytes 4 0xFFFFFFFC) (leBytes 4 0xFFFFFFFC))
/-- A check has failed an ADD that slot A had issued. -/
def issuesAgain : State := base.setCore 0 { base.core 0 with checks := [{ checkOf .passed 2 false false true with words := [0x00308104] }] }

theorem witness_StepRunsTheDecodedInstruction_schedule :
    slotAFirst bothTrap 0 ∧ ¬ slotAFirst parkedSlot 0 ∧
    (∃ s : State, s.boot = .up ∧ s.tickOn.pick (s.choices.headD 0) = some (.issue 0 .b) ∧ s.tickOn.parkOver 0 .b = false ∧ slotAFirst s.tickOn 0) ∧
    (let u := issuesAgain.beginIssue 0 .a
     u.againWords 0 .a = [0x00308104] ∧ ∃ t, exec (.add 1 2 3) u = .next t) ∧
    (yielded.yielding 0 = true ∧ ((yielded.wave 0).slot .a).park = .none ∧ yielded.completing 0 .a = false ∧ adding.yielding 0 = false) ∧
    (let v := (moving { xfer0 with wave := 0 }).beginIssue 0 .a
     ∃ t, exec (.fence 0xFFFF .cluster) v = .next t ∧ onlyWaited v t 0 = true) := by
  have two (s : State) (h : trapped s 0 (runInstr s 0 .b) = true ∧ ((s.wave 0).slot .a).park = .none ∧ s.mayIssue 0 .a = true ∧
    trapped s 0 (runInstr s 0 .a) = true) : slotAFirst s 0 := h
  refine ⟨two _ (by decide +kernel), fun h => absurd h.2.1 (by decide +kernel), ⟨bothTrap, by decide +kernel, by decide +kernel, by decide +kernel, two _ (by decide +kernel)⟩,
    ⟨by decide +kernel, _, rfl⟩, by decide +kernel, _, rfl, by decide +kernel⟩

theorem witness_QuarantineLastsWhileTheModuleIsUp :
    stopped.boot = .up ∧ stopped.quarantined 0 = true ∧ ∃ t, step stopped = .next t := ⟨by decide +kernel, by decide +kernel, _, rfl⟩

theorem witness_EncodedInstructionsDecodeToThemselves :
    (Instr.bnone 2 4).wf = true ∧ (Instr.bnone 2 4).isInstruction = true := by decide +kernel

theorem reset_memory : State.reset.memoryOk := by unfold State.memoryOk; decide
theorem witness_EveryStepKeepsMemoryCanonical : ∃ t, State.reset.memoryOk ∧ step State.reset = .next t :=
  ⟨_, reset_memory, rfl⟩

/-- The first copy of the blob does not verify. -/
def spoiled : State := { State.reset with blobs := ({ Blob.initial with sigOk := false }, Blob.initial) }

theorem witness_ResetAndBootLeaveWhatTheManualSays :
    base.boot ≠ .inReset ∧ (State.reset.boot = .inReset ∧ State.reset.fwOk ≠ (false, false) ∧ BlobGood Blob.initial 0) ∧
    (∃ s : State, s.boot = .inReset ∧ s.fwOk = (false, false)) ∧
    (¬ BlobGood spoiled.blobs.1 spoiled.versionFloor ∧ BlobGood spoiled.blobs.2 spoiled.versionFloor ∧ spoiled.boot = .inReset ∧
      spoiled.fwOk ≠ (false, false)) ∧ (∃ s : State, s.boot = .failed 1) :=
  ⟨by decide +kernel, ⟨rfl, by decide, ⟨rfl, by decide, by decide, by decide⟩⟩, ⟨{ State.reset with fwOk := (false, false) }, rfl, rfl⟩,
    ⟨fun h => absurd h.signed (by decide), ⟨rfl, by decide, by decide, by decide⟩, rfl, by decide⟩, ⟨{ State.reset with boot := .failed 1 }, rfl⟩⟩

/-! ### Single steps: the expected values are the manual's worked examples, or worked by hand from the rules cited -/

/-- An instruction answers a next state that `p` holds for. -/
def after (i : Instr) (s : State) (p : State → Bool) : Bool := match exec i s with | .next t => p t | _ => false
/-- S[3] after an instruction on s1 and s2. -/
def gives (i : Instr) (a b v : Word) : Bool := after i (regs [(1, a), (2, b)]) fun t => t.S 3 == v
/-- Lane 1 of v3 after a vector instruction on v1 and v2, with lanes 0 and 1 active. -/
def two01 (s : State := base) : State := onSlot (fun t => { t with mask := 3 }) s
def vec (a b : W32) (s : State := two01) : State :=
  onWave (fun W => (((W.setV 1 0 7).setV 1 1 a).setV 2 0 9).setV 2 1 b) s
def lane1 (i : Instr) (a b v : W32) : Bool := after i (vec a b) fun t => t.cw.v 3 1 == v

-- R54, R103, R104, R105.
theorem test_add_wraps : gives (.add 3 1 2) 0xFFFFFFFFFFFFFFFF 2 1 = true := by decide +kernel
theorem test_add_discards_s0 : after (.add 0 1 2) (regs [(1, 5), (2, 6)]) (fun t => t.S 0 == 0 && t.cs.pc == 0x10004) = true := by decide +kernel
theorem test_sub_lit_sign_extends : gives (.subLit 3 1 0xFFFFFFFF) 5 0 6 = true := by decide +kernel
theorem test_mulh_signed : gives (.mulh 3 1 2) 0xFFFFFFFFFFFFFFFF 3 0xFFFFFFFFFFFFFFFF = true := by decide +kernel
theorem test_mulhn_unsigned : gives (.mulhn 3 1 2) 0xFFFFFFFFFFFFFFFF 3 2 = true := by decide +kernel
theorem test_div_truncates : gives (.div 3 1 2) (-7) 2 (-3) = true := by decide +kernel
theorem test_div_by_zero : gives (.div 3 1 2) 9 0 0xFFFFFFFFFFFFFFFF = true := by decide +kernel
theorem test_div_least_by_minus_one : gives (.div 3 1 2) 0x8000000000000000 (-1) 0x8000000000000000 = true := by decide +kernel
theorem test_rem_sign_follows_a : gives (.rem 3 1 2) (-7) 2 (-1) = true := by decide +kernel
theorem test_remn_by_zero : gives (.remn 3 1 2) 9 0 9 = true := by decide +kernel
theorem test_andn : gives (.andn 3 1 2) 0xFF 0x0F 0xF0 = true := by decide +kernel
theorem test_shl_uses_six_bits : gives (.shl 3 1 2) 1 65 2 = true := by decide +kernel
theorem test_sha_fills_with_the_sign : gives (.sha 3 1 2) 0x8000000000000000 63 0xFFFFFFFFFFFFFFFF = true := by decide +kernel
theorem test_rol_wraps : gives (.rol 3 1 2) 0x8000000000000001 4 0x18 = true := by decide +kernel
theorem test_slt_signed : gives (.slt 3 1 2) (-1) 0 1 = true := by decide +kernel
theorem test_sltn_unsigned : gives (.sltn 3 1 2) (-1) 0 0 = true := by decide +kernel
theorem test_clz_of_zero : gives (.clz 3 1) 0 0 64 = true := by decide +kernel
theorem test_andi_minus_16 : gives (.andi 3 1 0xFF0) 0x12345 0 0x12340 = true := by decide +kernel
theorem test_sltni_minus_1 : gives (.sltni 3 1 0xFFF) 0xFFFFFFFFFFFFFFFF 0 0 = true := by decide +kernel

-- R20: WAVEID of die 0, cluster 0, core 3, bank 1, wave 2 is 0x3A, and its core's index is 3.
theorem test_waveid : coreOf 0x3A = 3 ∧ bankOf 0x3A = 7 ∧ waveNo 0x3A = 2 := by decide

-- R110, R112, R111, R22, R116.
theorem test_bltz_backward : after (.bltz 1 0x3FFF) (regs [(1, -1)]) (fun t => t.cs.pc == 0xFFFC) = true := by decide +kernel
theorem test_call_links : after (.call 4) base (fun t => t.cs.pc == 0x10010 && t.S 63 == 0x10004) = true := by decide +kernel
theorem test_trap_enters_handler : after (.trap 5) withHandler (fun t => t.cs.pc == 0x10400 && t.cw.handler && t.cw.trap.tpc == 0x10000 &&
    t.cw.trap.tcause == Cause.swtrap.code) = true := by decide +kernel
/-- The nest of R27: lanes 0 to 63 go to the label in slot B, 64 to 127 fall through. -/
theorem test_vbr_splits : after (.vbr 1 0x10) (onWave fun W => W.setK 1 (BitVec.ofNat 128 (2 ^ 64 - 1))) (fun t =>
    (t.cw.slotA.mask, t.cw.slotA.depth, t.cw.slotA.pc) == (BitVec.ofNat 128 ((2 ^ 64 - 1) * 2 ^ 64), 1, 0x10004) &&
    (t.cw.slotB.mask, t.cw.slotB.depth, t.cw.slotB.pc) == (BitVec.ofNat 128 (2 ^ 64 - 1), 1, 0x10040)) = true := by decide +kernel

-- R54, R119 to R127: lanes, masks, conversions.
theorem test_vadd_wraps : lane1 (.vadd 3 1 2 0) 0xFFFFFFFF 2 1 = true := by decide +kernel
theorem test_vadd_leaves_masked_lanes : after (.vadd 3 1 2 4) (onWave (fun W => W.setK 4 2) (vec 5 6)) (fun t =>
    t.cw.v 3 0 == 0 && t.cw.v 3 1 == 11) = true := by decide +kernel
theorem test_vfadd : lane1 (.vfadd 3 1 2 0 ⟨.rne, .sat, .f32⟩) 0x3F800000 0x40000000 0x40400000 = true := by decide +kernel
theorem test_vfma_rounds_once : after (.vfma 3 1 2 4 0 ⟨.rne, .sat, .f32⟩) (onWave (fun W => W.setV 4 1 0xBF800002) (vec 0x3F800001 0x3F800001))
    (fun t => t.cw.v 3 1 == 0x28800000) = true := by decide +kernel
theorem test_vfmin_orders_zeros : lane1 (.vfmin 3 1 2 0 .f32) 0 0x80000000 0x80000000 = true := by decide +kernel
-- R57: 300.0 lies between 288 (0x79) and 320 (0x7A); R60: 500.0 is above 448.
theorem test_vcvt_300_to_e4m3 : lane1 (.vcvt .f32 .e4m3 3 1 0 .rne .sat false) 0x43960000 0 0x79 = true := by decide +kernel
theorem test_vcvt_300_up : lane1 (.vcvt .f32 .e4m3 3 1 0 .rup .sat false) 0x43960000 0 0x7A = true := by decide +kernel
theorem test_vcvt_500_saturates : lane1 (.vcvt .f32 .e4m3 3 1 0 .rne .sat false) 0x43FA0000 0 0x7E = true := by decide +kernel
theorem test_vcvt_500_to_e5m2 : lane1 (.vcvt .f32 .e5m2 3 1 0 .rne .sat false) 0x43FA0000 0 0x60 = true := by decide +kernel
theorem test_vcvt_e4m3_79_is_288 : lane1 (.vcvt .e4m3 .f32 3 1 0 .rne .sat false) 0x79 0 0x43900000 = true := by decide +kernel
theorem test_vcvt_e4m3_b4 : lane1 (.vcvt .e4m3 .f32 3 1 0 .rne .sat false) 0xB4 0 0xBF400000 = true := by decide +kernel

-- R162, R296, R166: memory.
theorem test_sld_sign_extends : after (.sld 5 4 0 (mq .b8 true)) (regs [(4, 0x20000)] (base.storeBytes 0x20000 [0x80])) (fun t =>
    t.cw.pend == .load .a 0x10000 [5] [{ dest := .scalar 5, value := 0xFFFFFFFFFFFFFF80, addr := 0x20000, poisoned := false }]) = true := by
  decide +kernel
theorem test_sld_misaligned_traps : after (.sld 5 4 0 (mq .b32)) (regs [(4, 0x20002)] withHandler) (fun t =>
    t.cw.trap.tcause == Cause.malign.code && t.cw.trap.taddr == 0x20002) = true := by decide +kernel
def wordStore4 : StoreElem := { addr := 0x20004, loc := .phys 0x20004, size := 4, value := 0x55667788, norep := false }
theorem test_sst_waits_at_the_gate : after (.sst 5 4 4 (mq .b32)) (regs [(4, 0x20000), (5, 0x55667788)]) (fun t =>
    t.cw.gates == [{ x := .a, mask := t.cs.mask, pc := 0x10000, hand := false, stages := [5], effect := .store [wordStore4] }] && t.byte 0x20004 == 0) = true := by
  decide +kernel
theorem test_store_is_little_endian : after (.commitGateRelease 0 .a)
    (gated (.store [wordStore4])) (fun t =>
    t.byte 0x20004 == 0x88 && t.byte 0x20007 == 0x55 && t.byte 0x20008 == 0) = true := by decide +kernel

-- R187, R143 to R150: the array and XV.
/-- The pips of the worked kernel: PX in step 0, PKI 3 in step 1. -/
theorem test_pips_push : pipEffect 0x40200000 0x3F800000 (fun _ _ => 0) (fun _ => 0) 0x01 0 [] = some [0x40200000] ∧
    pipAt 0x00C30001 1 = 0x00C3 := by decide +kernel

-- R256: from reset the module boots, and then nothing runs.
theorem test_boot : (match step State.reset with | .next t => t.boot == .up && t.boot != .inReset | _ => false) = true := by decide +kernel
-- Log 9: an instruction laid where the machine fetches is the one that the very next step runs.
theorem test_fetch_word : (match step (State.reset.withFetchWord 32 0x00308104) with
    | .next t => (t.wave 0).slotA.pc == 0x10004 && t.cur == (0, SlotId.a) | _ => false) = true := by decide +kernel
theorem test_table_word : decodeTableWord 32 0x18920704 = some (.divn 7 8 9) ∧
    decodeTableWord 64 (0x00018509 + 0xBB8 * 2 ^ 32) = some (.addiLit 5 6 3000) ∧
    decodeTableWord 32 0x02046458 = some (.vsel 6 1 2 4) ∧ decodeTableWord 64 (0x40082051 + 3 * 2 ^ 32) = some (.vshrLit 2 2 0 3) ∧
    decodeTableWord 32 0 = none := by decide +kernel

-- R39: SPAN 4, offset 0x1A4 lies with SETIX 3 at local 0x24, 0x2A4 with SETIX 1 at local 0xA4.
theorem test_cluster_window : (let T : Team := { team0 with setBanks := [0, 2, 4, 6], span := 2 }
    T.clLoc 0x1A4 == .share 6 (T.clBase + 0x24) && T.clLoc 0x2A4 == .share 2 (T.clBase + 0xA4)) = true := by decide
-- R55: byte 0x9F with code 0xB is -0.25; 0x60 with 0xB is -1.5. R71: VQPACK and VQUNPK of group 0.
def group0 : State := onSlot (fun t => { t with mask := 0xFFFFFFFF })
  (onWave fun W => (((W.setV 1 0 0x40400000).setV 1 1 0xBFC00000).setV 1 2 0x3F400000).setV 1 3 0x40C00000)
theorem test_vqpack_group : after (.vqpack .e2m1 3 1 0) group0 (fun t =>
    [0, 1, 2, 3, 4, 5, 31].map (t.cw.v 3) == [0x72B5, 0, 0, 0, 0x60, 0, 0]) = true := by decide +kernel
theorem test_vqunpk_group : after (.vqunpk 3 1 0) (onSlot (fun t => { t with mask := 0xFFFFFFFF })
    (onWave fun W => (W.setV 1 0 0x72B5).setV 1 4 0x60)) (fun t =>
    [0, 1, 2, 3, 4, 31].map (t.cw.v 3) == [0x40400000, 0xBFC00000, 0x3F800000, 0x40C00000, 0, 0]) = true := by decide +kernel
-- R64: -0.3 into n32 under RTZ is 0.
theorem test_vcvt_minus_03 : lane1 (.vcvt .f32 .n32 3 1 0 .rtz .trap false) 0xBE99999A 0 0 = true := by decide +kernel
-- R298: the worked scan over 2^127, 2^127, 1.0 and -2^127.
def scanned : State := onSlot (fun t => { t with mask := 15 })
  (onWave (fun W => (((W.setV 1 0 0x7F000000).setV 1 1 0x7F000000).setV 1 2 0x3F800000).setV 1 3 0xFF000000) withHandler)
theorem test_vscan_saturates : after (.vscan .fadd 3 1 0 .rne .sat) scanned (fun t =>
    [0, 1, 2, 3].map (t.cw.v 3) == [0x7F000000, 0x7F7FFFFF, 0x7F7FFFFF, 0x7EFFFFFE]) = true := by decide +kernel
theorem test_vscan_traps : after (.vscan .fadd 3 1 0 .rne .trap) scanned (fun t =>
    t.cw.trap.tmask == 0xE && t.cw.trap.tlane == 1 && t.cw.v 3 0 == 0) = true := by decide +kernel
theorem test_vred_max : after (.vred .max 7 1 0 .rne .sat) scanned (fun t => t.S 7 == 0x7F000000) = true := by decide +kernel
theorem test_vred_no_lane : after (.vred .fadd 7 1 3 .rne .sat) scanned (fun t => t.S 7 == 0x80000000) = true := by decide +kernel

-- R144 to R151: steps 31 and 32 of the worked kernel of four formulas.
def four (r : Nat) (l : List W32) (W : Wave) : Wave := l.zipIdx.foldl (fun W e => W.setV r e.2 e.1) W
def formulas (p : List W32) (W : Wave) : State := onSlot (fun t => { t with mask := 15 })
  (onWave fun _ => four 10 p (four 2 [0x40200000, 0xC0400000, 0x40800000, 0xBF000000] (four 3 [0x3F800000, 0x3F000000, 0x40C00000, 0x40000000] W)))
/-- What an XV has computed: stack entries by lane, depths, and its latency. -/
def xvLeaves (s : State) (es : List (Nat × W32)) (ds : List (Nat × Nat)) (l : Nat) : Bool :=
  after (.xv 10 2 3 0) s fun t => match t.cw.pend with
    | .xv _ _ p => es.all (fun e => SMap.get (fun _ => 0) p.ostacks e.1 == e.2) && p.depths == ds && p.due == s.cycle + l && p.fails == []
    | _ => false
theorem test_xv_operands : xvLeaves (formulas [0x20001, 0xC30001, 0x20001, 0x40001] (base.wave 0))
    [(0, 0x40200000), (1, 0x3F800000), (8, 0xC0400000), (9, 0x40400000), (16, 0x40800000), (17, 0x40C00000), (24, 0xBF000000), (25, 0xBF000000)]
    [(0, 2), (1, 2), (2, 2), (3, 2)] 4 = true := by decide +kernel
theorem test_xv_combines : xvLeaves (formulas [0x100009, 0x1F000A, 0x27000D, 0xA003F]
    { base.wave 0 with depths := [(0, 2), (1, 2), (2, 2), (3, 2)], ostacks := [(0, 0x40200000), (1, 0x3F800000), (8, 0xC0400000), (9, 0x40400000),
      (16, 0x40800000), (17, 0x40C00000), (24, 0xBF000000), (25, 0xBF000000)] })
    [(0, 0x3FC00000), (8, 0), (16, 0x41800000), (24, 0xBF000000), (25, 0xBF000000)] [(0, 1), (1, 1), (2, 1), (3, 2)] 11 = true := by
  decide +kernel
-- R154: LO 0, HI 256, Y[2] 1.0, DY[2] 3.0, Y[0] 0, DY[0] 0.25.
theorem test_lut : (let w : Nat → W32 := fun n =>
      if n = 1 then 0x43800000 else if n = 3 then 0x3E800000 else if n = 6 then 0x3F800000 else if n = 7 then 0x40400000 else 0
    lutEval w 0x40200000 == 0x40200000 && lutEval w 0xBF800000 == 0xBE800000) = true := by decide +kernel
-- R66: eight FP16 products of 0.25 are added as one sum to 2^24.
theorem test_group_rule : floatResult (fun k => FFmt.f16.value (if k < 8 then 0x3800 else 0)) (fun k => FFmt.f16.value (if k < 8 then 0x3800 else 0))
    128 8 0x4B800000 = 0x4B800001 := by decide +kernel

-- R166, R177, R178, R173: atomics, arrival words, the deque, rendezvous points.
theorem test_satom_reads_at_the_gate : after (.commitGateRelease 0 .a) (gated (.atomic .add [casElem (some (.scalar 5))]))
    (fun t => t.byte 0x20000 == 7 && t.S 5 == 0) = true := by decide +kernel
theorem test_dqpush : after (.dqpush 5) (regs [(5, 77)]) (fun t => (t.bank 0).deque == [77]) = true := by decide +kernel
-- R232: LOG2SIZE 3, RIDX 6: a doorbell of 10 leaves 4 pending, one of 15 would leave 9, and the queue enters ERROR.
theorem test_doorbell_of_10 : after (.queueDoorbell 0 0 10) (queue0 3 true 6 6 0) (fun t => t.widx 0 0 == 10 && t.pendingAt 0 0 10 == 4) = true := by
  decide +kernel
theorem test_doorbell_of_15 : after (.queueDoorbell 0 0 15) (queue0 3 true 6 6 0) (fun t =>
    t.widx 0 0 == 6 && t.regBits (queueAt 0 0 + 32) 0 2 == 2) = true := by decide +kernel
-- R310: HSEQ 7 and DSEQ 5: a RESYNC of 7 is refused, one of 5 sets HSEQ.
theorem test_resync : after (.bounceResync 0 0 7) (channel 1 7 5) (fun t => t.regBits (channelAt 0 0 + 16) 0 32 == 7 && t.regBits (channelAt 0 0 + 8) 18 1 == 1) = true
    ∧ after (.bounceResync 0 0 5) (channel 1 7 5) (fun t => t.regBits (channelAt 0 0 + 16) 0 32 == 5 && t.regBits (channelAt 0 0 + 8) 18 1 == 0) = true := by
  decide +kernel
-- R210, R213: acquiring a FREE record; leaving it.
theorem test_capenter : after (.capenter 6 4 5 0x40) capFree (fun t => t.cw.capsule.isSome && t.cs.pc == 0x11000 && t.S 6 == 0 &&
    quad t 0x20000 % 2 ^ 24 == 4 + 2 ^ 16) = true := by decide +kernel
theorem test_capexit : after (.capexit 48) (holding ours false false) (fun t => t.cw.capsule.isNone && t.byte 0x28000 == 7 &&
    quad t 0x20000 == 4) = true := by decide +kernel
-- R282: TRET goes to TNEXT.
theorem test_tret : after .tret (onWave (fun W => { W with trap := { W.trap with tnext := 0x10040 } }) handled) (fun t =>
    !t.cw.handler && t.cs.pc == 0x10040) = true := by decide +kernel
-- R6, R288: a user-level privileged instruction traps PRIV and has no effect.
theorem test_privileged : after (.gate 5) (onWave (fun W => { W with system := false }) withHandler) (fun t =>
    t.cw.trap.tcause == Cause.priv.code && !(t.bank 0).gated) = true := by decide +kernel
end Sys2Proof.Tests
end

namespace Sys2Proof.Machine

/-! ### Outside parties: registers of a die after a refusal (R266, R269, R290) -/

/-- One of the sixteen counters of a die, as `State.countDie` visits it. -/
def State.countSelected (s : State) (d ev : Nat) (sys : Option Bool) (j : Nat) : State :=
  if selCounts (s.reg (dieOff d + 0x100 + 8 * j)).toNat ev sys then
    s.setReg (dieOff d + 0x180 + 8 * j) (s.reg (dieOff d + 0x180 + 8 * j) + 1)
  else s

theorem State.countDie_eq_foldl (s : State) (d ev : Nat) (sys : Option Bool) :
    s.countDie d ev sys = (List.range 16).foldl (fun t j => t.countSelected d ev sys j) s := rfl

theorem State.reg_countSelected (s : State) (d ev : Nat) (sys : Option Bool) (j off : Nat) :
    (s.countSelected d ev sys j).reg off =
      if selCounts (s.reg (dieOff d + 0x100 + 8 * j)).toNat ev sys = true ∧ off / 8 = (dieOff d + 0x180 + 8 * j) / 8 then
        s.reg off + 1 else s.reg off := by
  unfold State.countSelected
  by_cases hc : selCounts (s.reg (dieOff d + 0x100 + 8 * j)).toNat ev sys = true
  · rw [if_pos hc, State.reg_setReg]
    by_cases ho : off / 8 = (dieOff d + 0x180 + 8 * j) / 8
    · rw [if_pos ho, if_pos ⟨hc, ho⟩]; unfold State.reg; rw [ho]
    · rw [if_neg ho, if_neg fun h => ho h.2]
  · rw [if_neg hc, if_neg fun h => hc h.1]

/-- The counters that select an event have risen by one; no selector is a counter. -/
theorem State.reg_foldl_countSelected (s : State) (d ev : Nat) (sys : Option Bool) (off n : Nat) (hn : n ≤ 16) :
    ((List.range n).foldl (fun t j => t.countSelected d ev sys j) s).reg off =
      if ∃ j < n, selCounts (s.reg (dieOff d + 0x100 + 8 * j)).toNat ev sys = true ∧ off / 8 = (dieOff d + 0x180 + 8 * j) / 8 then
        s.reg off + 1 else s.reg off := by
  induction n generalizing off with
  | zero => rw [if_neg (by rintro ⟨j, hj, -⟩; omega)]; rfl
  | succ n ih =>
    have hsel := ih (dieOff d + 0x100 + 8 * n) (by omega)
    rw [if_neg (by rintro ⟨j, hj, -, h⟩; omega)] at hsel
    rw [List.range_succ, List.foldl_append, List.foldl_cons, List.foldl_nil, State.reg_countSelected, hsel, ih off (by omega)]
    by_cases h : selCounts (s.reg (dieOff d + 0x100 + 8 * n)).toNat ev sys = true ∧ off / 8 = (dieOff d + 0x180 + 8 * n) / 8
    · rw [if_pos h, if_neg (by rintro ⟨j, hj, -, hoff⟩; omega), if_pos ⟨n, by omega, h⟩]
    · rw [if_neg h]
      congr 1
      simp only [eq_iff_iff]
      constructor
      · rintro ⟨j, hj, hc⟩; exact ⟨j, by omega, hc⟩
      · rintro ⟨j, hj, hc⟩
        obtain hj | rfl := Nat.lt_succ_iff_lt_or_eq.1 hj
        · exact ⟨j, hj, hc⟩
        · exact absurd hc h

theorem State.reg_countDie (s : State) (d ev : Nat) (sys : Option Bool) (off : Nat) :
    (s.countDie d ev sys).reg off =
      if ∃ j < 16, selCounts (s.reg (dieOff d + 0x100 + 8 * j)).toNat ev sys = true ∧ off / 8 = (dieOff d + 0x180 + 8 * j) / 8 then
        s.reg off + 1 else s.reg off :=
  s.reg_foldl_countSelected d ev sys off 16 (Nat.le_refl _)

/-- Only its WERR and its counters change at a die that has refused a request. -/
theorem State.reg_refuseWorld (s : State) (d pa : Nat) (sys : Option Bool) (off : Nat) :
    (s.refuseWorld d pa sys).reg off =
      if off / 8 = (dieOff d + 8) / 8 then BitVec.ofNat 64 pa
      else if ∃ j < 16, selCounts (s.reg (dieOff d + 0x100 + 8 * j)).toNat 0x84 sys = true ∧ off / 8 = (dieOff d + 0x180 + 8 * j) / 8
        then s.reg off + 1 else s.reg off := by
  have hsel (j : Nat) (v : Word) : (s.setReg (dieOff d + 8) v).reg (dieOff d + 0x100 + 8 * j) = s.reg (dieOff d + 0x100 + 8 * j) := by
    rw [State.reg_setReg, if_neg (by omega)]
  simp only [State.refuseWorld, State.reg_countDie, hsel, State.reg_setReg]
  by_cases h : off / 8 = (dieOff d + 8) / 8
  · rw [if_neg (by rintro ⟨j, hj, -, hoff⟩; omega), if_pos h, if_pos h]
  · rw [if_neg h, if_neg h]

theorem State.reg_logSys (s : State) (d : Nat) (a : Word) (off : Nat) :
    (s.logSys d a).reg off =
      if off / 8 = (dieOff d + 24) / 8 then s.reg (dieOff d + 24) + 1 else if off / 8 = (dieOff d + 16) / 8 then a else s.reg off := by
  simp only [State.logSys, State.reg_setReg]

/-- An event that no instruction causes counts wherever it is selected in a mode. -/
theorem selCounts_none (v : Word) (ev : Nat) :
    selCounts v.toNat ev none = true ↔ bitsOf v.toNat 0 8 = ev ∧ bitsOf v.toNat 8 2 ≠ 0 := by
  simp [selCounts]

theorem State.refuseWorld_rest (s : State) (d pa : Nat) (sys : Option Bool) :
    s.refuseWorld d pa sys = { s with win := (s.refuseWorld d pa sys).win } := by
  unfold State.refuseWorld; rw [State.countDie_rest]; rfl

theorem onlyRegs_of_rest {s t : State} {l : List Nat} (hrest : t = { s with win := t.win, outputs := t.outputs })
    (hreg : ∀ off, (∀ o ∈ l, off / 8 ≠ o / 8) → t.reg off = s.reg off) : onlyRegs s t l := by
  have hw : t.waiters = s.waiters := by rw [hrest]
  refine ⟨?_, fun e he => ⟨e, hw ▸ he, .inl rfl⟩, hreg⟩
  rw [hw]; exact hrest

/-- What a refusal at a port leaves, where beside `State.refuseWorld` only the registers at `l` have changed. -/
theorem worldRefusedAt_of {s t : State} {d pa : Nat} {l : List Nat} (hrest : t = { s with win := t.win, outputs := t.outputs })
    (hreg : ∀ off, (∀ o ∈ l, off / 8 ≠ o / 8) → t.reg off = (s.refuseWorld d pa none).reg off)
    (hwerr : ∀ o ∈ l, (0x1000008 + 0x1000 * d) / 8 ≠ o / 8)
    (hcount : ∀ o ∈ l, ∀ j < 16, (0x1000180 + 0x1000 * d + 8 * j) / 8 ≠ o / 8) : worldRefusedAt s t d pa l := by
  have counter (j : Nat) (hj : j < 16) : t.reg (0x1000180 + 0x1000 * d + 8 * j) =
      if s.regBits (0x1000180 + 0x1000 * d + 8 * j - 0x80) 0 8 = 0x84 ∧ s.regBits (0x1000180 + 0x1000 * d + 8 * j - 0x80) 8 2 ≠ 0
      then s.reg (0x1000180 + 0x1000 * d + 8 * j) + 1 else s.reg (0x1000180 + 0x1000 * d + 8 * j) := by
    have hsel : 0x1000180 + 0x1000 * d + 8 * j - 0x80 = dieOff d + 0x100 + 8 * j := by unfold dieOff; omega
    rw [hreg _ (fun o ho => hcount o ho j hj), State.reg_refuseWorld, if_neg (by unfold dieOff; omega), hsel]
    simp only [selCounts_none]
    refine ite_congr (propext ⟨?_, ?_⟩) (fun _ => rfl) fun _ => rfl
    · rintro ⟨k, hk, hc, hoff⟩
      obtain rfl : k = j := by unfold dieOff at hoff; omega
      exact hc
    · exact fun hc => ⟨j, hj, hc, by unfold dieOff; omega⟩
  refine ⟨onlyRegs_of_rest hrest fun off hoff => ?_, ?_, fun j hj hc => ?_, fun j hj hc => ?_⟩
  · simp only [List.mem_append, List.mem_cons, List.not_mem_nil, or_false, List.mem_map, List.mem_range] at hoff
    rw [hreg off fun o ho => hoff o (.inl (.inr ho)), State.reg_refuseWorld, if_neg, if_neg]
    · rintro ⟨j, hj, -, h⟩
      exact hoff _ (.inr ⟨j, hj, rfl⟩) (by unfold dieOff at h; omega)
    · intro h
      exact hoff _ (.inl (.inl rfl)) (by unfold dieOff at h; omega)
  · rw [hreg _ hwerr, State.reg_refuseWorld, if_pos (by unfold dieOff; omega)]
  · exact (counter j hj).trans (if_pos hc)
  · exact (counter j hj).trans (if_neg hc)

theorem loggedAt_logSys_out (s : State) (d : Nat) (a : Word) (o : Output) : loggedAt s ((s.logSys d a).out o) d a := by
  have hreg (off : Nat) : ((s.logSys d a).out o).reg off = (s.logSys d a).reg off := rfl
  refine ⟨onlyRegs_of_rest rfl fun off hoff => ?_, ?_, ?_⟩
  · have h1 := hoff (0x1000010 + 0x1000 * d) (by simp)
    have h2 := hoff (0x1000018 + 0x1000 * d) (by simp)
    rw [hreg, State.reg_logSys, if_neg (by unfold dieOff; omega), if_neg (by unfold dieOff; omega)]
  · rw [hreg, State.reg_logSys, if_neg (by unfold dieOff; omega), if_pos (by unfold dieOff; omega)]
  · rw [hreg, State.reg_logSys, if_pos (by unfold dieOff; omega), show dieOff d + 24 = 0x1000018 + 0x1000 * d by unfold dieOff; omega]

/-! ### Outside parties: memory as outside parties reach it -/

theorem leBytes_getD (n v i : Nat) (hi : i < n) : (leBytes n v).getD i 0 = BitVec.ofNat 8 (v / 256 ^ i) := by
  induction n generalizing v i with
  | zero => omega
  | succ n ih =>
    cases i with
    | zero => simp [leBytes]
    | succ i => rw [leBytes, List.getD_cons_succ, ih _ _ (by omega), Nat.div_div_eq_div_mul, ← Nat.pow_succ']

theorem sum_map_mul (l : List Nat) (c : Nat) (g : Nat → Nat) : (l.map fun i => c * g i).sum = c * (l.map g).sum := by
  induction l with
  | nil => rfl
  | cons x l ih => rw [List.map_cons, List.map_cons, List.sum_cons, List.sum_cons, ih, Nat.mul_add]

theorem leValue_map_range (n : Nat) (f : Nat → Byte) :
    leValue ((List.range n).map f) = ((List.range n).map fun i => (f i).toNat * 256 ^ i).sum := by
  induction n generalizing f with
  | zero => rfl
  | succ n ih =>
    have hpow (i : Nat) : (f (i + 1)).toNat * 256 ^ (i + 1) = 256 * ((f (i + 1)).toNat * 256 ^ i) := by
      rw [Nat.pow_succ, ← Nat.mul_assoc, Nat.mul_comm]
    simp only [List.range_succ_eq_map, List.map_cons, List.map_map, List.sum_cons, leValue, Function.comp_def, ih, Nat.succ_eq_add_one,
      hpow, sum_map_mul, Nat.pow_zero, Nat.mul_one]

theorem leValue_lt (bs : List Byte) : leValue bs < 256 ^ bs.length := by
  induction bs with
  | nil => decide
  | cons b bs ih => have := b.isLt; simp only [leValue, List.length_cons, Nat.pow_succ]; omega

theorem memValue_eq_readPhys (s : State) (pa n : Nat) : memValue s pa n = s.readPhys pa n := (leValue_map_range n _).symm

theorem memValue_lt (s : State) (pa n : Nat) : memValue s pa n < 256 ^ n := by
  have h := leValue_lt ((List.range n).map fun i => s.byte (pa + i))
  rwa [List.length_map, List.length_range, leValue_map_range] at h

theorem State.poisoned_of_clean {s : State} {pa n : Nat} (h : cleanAt s pa n) : s.poisoned pa n = false := by
  unfold State.poisoned
  rw [List.any_eq_false]
  intro i hi
  rw [h i (List.mem_range.1 hi)]
  decide

theorem State.outsideRead_clean {s : State} {pa n : Nat} (h : cleanAt s pa n) :
    s.outsideRead pa n = BitVec.ofNat 64 (memValue s pa n) := by
  unfold State.outsideRead
  rw [State.poisoned_of_clean h, memValue_eq_readPhys]
  rfl

theorem stored_poke (s : State) (pa n v : Nat) : stored s (s.poke pa n v) pa n v := by
  intro a
  unfold State.poke
  rw [State.byte_pokeBytes, leBytes_length]
  by_cases h : pa ≤ a ∧ a < pa + n
  · rw [if_pos h, if_pos h, leBytes_getD _ _ _ (by omega)]
  · rw [if_neg h, if_neg h]

/-- A store writes the low `n` bytes of its value alone. -/
theorem stored_congr {s t : State} {pa n v w : Nat} (hvw : v % 256 ^ n = w % 256 ^ n) (h : stored s t pa n v) : stored s t pa n w := by
  intro a
  rw [h a]
  by_cases ha : pa ≤ a ∧ a < pa + n
  · have hdvd : 256 ^ (a - pa) * 256 ∣ 256 ^ n := by rw [← Nat.pow_succ]; exact Nat.pow_dvd_pow _ (by omega)
    have hlow : v % (256 ^ (a - pa) * 256) = w % (256 ^ (a - pa) * 256) := by
      rw [← Nat.mod_mod_of_dvd v hdvd, hvw, Nat.mod_mod_of_dvd w hdvd]
    rw [if_pos ha, if_pos ha]
    apply BitVec.eq_of_toNat_eq
    rw [BitVec.toNat_ofNat, BitVec.toNat_ofNat, ← Nat.mod_mul_right_div_self, ← Nat.mod_mul_right_div_self, hlow]
  · rw [if_neg ha, if_neg ha]

theorem marksCleared_poke (s : State) (pa n v : Nat) : marksCleared s (s.poke pa n v) pa n := by
  intro a
  have hfold : (s.poke pa n v).poison =
      (((leBytes n v).map fun _ => false).zipIdx).foldl (fun m e => SMap.set (fun _ => false) m (pa + e.2) e.1) s.poison := by
    rw [List.zipIdx_map, List.foldl_map]; rfl
  have h := SMap.get_foldl_zipIdx (fun _ => false) pa ((leBytes n v).map fun _ => false) 0 s.poison a
  have hget (i : Nat) : ((leBytes n v).map fun _ => false).getD i false = false := by
    rw [List.getD_eq_getElem?_getD, List.getElem?_map]
    cases (leBytes n v)[i]? <;> rfl
  rw [hfold, h, Nat.add_zero, List.length_map, leBytes_length, hget]

/-! ### Outside parties: requests of devices -/

theorem exec_pcieCxlRequest (s : State) (port : Nat) (write : Bool) (pa n : Nat) (v : Word) :
    exec (.pcieCxlRequest port write pa n v) s = .next (pcieRequest s port write pa n v) := rfl
theorem exec_lerridHartMemoryAccess (s : State) (h : Nat) (acc : HartAccess) (pa n : Nat) (v : Word) :
    exec (.lerridHartMemoryAccess h acc pa n v) s = .next (hartAccess s h acc pa n v) := rfl
theorem exec_windowWrite (s : State) (off : Nat) (v : Word) (path : WinPath) :
    exec (.windowWrite off v path) s = .next (if off % 8 ≠ 0 then s.refuseWin off else winWrite s off (WinPath.agent path) v) := rfl

theorem ioDie_port (port : Nat) : ioDie (port / 2) = if port < 2 then 0 else 4 := by
  unfold ioDie
  exact ite_congr (propext (by omega)) (fun _ => rfl) fun _ => rfl

theorem State.worldRefuses_same {s : State} {world pa : Nat} (h : s.wid (Config.homeDie pa % 8) = world) :
    s.worldRefuses world pa = none := if_neg (not_not_intro h)
theorem State.worldRefuses_other {s : State} {world pa : Nat} (h : s.wid (Config.homeDie pa % 8) ≠ world) :
    s.worldRefuses world pa = some (Config.homeDie pa % 8) := if_pos h

theorem pcieRequest_otherWorld {s : State} {pa : Nat} (h : s.wid (Config.homeDie pa % 8) ≠ 0) (port : Nat) (write : Bool) (n : Nat)
    (v : Word) : pcieRequest s port write pa n v =
      (((s.refuseWorld (Config.homeDie pa % 8) pa none).logSys (ioDie (port / 2)) (BitVec.ofNat 64 pa)).out (.pcieAbort port)) := by
  unfold pcieRequest; rw [State.worldRefuses_other h]
theorem pcieRequest_guarded {s : State} {pa n : Nat} (h : s.wid (Config.homeDie pa % 8) = 0) (hg : s.guardedIn pa n = true) (port : Nat)
    (v : Word) : pcieRequest s port true pa n v = (s.logSys (ioDie (port / 2)) (BitVec.ofNat 64 pa)).out (.pcieAbort port) := by
  unfold pcieRequest; rw [State.worldRefuses_same h, hg]; rfl
theorem pcieRequest_write {s : State} {pa n : Nat} (h : s.wid (Config.homeDie pa % 8) = 0) (hg : s.guardedIn pa n = false) (port : Nat)
    (v : Word) : pcieRequest s port true pa n v = s.poke pa n v.toNat := by
  unfold pcieRequest; rw [State.worldRefuses_same h, hg]; rfl
theorem pcieRequest_read {s : State} {pa : Nat} (h : s.wid (Config.homeDie pa % 8) = 0) (port n : Nat) (v : Word) :
    pcieRequest s port false pa n v = s.out (.pcieValue port (s.outsideRead pa n)) := by
  unfold pcieRequest; rw [State.worldRefuses_same h]; rfl

theorem State.logSys_out_rest {s u : State} (h : u = { s with win := u.win }) (die : Nat) (a : Word) (o : Output) :
    (u.logSys die a).out o =
      { s with win := ((u.logSys die a).out o).win, outputs := ((u.logSys die a).out o).outputs } := by
  rw [h]; rfl

/-- The home die and the port's I/O die both log the refusal. -/
theorem worldRefusedAt_logSys_out (s : State) (d die pa : Nat) (o : Output) :
    let t := ((s.refuseWorld d pa none).logSys die (BitVec.ofNat 64 pa)).out o
    worldRefusedAt s t d pa [0x1000010 + 0x1000 * die, 0x1000018 + 0x1000 * die] ∧
      t.reg (0x1000010 + 0x1000 * die) = BitVec.ofNat 64 pa ∧
      t.reg (0x1000018 + 0x1000 * die) = s.reg (0x1000018 + 0x1000 * die) + 1 := by
  intro t
  have hreg (off : Nat) : t.reg off = ((s.refuseWorld d pa none).logSys die (BitVec.ofNat 64 pa)).reg off := rfl
  have hcount : (s.refuseWorld d pa none).reg (0x1000018 + 0x1000 * die) = s.reg (0x1000018 + 0x1000 * die) := by
    rw [State.reg_refuseWorld, if_neg (by unfold dieOff; omega), if_neg (by unfold dieOff; rintro ⟨j, hj, -, h⟩; omega)]
  refine ⟨worldRefusedAt_of ?_ (fun off hoff => ?_) (fun o ho => ?_) fun o ho j hj => ?_, ?_, ?_⟩
  · exact State.logSys_out_rest (s.refuseWorld_rest d pa none) die _ o
  · have h1 := hoff (0x1000010 + 0x1000 * die) (by simp)
    have h2 := hoff (0x1000018 + 0x1000 * die) (by simp)
    rw [hreg, State.reg_logSys, if_neg (by unfold dieOff; omega), if_neg (by unfold dieOff; omega)]
  · simp only [List.mem_cons, List.not_mem_nil, or_false] at ho
    omega
  · simp only [List.mem_cons, List.not_mem_nil, or_false] at ho
    omega
  · rw [hreg, State.reg_logSys, if_neg (by unfold dieOff; omega), if_pos (by unfold dieOff; omega)]
  · rw [hreg, State.reg_logSys, if_pos (by unfold dieOff; omega), show dieOff die + 24 = 0x1000018 + 0x1000 * die by unfold dieOff; omega,
      hcount]

theorem worldRefusedAt_out (s : State) (d pa : Nat) (o : Output) : worldRefusedAt s ((s.refuseWorld d pa none).out o) d pa [] := by
  refine worldRefusedAt_of ?_ (fun _ _ => rfl) (fun _ h => by cases h) fun _ h => by cases h
  unfold State.out
  rw [State.refuseWorld_rest]

/-! ### Outside parties: accesses of harts to memory -/

theorem hartAccess_memory {pa : Nat} (h : pa < 0xFFF0000000000000) (s : State) (hart : Nat) (acc : HartAccess) (n : Nat) (v : Word) :
    hartAccess s hart acc pa n v = hartMemory s hart acc pa n v := if_neg (by omega)
theorem hartAccess_window (s : State) (hart : Nat) (acc : HartAccess) (off n : Nat) (v : Word) :
    hartAccess s hart acc (0xFFF0000000000000 + off) n v = hartWindow s hart acc off n v := by
  unfold hartAccess
  rw [if_pos (Nat.le_add_right ..), Nat.add_sub_cancel_left]

section
variable {s : State} {h pa : Nat} (mine : s.wid (Config.homeDie pa % 8) = s.regBits (0xA000 + 8 * h) 0 8)
include mine

theorem hartMemory_guarded {n : Nat} {acc : HartAccess} (hg : s.guardedIn pa n = true) (hacc : acc ≠ .load) (v : Word) :
    hartMemory s h acc pa n v = (s.logSys (ioDie 0) (BitVec.ofNat 64 pa)).out (.hartError h) := by
  have hw : HartAccess.writes acc = true := by cases acc with
    | load => exact absurd rfl hacc
    | store => rfl
    | amo op => rfl
  unfold hartMemory hworldOff
  rw [State.worldRefuses_same mine, hw, hg]; rfl
theorem hartMemory_load (n : Nat) (v : Word) :
    hartMemory s h .load pa n v = s.out (.hartValue h (s.outsideRead pa n)) := by
  unfold hartMemory hworldOff; rw [State.worldRefuses_same mine]; rfl
theorem hartMemory_store {n : Nat} (hg : s.guardedIn pa n = false) (v : Word) :
    hartMemory s h .store pa n v = s.poke pa n v.toNat := by
  unfold hartMemory hworldOff; rw [State.worldRefuses_same mine, hg]; rfl
theorem hartMemory_amo {n : Nat} (hg : s.guardedIn pa n = false) (op : AtomOp) (v : Word) :
    hartMemory s h (.amo op) pa n v =
      (s.poke pa n (AtomOp.apply op n (s.outsideRead pa n) v 0).toNat).out (.hartValue h (s.outsideRead pa n)) := by
  unfold hartMemory hworldOff; rw [State.worldRefuses_same mine, hg]; rfl
end

theorem hartMemory_otherWorld {s : State} {h pa : Nat} (other : ¬ s.wid (Config.homeDie pa % 8) = s.regBits (0xA000 + 8 * h) 0 8)
    (acc : HartAccess) (n : Nat) (v : Word) :
    hartMemory s h acc pa n v = (s.refuseWorld (Config.homeDie pa % 8) pa none).out (.hartError h) := by
  unfold hartMemory hworldOff; rw [State.worldRefuses_other other]

/-! ### Outside parties: the combinations of an AMO -/

/-- A pattern of `n` bytes as a two's complement value (R54). -/
def signedOf (n v : Nat) : Int := if 2 ^ (8 * n - 1) ≤ v then (v : Int) - 2 ^ (8 * n) else v

theorem IFmt.value_signed {n v : Nat} (hv : v < 2 ^ (8 * n)) : IFmt.value ⟨8 * n, true⟩ v = signedOf n v := by
  simp only [IFmt.value, Nat.mod_eq_of_lt hv, Bool.true_and, decide_eq_true_eq, signedOf]
  push_cast
  rfl

theorem signedOf_inj {n v w : Nat} (hv : v < 2 ^ (8 * n)) (hw : w < 2 ^ (8 * n)) (h : signedOf n v = signedOf n w) : v = w := by
  unfold signedOf at h
  have hv' : (v : Int) < 2 ^ (8 * n) := by exact_mod_cast hv
  have hw' : (w : Int) < 2 ^ (8 * n) := by exact_mod_cast hw
  split at h <;> split at h <;> omega

theorem FFmt.minMax_eq_pickMinMax (f : FFmt) (isMax : Bool) (a b : Nat) : f.minMax isMax a b = pickMinMax isMax f a b := by
  unfold FFmt.minMax pickMinMax Num.ltZ
  dsimp only
  rw [Bool.and_comm (f.value b).isZero]
  cases (f.value a).isNan <;> cases (f.value b).isNan <;> rfl

/-- What an AMO stores, in its low bytes, is the function of R167 on the values of the two patterns. -/
theorem AtomOp.apply_low (op : AtomOp) {n old : Nat} {b : Word} (hn : n = 4 ∨ n = 8) (ho : old < 2 ^ (8 * n)) (hb : b.toNat < 2 ^ (8 * n))
    (hop : op ≠ .cas) :
    (AtomOp.apply op n (BitVec.ofNat 64 old) b 0).toNat % 256 ^ n = combined op n old b.toNat 0 % 256 ^ n := by
  have h64 : old < 2 ^ 64 := by obtain rfl | rfl := hn <;> omega
  have hold : (BitVec.ofNat 64 old).toNat = old := by rw [BitVec.toNat_ofNat, Nat.mod_eq_of_lt h64]
  have hx := IFmt.value_signed ho
  have hy := IFmt.value_signed hb
  have cut (r : Nat) : (BitVec.ofNat 64 r).toNat % 256 ^ n = r % 256 ^ n := by
    rw [BitVec.toNat_ofNat]; obtain rfl | rfl := hn <;> omega
  have pow : 256 ^ n = 2 ^ (8 * n) := by rw [Nat.pow_mul]
  have signed (v : Nat) : (if 2 ^ (8 * n - 1) ≤ v then (v : Int) - 2 ^ (8 * n) else v) = signedOf n v := rfl
  cases op with
  | add =>
    simp only [AtomOp.apply, combined, cut, BitVec.toNat_add, hold]
    obtain rfl | rfl := hn <;> omega
  | min =>
    simp only [AtomOp.apply, combined, hold, hx, hy, signed]
    obtain h | h | h := Int.lt_trichotomy (signedOf n old) (signedOf n b.toNat)
    · rw [if_pos h, if_pos (by omega), hold]
    · rw [if_neg (by omega), if_pos (by omega), signedOf_inj ho hb h]
    · rw [if_neg (by omega), if_neg (by omega)]
  | max =>
    simp only [AtomOp.apply, combined, hold, hx, hy, signed]
    obtain h | h | h := Int.lt_trichotomy (signedOf n old) (signedOf n b.toNat)
    · rw [if_pos h, if_pos (by omega)]
    · rw [if_neg (by omega), if_pos (by omega), hold, signedOf_inj ho hb h]
    · rw [if_neg (by omega), if_neg (by omega), hold]
  | minn =>
    simp only [AtomOp.apply, combined, BitVec.ult, hold, decide_eq_true_eq]
    obtain h | h | h := Nat.lt_trichotomy old b.toNat
    · rw [if_pos h, if_pos (by omega), hold]
    · rw [if_neg (by omega), if_pos (by omega), h]
    · rw [if_neg (by omega), if_neg (by omega)]
  | maxn =>
    simp only [AtomOp.apply, combined, BitVec.ult, hold, decide_eq_true_eq]
    obtain h | h | h := Nat.lt_trichotomy old b.toNat
    · rw [if_pos h, if_pos (by omega)]
    · rw [if_neg (by omega), if_pos (by omega), hold, h]
    · rw [if_neg (by omega), if_neg (by omega), hold]
  | and => simp only [AtomOp.apply, combined, BitVec.toNat_and, hold]
  | or => simp only [AtomOp.apply, combined, BitVec.toNat_or, hold]
  | xor => simp only [AtomOp.apply, combined, BitVec.toNat_xor, hold]
  | swap => rfl
  | cas => exact absurd rfl hop
  | fadd => simp only [AtomOp.apply, combined, cut, hold, FFmt.roundInf, FFmt.fadd]
  | fmin => simp only [AtomOp.apply, combined, cut, hold, FFmt.minMax_eq_pickMinMax]
  | fmax => simp only [AtomOp.apply, combined, cut, hold, FFmt.minMax_eq_pickMinMax]

/-! ### Outside parties: a hart's access to the window -/

theorem hartWindow_refused {n off : Nat} {acc : HartAccess} (bad : n ≠ 8 ∨ off % 8 ≠ 0 ∨ ∃ op, acc = .amo op) (s : State) (h : Nat)
    (v : Word) : hartWindow s h acc off n v =
      (s.logSys (ioDie 0) (BitVec.ofNat 64 (0xFFF0000000000000 + off))).out (.hartError h) := by
  unfold hartWindow
  dsimp only
  by_cases hn : n ≠ 8 ∨ off % 8 ≠ 0
  · rw [if_pos hn]
  · obtain ⟨op, rfl⟩ : ∃ op, acc = .amo op := by
      obtain h | h | h := bad
      · exact absurd (.inl h) hn
      · exact absurd (.inr h) hn
      · exact h
    rw [if_neg hn]
theorem hartWindow_load {off : Nat} (aligned : off % 8 = 0) (s : State) (h : Nat) (v : Word) :
    hartWindow s h .load off 8 v = s.out (.hartValue h (winRead s off)) := by
  unfold hartWindow
  rw [if_neg (by omega)]
theorem hartWindow_store {off : Nat} (aligned : off % 8 = 0) (s : State) (h : Nat) (v : Word) :
    hartWindow s h .store off 8 v = winWrite s off .hart v := by
  unfold hartWindow
  rw [if_neg (by omega)]

theorem hartReads_of_winRead {s : State} {off : Nat} {v : Word} (aligned : off % 8 = 0) (hv : winRead s off = v) (h : Nat) :
    hartReads s h off v := by
  intro x
  rw [exec_lerridHartMemoryAccess, hartAccess_window, hartWindow_load aligned, hv]
  rfl

/-- Below the margin mirrors, what is neither a counter nor a HWORLD register reads as it stands. -/
theorem winRead_plain {off : Nat} (hlt : off < 0x1000400) (hcount : ¬ (0x1000180 ≤ off ∧ off < 0x1000200))
    (hworld : ¬ (0xA000 ≤ off ∧ off < 0xA200)) (s : State) : winRead s off = s.reg off := by
  unfold winRead
  rw [if_neg hworld, if_neg (by omega), if_neg (by omega), if_neg (by omega), if_neg (by omega), if_neg (by omega)]
theorem winRead_hworld {off : Nat} (hlo : 0xA000 ≤ off) (hhi : off < 0xA200) (s : State) : winRead s off = 0 := by
  unfold winRead; rw [if_pos ⟨hlo, hhi⟩]
theorem winRead_context {w o : Nat} (hw : w < 8192) (ho : o < 0x10000) (s : State) : winRead s (contextAt w + o) = ctxRead s w o := by
  unfold winRead contextAt
  rw [if_neg (by omega), if_neg (by omega), if_pos (by omega)]
  congr 1 <;> omega
theorem winRead_queueState {u q : Nat} (hu : u < 192) (hq : q < 8) (s : State) :
    winRead s (queueAt u q + 32) = BitVec.ofNat 64 (s.qState u q) := by
  have hpage : (queueAt u q + 32 - 0x40000000) / 0x1000 = u := by unfold queueAt; omega
  have hoff : (queueAt u q + 32) % 0x1000 = 0x40 * q + 32 := by unfold queueAt; omega
  unfold winRead
  rw [if_neg (by unfold queueAt; omega), if_neg (by unfold queueAt; omega), if_neg (by unfold queueAt; omega),
    if_pos (by unfold queueAt; omega), hpage, hoff]
  unfold readPage
  rw [if_pos (by omega), show (0x40 * q + 32) / 0x40 = q by omega]

/-! ### Outside parties: the words of a wave's window -/

section
variable (W : Wave)

theorem Wave.windowRead_vector {r i : Nat} (hr : r < 60) (hi : i < 64) :
    W.windowRead (512 * r + 8 * i) = W.v r (2 * i + 1) ++ W.v r (2 * i) := by
  unfold Wave.windowRead
  rw [if_pos (by omega), show 128 * ((512 * r + 8 * i) / 512) + (512 * r + 8 * i) % 512 / 4 = 128 * r + 2 * i by omega]
  rfl
theorem Wave.windowRead_scalar (r : SReg) : W.windowRead (0x7800 + 8 * r.toNat) = W.s r := by
  have hr := r.isLt
  unfold Wave.windowRead
  rw [if_neg (by omega), if_pos (by omega), show (0x7800 + 8 * r.toNat - 0x7800) / 8 = r.toNat by omega, BitVec.ofNat_toNat,
    BitVec.setWidth_eq]

/-- The first quad of a slot record is the PC (R242). -/
theorem slotRecord_pc (t : Slot) : BitVec.ofNat 64 (slotRecord t) = t.pc := by
  apply BitVec.eq_of_toNat_eq
  have := t.pc.isLt
  unfold slotRecord entryValue
  rw [BitVec.toNat_ofNat]
  omega
theorem Wave.windowRead_slotA : W.windowRead 0x7B00 = W.shown.1.pc := by
  rw [← slotRecord_pc]
  simp [Wave.windowRead]
theorem Wave.windowRead_slotB : W.windowRead 0x7B20 = W.shown.2.pc := by
  rw [← slotRecord_pc]
  simp [Wave.windowRead]
theorem Wave.windowRead_tpc : W.windowRead 0x7B40 = W.trap.tpc := by simp [Wave.windowRead]
theorem Wave.windowRead_tnext : W.windowRead 0x7B48 = W.trap.tnext ∧ W.windowRead 0x7C60 = W.trap.tnext := by
  constructor <;> simp [Wave.windowRead, TrapRegs.read]
/-- Behind the trap registers, and behind the lane records, the window holds nothing. -/
theorem Wave.windowRead_reserved {o : Nat} (h : (0x7C68 ≤ o ∧ o < 0x8000) ∨ 0x9800 ≤ o) : W.windowRead o = 0 := by
  unfold Wave.windowRead
  iterate 12 rw [if_neg (by omega)]

end

theorem ctxRead_vacant {s : State} {w : Nat} (h : (s.wave w).resident = false) (o : Nat) : ctxRead s w o = 0 := by
  unfold ctxRead; rw [h]; rfl
theorem ctxRead_resident {s : State} {w : Nat} (h : (s.wave w).resident = true) (o : Nat) : ctxRead s w o = (s.wave w).windowRead o :=
  if_pos h

/-! ### Outside parties: STATE of a queue (R232) -/

theorem State.qErr_iff (s : State) (u q : Nat) : s.qErr u q = true ↔ s.inError u q := beq_iff_eq
theorem State.qEn_iff (s : State) (u q : Nat) : s.qEn u q = true ↔ s.queueOn u q := beq_iff_eq
theorem State.qPending_eq (s : State) (u q : Nat) : s.qPending u q = s.pendingAt u q (s.widx u q) := rfl

theorem State.qHead_none {s : State} {u q : Nat} (h : ∀ l ∈ s.launches, ¬ (l.vf = u ∧ l.q = q ∧ l.placed < l.teams)) :
    s.qHead u q = none := by
  unfold State.qHead
  rw [List.find?_eq_none]
  intro l hl hc
  simp only [Bool.and_eq_true, beq_iff_eq, decide_eq_true_eq] at hc
  exact h l hl ⟨hc.1.1, hc.1.2, hc.2⟩

theorem State.qState_error {s : State} {u q : Nat} (h : s.inError u q) : s.qState u q = 2 := by
  unfold State.qState; rw [if_pos ((s.qErr_iff u q).2 h)]
theorem State.qState_busy {s : State} {u q : Nat} (hok : ¬ s.inError u q) (hon : s.queueOn u q)
    (hp : s.pendingAt u q (s.widx u q) ≠ 0) : s.qState u q = 1 := by
  unfold State.qState
  rw [if_neg (mt (s.qErr_iff u q).1 hok), (s.qEn_iff u q).2 hon, State.qPending_eq, bne_iff_ne.2 hp]
  rfl
theorem State.qState_idle {s : State} {u q : Nat} (hok : ¬ s.inError u q)
    (hl : ∀ l ∈ s.launches, ¬ (l.vf = u ∧ l.q = q ∧ l.placed < l.teams))
    (hp : ¬ s.queueOn u q ∨ s.pendingAt u q (s.widx u q) = 0) : s.qState u q = 0 := by
  unfold State.qState
  rw [if_neg (mt (s.qErr_iff u q).1 hok), State.qHead_none hl, State.qPending_eq]
  obtain h | h := hp
  · rw [Bool.eq_false_iff.2 (mt (s.qEn_iff u q).1 h)]; rfl
  · rw [h]; simp

/-! ### Outside parties: withheld cycles (R12) -/

/-- With its major known, a slot's next instruction issues on the major's unit. -/
theorem State.nextUnit_of {s : State} {w : Nat} {x : SlotId} {m : Nat} (h : s.nextMajor w x = some m) :
    s.nextUnit w x = majorUnit m := by
  unfold State.nextUnit; rw [h]; rfl

/-- Withheld majors are those of the units that are withheld whole, and the matrix instructions among the engines'. -/
theorem withheldMajor_iff (m : Nat) : withheldMajor m ↔ majorUnit m = .vector ∨ majorUnit m = .xv ∨ m = 0x31 := by
  unfold withheldMajor majorUnit
  by_cases h1 : m = 0x1E
  · simp [h1]
  by_cases h2 : (0x12 ≤ m ∧ m ≤ 0x1F) ∨ m = 0x3C
  · rw [if_neg h1, if_pos h2]
    exact ⟨fun _ => .inl rfl, fun _ => h2.imp_right .inl⟩
  have h3 : ((0x12 ≤ m ∧ m ≤ 0x1F) ∨ m = 0x3C ∨ m = 0x31) ↔ m = 0x31 := by omega
  rw [if_neg h1, if_neg h2, h3]
  by_cases h4 : (0x20 ≤ m ∧ m ≤ 0x2A) ∨ m = 0x2F
  · simp [h4]
  by_cases h5 : m = 0x2B ∨ m = 0x2C ∨ m = 0x31
  · simp [h4, h5]
  · simp [h4, h5]

theorem State.unitFree_withheld {s : State} {w : Nat} {x : SlotId} {m : Nat} (hm : s.nextMajor w x = some m) (hw : withheldMajor m)
    (hc : s.cycle < s.withholdTo) : s.unitFree w x = false := by
  have hg : decide (s.withholdTo ≤ s.cycle) = false := decide_eq_false (by omega)
  unfold State.unitFree
  rw [State.nextUnit_of hm, hm, hg]
  obtain h | h | rfl := (withheldMajor_iff m).1 hw
  · rw [h]; rfl
  · rw [h]; rfl
  · rfl

/-- Other instructions issue as they would in a cycle that is not withheld. -/
theorem State.unitFree_not_withheld {s : State} {w : Nat} {x : SlotId} {m : Nat} (hm : s.nextMajor w x = some m)
    (hw : ¬ withheldMajor m) (n : Nat) : State.unitFree { s with withholdTo := n } w x = s.unitFree w x := by
  have hm' : State.nextMajor { s with withholdTo := n } w x = some m := hm
  have hnow : State.issuedNow { s with withholdTo := n } (coreOf w) = s.issuedNow (coreOf w) := rfl
  rw [withheldMajor_iff] at hw
  unfold State.unitFree
  rw [State.nextUnit_of hm, State.nextUnit_of hm', hm, hm', hnow]
  cases h : majorUnit m with
  | vector => exact absurd (.inl h) hw
  | xv => exact absurd (.inr (.inl h)) hw
  | scalar => rfl
  | memory => rfl
  | engine =>
    have hne : (some m != some 0x31) = true := bne_iff_ne.2 fun h => hw (.inr (.inr (Option.some.inj h)))
    simp only [hne, Bool.or_true]

theorem State.nextSlot_mayIssue {s : State} {w : Nat} {p : SlotId → Bool} {x : SlotId} (h : s.nextSlot w p = some x) :
    s.mayIssue w x = true := by
  unfold State.nextSlot at h
  dsimp only at h
  split at h
  · next hc => cases h; exact (Bool.and_eq_true_iff.1 (Bool.and_eq_true_iff.1 hc).1).2
  split at h
  · next hc => cases h; exact (Bool.and_eq_true_iff.1 hc).2
  split at h
  · next hc => cases h; exact (Bool.and_eq_true_iff.1 hc).2
  · cases h

theorem State.bankIssue_mayIssue {s : State} {b w : Nat} {x : SlotId} (h : s.bankIssue b = some (w, x)) : s.mayIssue w x = true := by
  unfold State.bankIssue at h
  obtain ⟨i, -, hi⟩ := List.exists_of_findSome?_eq_some h
  obtain ⟨y, hy, he⟩ := Option.map_eq_some_iff.1 hi
  cases he
  exact State.nextSlot_mayIssue hy

/-- A slot that the schedule may take may issue, or completes what has passed at step 0 (R311). -/
theorem State.mem_issues {s : State} {w : Nat} {x : SlotId} (h : (w, x) ∈ s.issues) :
    s.mayIssue w x = true ∨ s.completing w x = true := by
  unfold State.issues at h
  rw [List.mem_eraseDups, List.mem_append] at h
  obtain h | h := h
  · obtain ⟨e, -, he⟩ := List.mem_filterMap.1 h
    exact .inl (State.bankIssue_mayIssue he)
  · unfold State.completions at h
    obtain ⟨e, -, he⟩ := List.mem_flatMap.1 h
    obtain ⟨k, hk, hwx⟩ := List.mem_map.1 he
    cases hwx
    exact .inr (Bool.and_eq_true_iff.1 (List.mem_filter.1 hk).2).1

theorem State.mayIssue_unitFree {s : State} {w : Nat} {x : SlotId} (h : s.mayIssue w x = true) (hp : ((s.wave w).slot x).park = .none) :
    s.unitFree w x = true := by
  unfold State.mayIssue at h
  rw [hp] at h
  simp only [bne_self_eq_false, Bool.false_or, Bool.and_eq_true] at h
  exact h.2.1

theorem State.not_mem_issues_withheld {s : State} {w : Nat} {x : SlotId} {m : Nat} (hm : s.nextMajor w x = some m)
    (hp : ((s.wave w).slot x).park = .none) (hw : withheldMajor m) (hc : s.cycle < s.withholdTo) (hd : s.completing w x = false) :
    (w, x) ∉ s.issues := by
  intro h
  obtain h | h := State.mem_issues h
  · exact absurd (State.mayIssue_unitFree h hp) (by rw [State.unitFree_withheld hm hw hc]; decide)
  · exact absurd h (by rw [hd]; decide)

/-! ### Outside parties: writes between dies (R225) -/

theorem State.causal_iff (s : State) (dst : Nat) (clock : List Nat) : s.causal dst clock = true ↔ applied s dst clock := by
  simp only [State.causal, List.all_eq_true, List.mem_range, decide_eq_true_eq]; rfl
theorem Crossing.at_iff (src dst : Nat) (clock : List Nat) (e : Crossing) : Crossing.at src dst clock e = true ↔ crossesTo src dst clock e := by
  simp only [Crossing.at, crossesTo, Bool.and_eq_true, beq_iff_eq, List.contains_iff_mem, and_assoc]

/-- A write on its way, once it has been applied at die `dst` if it is the one named. -/
def Crossing.appliedAt (src dst : Nat) (clock : List Nat) (e : Crossing) : Crossing :=
  if Crossing.at src dst clock e then { e with todo := e.todo.filter fun d => d != dst } else e

theorem Crossing.not_crossesTo_appliedAt (src dst : Nat) (clock : List Nat) (e : Crossing) :
    ¬ crossesTo src dst clock (e.appliedAt src dst clock) := by
  unfold Crossing.appliedAt
  by_cases h : Crossing.at src dst clock e = true
  · rw [if_pos h]
    rintro ⟨-, -, hm⟩
    simp at hm
  · rw [if_neg h, ← Crossing.at_iff]; exact h
theorem Crossing.appliedAt_other {src dst : Nat} {clock : List Nat} {e : Crossing} (h : ¬ crossesTo src dst clock e) :
    e.appliedAt src dst clock = e := if_neg (mt (Crossing.at_iff src dst clock e).1 h)
/-- What is to be applied at other dies stays so. -/
theorem Crossing.appliedAt_keeps (src dst : Nat) (clock : List Nat) (e : Crossing) :
    (e.appliedAt src dst clock).src = e.src ∧ (e.appliedAt src dst clock).clock = e.clock ∧ (e.appliedAt src dst clock).line = e.line ∧
      ∀ d ∈ e.todo, d ≠ dst → d ∈ (e.appliedAt src dst clock).todo := by
  unfold Crossing.appliedAt
  by_cases h : Crossing.at src dst clock e = true
  · rw [if_pos h]
    exact ⟨rfl, rfl, rfl, fun d hd hne => List.mem_filter.2 ⟨hd, bne_iff_ne.2 hne⟩⟩
  · rw [if_neg h]
    exact ⟨rfl, rfl, rfl, fun d hd _ => hd⟩

theorem exec_crossDieWriteApply (s : State) (src dst : Nat) (clock : List Nat) :
    exec (.crossDieWriteApply src dst clock) s = .next (applyWrite s src dst clock) := rfl

theorem applyWrite_stays {s : State} {src dst : Nat} {clock : List Nat}
    (h : ¬ applied s dst clock ∨ ∀ e ∈ s.crossing, ¬ crossesTo src dst clock e) : applyWrite s src dst clock = s := by
  unfold applyWrite
  refine if_pos ?_
  rw [Bool.or_eq_true, Bool.not_eq_true', Bool.not_eq_true']
  obtain h | h := h
  · exact .inl (Bool.eq_false_iff.2 (mt (s.causal_iff dst clock).1 h))
  · exact .inr (List.any_eq_false.2 fun e he => mt (Crossing.at_iff src dst clock e).1 (h e he))

theorem applyWrite_applied {s : State} {src dst : Nat} {clock : List Nat} (ha : applied s dst clock)
    (hc : ∃ e ∈ s.crossing, crossesTo src dst clock e) : applyWrite s src dst clock = { s with
      clocks := s.clocks.set dst ((s.clocks.getD dst []).set src ((s.clocks.getD dst []).getD src 0 + 1))
      crossing := (s.crossing.map (Crossing.appliedAt src dst clock)).filter fun e => e.todo != [] } := by
  obtain ⟨e, he, hcross⟩ := hc
  have hany : s.crossing.any (Crossing.at src dst clock) = true := List.any_eq_true.2 ⟨e, he, (Crossing.at_iff src dst clock e).2 hcross⟩
  unfold applyWrite
  rw [(s.causal_iff dst clock).2 ha, hany]
  rfl

/-- Reading a list with one entry replaced. -/
theorem getD_set {α : Type} {l : List α} {i : Nat} (hi : i < l.length) (v d : α) (j : Nat) :
    (l.set i v).getD j d = if j = i then v else l.getD j d := by
  simp only [List.getD_eq_getElem?_getD]
  by_cases hj : j = i
  · subst hj; rw [List.getElem?_set_self hi, if_pos rfl]; rfl
  · rw [List.getElem?_set_ne (Ne.symm hj), if_neg hj]

/-- One count of one clock has risen. -/
theorem getD_set_clock {cs : List (List Nat)} {src dst : Nat} (hdst : dst < cs.length) (hsrc : src < (cs.getD dst []).length) (d k : Nat) :
    ((cs.set dst ((cs.getD dst []).set src ((cs.getD dst []).getD src 0 + 1))).getD d []).getD k 0 =
      (cs.getD d []).getD k 0 + if d = dst ∧ k = src then 1 else 0 := by
  rw [getD_set hdst]
  by_cases hd : d = dst
  · subst hd
    rw [if_pos rfl, getD_set hsrc]
    by_cases hk : k = src
    · rw [if_pos hk, if_pos ⟨rfl, hk⟩, hk]
    · rw [if_neg hk, if_neg fun h => hk h.2, Nat.add_zero]
  · rw [if_neg hd, if_neg fun h => hd h.1, Nat.add_zero]

/-! ### Outside parties: what a device's request and a hart's access do -/

@[simp] theorem State.refuseWorld_outputs (s : State) (d pa : Nat) (sys : Option Bool) :
    (s.refuseWorld d pa sys).outputs = s.outputs := by rw [State.refuseWorld_rest]

@[simp] theorem State.logSys_outputs (s : State) (d : Nat) (a : Word) : (s.logSys d a).outputs = s.outputs := rfl
@[simp] theorem State.out_outputs (s : State) (o : Output) : (s.out o).outputs = s.outputs ++ [o] := rfl

section
variable {s : State} {port pa n : Nat}

theorem device_otherWorld (hw : s.wid (Config.homeDie pa % 8) ≠ 0) {die : Nat} (hdie : ioDie (port / 2) = die) (write : Bool) (n : Nat)
    (v : Word) : ∃ t, exec (.pcieCxlRequest port write pa n v) s = .next t ∧
      worldRefusedAt s t (Config.homeDie pa % 8) pa [0x1000010 + 0x1000 * die, 0x1000018 + 0x1000 * die] ∧
      t.reg (0x1000010 + 0x1000 * die) = BitVec.ofNat 64 pa ∧
      t.reg (0x1000018 + 0x1000 * die) = s.reg (0x1000018 + 0x1000 * die) + 1 ∧ t.outputs = s.outputs ++ [.pcieAbort port] := by
  refine ⟨_, exec_pcieCxlRequest .., ?_⟩
  rw [pcieRequest_otherWorld hw, hdie]
  obtain ⟨hr, haddr, hcount⟩ := worldRefusedAt_logSys_out s (Config.homeDie pa % 8) die pa (.pcieAbort port)
  exact ⟨hr, haddr, hcount, by rw [State.out_outputs, State.logSys_outputs, State.refuseWorld_outputs]⟩

theorem device_guarded (hw : s.wid (Config.homeDie pa % 8) = 0) (hg : s.guardedIn pa n = true) (v : Word) :
    ∃ t, exec (.pcieCxlRequest port true pa n v) s = .next t ∧ loggedAt s t (if port < 2 then 0 else 4) (BitVec.ofNat 64 pa) ∧
      t.outputs = s.outputs ++ [.pcieAbort port] := by
  refine ⟨_, exec_pcieCxlRequest .., ?_⟩
  rw [pcieRequest_guarded hw hg, ioDie_port]
  exact ⟨loggedAt_logSys_out .., rfl⟩

theorem device_write (hw : s.wid (Config.homeDie pa % 8) = 0) (hg : s.guardedIn pa n = false) (v : Word) :
    ∃ t, exec (.pcieCxlRequest port true pa n v) s = .next t ∧ stored s t pa n v.toNat ∧ marksCleared s t pa n ∧
      t.outputs = s.outputs := by
  refine ⟨_, exec_pcieCxlRequest .., ?_⟩
  rw [pcieRequest_write hw hg]
  exact ⟨stored_poke _ _ _ _, marksCleared_poke _ _ _ _, rfl⟩

theorem device_read (hw : s.wid (Config.homeDie pa % 8) = 0) (hc : cleanAt s pa n) (v : Word) :
    exec (.pcieCxlRequest port false pa n v) s =
      .next { s with outputs := s.outputs ++ [.pcieValue port (BitVec.ofNat 64 (memValue s pa n))] } := by
  rw [exec_pcieCxlRequest, pcieRequest_read hw, State.outsideRead_clean hc]
  rfl

end

section
variable {s : State} {h pa : Nat} (hpa : pa < 0xFFF0000000000000)
include hpa

theorem exec_hartMemory (s : State) (h : Nat) (acc : HartAccess) (n : Nat) (v : Word) :
    exec (.lerridHartMemoryAccess h acc pa n v) s = .next (hartMemory s h acc pa n v) := by
  rw [exec_lerridHartMemoryAccess, hartAccess_memory hpa]

theorem hart_otherWorld (other : ¬ s.wid (Config.homeDie pa % 8) = s.regBits (0xA000 + 8 * h) 0 8) (acc : HartAccess) (n : Nat) (v : Word) :
    ∃ t, exec (.lerridHartMemoryAccess h acc pa n v) s = .next t ∧ worldRefusedAt s t (Config.homeDie pa % 8) pa [] ∧
      t.outputs = s.outputs ++ [.hartError h] := by
  refine ⟨_, exec_hartMemory hpa .., ?_⟩
  rw [hartMemory_otherWorld other]
  exact ⟨worldRefusedAt_out .., by rw [State.out_outputs, State.refuseWorld_outputs]⟩

variable (mine : s.wid (Config.homeDie pa % 8) = s.regBits (0xA000 + 8 * h) 0 8) {n : Nat}
include mine

theorem hart_guarded (hg : s.guardedIn pa n = true) {acc : HartAccess} (hacc : acc ≠ .load) (v : Word) :
    ∃ t, exec (.lerridHartMemoryAccess h acc pa n v) s = .next t ∧ loggedAt s t 0 (BitVec.ofNat 64 pa) ∧
      t.outputs = s.outputs ++ [.hartError h] := by
  refine ⟨_, exec_hartMemory hpa .., ?_⟩
  rw [hartMemory_guarded mine hg hacc]
  exact ⟨loggedAt_logSys_out .., rfl⟩

theorem hart_load (hc : cleanAt s pa n) (v : Word) : exec (.lerridHartMemoryAccess h .load pa n v) s =
    .next { s with outputs := s.outputs ++ [.hartValue h (BitVec.ofNat 64 (memValue s pa n))] } := by
  rw [exec_hartMemory hpa, hartMemory_load mine, State.outsideRead_clean hc]
  rfl

theorem hart_store (hg : s.guardedIn pa n = false) (v : Word) :
    ∃ t, exec (.lerridHartMemoryAccess h .store pa n v) s = .next t ∧ stored s t pa n v.toNat ∧ marksCleared s t pa n ∧
      t.outputs = s.outputs := by
  refine ⟨_, exec_hartMemory hpa .., ?_⟩
  rw [hartMemory_store mine hg]
  exact ⟨stored_poke _ _ _ _, marksCleared_poke _ _ _ _, rfl⟩

theorem hart_amo (hn : n = 4 ∨ n = 8) (hg : s.guardedIn pa n = false) (hc : cleanAt s pa n) {op : AtomOp} {v : Word}
    (hv : v.toNat < 2 ^ (8 * n)) (hop : op ≠ .cas) :
    ∃ t, exec (.lerridHartMemoryAccess h (.amo op) pa n v) s = .next t ∧
      stored s t pa n (combined op n (memValue s pa n) v.toNat 0) ∧
      t.outputs = s.outputs ++ [.hartValue h (BitVec.ofNat 64 (memValue s pa n))] := by
  have hold : memValue s pa n < 2 ^ (8 * n) := by rw [Nat.pow_mul]; exact memValue_lt s pa n
  refine ⟨_, exec_hartMemory hpa .., ?_⟩
  rw [hartMemory_amo mine hg, State.outsideRead_clean hc]
  exact ⟨stored_congr (AtomOp.apply_low op hn hold hv hop) (stored_poke _ _ _ _), rfl⟩

end

/-! ### Outside parties: what a hart's access to the window does -/

theorem hart_window_refused {n off : Nat} {acc : HartAccess} (bad : n ≠ 8 ∨ off % 8 ≠ 0 ∨ ∃ op, acc = .amo op) (s : State) (h : Nat)
    (v : Word) : ∃ t, exec (.lerridHartMemoryAccess h acc (0xFFF0000000000000 + off) n v) s = .next t ∧
      loggedAt s t 0 (BitVec.ofNat 64 (0xFFF0000000000000 + off)) ∧ t.outputs = s.outputs ++ [.hartError h] := by
  refine ⟨_, exec_lerridHartMemoryAccess .., ?_⟩
  rw [hartAccess_window, hartWindow_refused bad]
  exact ⟨loggedAt_logSys_out .., rfl⟩

theorem hart_window_store {off : Nat} (aligned : off % 8 = 0) (s : State) (h : Nat) (v : Word) :
    exec (.lerridHartMemoryAccess h .store (0xFFF0000000000000 + off) 8 v) s = exec (.windowWrite off v .system) s := by
  rw [exec_lerridHartMemoryAccess, hartAccess_window, hartWindow_store aligned, exec_windowWrite, if_neg (not_not_intro aligned)]
  rfl

theorem hartReads_context {w o : Nat} (hw : w < 8192) (ho : o < 0x10000) (aligned : o % 8 = 0) {s : State} {v : Word}
    (hv : ctxRead s w o = v) (h : Nat) : hartReads s h (contextAt w + o) v :=
  hartReads_of_winRead (by unfold contextAt; omega) ((winRead_context hw ho s).trans hv) h

theorem hartReads_resident {s : State} {w o : Nat} (hw : w < 8192) (ho : o < 0x10000) (aligned : o % 8 = 0)
    (hr : (s.wave w).resident = true) (h : Nat) :
    (∀ r i, r < 60 → i < 64 → o = 512 * r + 8 * i →
      hartReads s h (contextAt w + o) ((s.wave w).v r (2 * i + 1) ++ (s.wave w).v r (2 * i))) ∧
    (∀ r : SReg, o = 0x7800 + 8 * r.toNat → hartReads s h (contextAt w + o) ((s.wave w).s r)) ∧
    (o = 0x7B00 → hartReads s h (contextAt w + o) (s.wave w).shown.1.pc) ∧
    (o = 0x7B20 → hartReads s h (contextAt w + o) (s.wave w).shown.2.pc) ∧
    (o = 0x7B40 → hartReads s h (contextAt w + o) (s.wave w).trap.tpc) ∧
    (o = 0x7B48 ∨ o = 0x7C60 → hartReads s h (contextAt w + o) (s.wave w).trap.tnext) ∧
    (0x7C68 ≤ o → o < 0x8000 → hartReads s h (contextAt w + o) 0) ∧ (0x9800 ≤ o → hartReads s h (contextAt w + o) 0) := by
  have reads {v : Word} (hv : (s.wave w).windowRead o = v) : hartReads s h (contextAt w + o) v :=
    hartReads_context hw ho aligned ((ctxRead_resident hr o).trans hv) h
  refine ⟨fun r i hr hi he => reads ?_, fun r he => reads ?_, fun he => reads ?_, fun he => reads ?_, fun he => reads ?_,
    fun he => reads ?_, fun h1 h2 => reads ?_, fun h1 => reads ?_⟩
  · rw [he, Wave.windowRead_vector _ hr hi]
  · rw [he, Wave.windowRead_scalar]
  · rw [he, Wave.windowRead_slotA]
  · rw [he, Wave.windowRead_slotB]
  · rw [he, Wave.windowRead_tpc]
  · obtain he | he := he
    · rw [he, (Wave.windowRead_tnext _).1]
    · rw [he, (Wave.windowRead_tnext _).2]
  · exact Wave.windowRead_reserved _ (.inl ⟨h1, h2⟩)
  · exact Wave.windowRead_reserved _ (.inr h1)

theorem hartReads_queueState {s : State} {u q : Nat} (hu : u < 192) (hq : q < 8) {n : Nat} (hn : s.qState u q = n) (h : Nat) :
    hartReads s h (queueAt u q + 32) (BitVec.ofNat 64 n) :=
  hartReads_of_winRead (by unfold queueAt; omega) ((winRead_queueState hu hq s).trans (by rw [hn])) h

/-! ### Outside parties: measurements and writes between dies -/

theorem exec_spdmRequest (s : State) : exec .spdmRequest s = .next (spdmAnswer s) := rfl
theorem State.measurements_some {s : State} {b : Blob} (h : s.blob = some b) :
    s.measurements = Config.firmwareDigest :: Config.blobDigest b.items :: s.measured := by
  unfold State.measurements; rw [h]; rfl
theorem State.measurements_none {s : State} (h : s.blob = none) : s.measurements = Config.firmwareDigest :: s.measured := by
  unfold State.measurements; rw [h]; rfl
theorem State.worlds_length (s : State) : s.worlds.length = 8 := rfl
theorem State.worlds_getD (s : State) {d : Nat} (hd : d < 8) : s.worlds.getD d 0 = s.reg (0x1000000 + 0x1000 * d) := by
  unfold State.worlds
  rw [List.getD_eq_getElem?_getD, List.getElem?_map, List.getElem?_range hd]
  rfl

theorem crossing_applied {s : State} {src dst : Nat} {clock : List Nat} (ha : applied s dst clock)
    (hc : ∃ e ∈ s.crossing, crossesTo src dst clock e) (hsrc : src < 8) (hdst : dst < s.clocks.length)
    (hlen : (s.clocks.getD dst []).length = 8) :
    ∃ t, exec (.crossDieWriteApply src dst clock) s = .next t ∧ t = { s with clocks := t.clocks, crossing := t.crossing } ∧
      (∀ d k, (t.clocks.getD d []).getD k 0 = (s.clocks.getD d []).getD k 0 + if d = dst ∧ k = src then 1 else 0) ∧
      (∀ e ∈ t.crossing, ¬ crossesTo src dst clock e) ∧
      (∀ e ∈ s.crossing, ¬ crossesTo src dst clock e → e.todo ≠ [] → e ∈ t.crossing) ∧
      ∀ e ∈ s.crossing, ∀ d, d ≠ dst → d ∈ e.todo →
        ∃ f ∈ t.crossing, f.src = e.src ∧ f.clock = e.clock ∧ f.line = e.line ∧ d ∈ f.todo := by
  refine ⟨_, exec_crossDieWriteApply .., ?_⟩
  rw [applyWrite_applied ha hc]
  have mem (e : Crossing) (he : e ∈ s.crossing) (hne : (e.appliedAt src dst clock).todo ≠ []) : e.appliedAt src dst clock ∈
      (s.crossing.map (Crossing.appliedAt src dst clock)).filter fun e => e.todo != [] :=
    List.mem_filter.2 ⟨List.mem_map_of_mem he, bne_iff_ne.2 hne⟩
  refine ⟨rfl, getD_set_clock hdst (by omega), fun e he => ?_, fun e he hne htodo => ?_, fun e he d hd hmem => ?_⟩
  · obtain ⟨f, -, rfl⟩ := List.mem_map.1 (List.mem_filter.1 he).1
    exact f.not_crossesTo_appliedAt src dst clock
  · have := mem e he
    rw [Crossing.appliedAt_other hne] at this
    exact this htodo
  · obtain ⟨h1, h2, h3, hkeep⟩ := e.appliedAt_keeps src dst clock
    exact ⟨_, mem e he (List.ne_nil_of_mem (hkeep d hmem hd)), h1, h2, h3, hkeep d hmem hd⟩

end Sys2Proof.Machine

open Sys2Proof Sys2Proof.Machine in
/-- Settles O54: each kind of request is one case of the function that the step calls; a refusal is read off the registers of
`State.refuseWorld` and `State.logSys`, and a slot that may issue has its unit granted (`State.mem_issues`). -/
theorem outsideAccessesAreServedOrRefused : Obligations.OutsideAccessesAreServedOrRefused := by
  refine ⟨fun s port pa n v _ => ?_, fun s h pa n acc v hn hpa => ?_, fun s h off n acc v => ?_, fun s => ?_, fun _ _ => rfl,
    fun s w x m hm hp => ?_, fun s src dst clock => ?_⟩
  · exact ⟨fun hw write => device_otherWorld hw (ioDie_port port) write n v, fun hw hg => device_guarded hw hg v, fun hw hg => device_write hw hg v,
      fun hw _ hc => device_read hw hc v⟩
  · exact ⟨fun other => hart_otherWorld hpa other acc n v, fun mine hg hacc => hart_guarded hpa mine hg hacc v,
      fun mine hc => hart_load hpa mine hc v, fun mine hg => hart_store hpa mine hg v,
      fun _ mine hg hc h4 hv hop _ => hart_amo hpa mine (by omega) hg hc hv hop⟩
  · refine ⟨fun bad => hart_window_refused bad s h v, fun ha => hart_window_store ha s h v,
      fun ha hlt hcount hworld => hartReads_of_winRead ha (winRead_plain hlt hcount hworld s) h,
      fun ha hlo hhi => hartReads_of_winRead ha (winRead_hworld hlo hhi s) h, ?_, ?_⟩
    · rintro w o hw ho ha rfl
      exact ⟨fun hr => hartReads_context hw ho ha (ctxRead_vacant hr o) h, fun hr => hartReads_resident hw ho ha hr h⟩
    · rintro u q hu hq rfl
      exact ⟨fun he => hartReads_queueState hu hq (State.qState_error he) h,
        fun he hon hp => hartReads_queueState hu hq (State.qState_busy he hon hp) h,
        fun he hl hp => hartReads_queueState hu hq (State.qState_idle he hl hp) h⟩
  · exact ⟨s.measurements, s.worlds, exec_spdmRequest s, fun _ => State.measurements_some, State.measurements_none, s.worlds_length,
      fun _ => s.worlds_getD⟩
  · exact ⟨State.not_mem_issues_withheld hm hp, State.unitFree_not_withheld hm⟩
  · exact ⟨fun h => (exec_crossDieWriteApply ..).trans (congrArg _ (applyWrite_stays h)), crossing_applied⟩
